-- ==== Sys2Proof/Word.lean ====
section
/-!
DEFINITION. The words of the device and their plainest arithmetic.
Registers are 32 bits wide (R10) and multi-byte values are little-endian (R7).
-/
namespace Sys2Proof

/-- A byte of memory, of a command, of a completion or of a register access (R7). -/
abbrev Byte := BitVec 8

/-- A register of BAR0 (R10). -/
abbrev Word := BitVec 32

/-- A scalar register s0–s63 of a sequencer, a TICK value or a device time (R74, R13). -/
abbrev Dword := BitVec 64

/-- A vector register of one cluster: 64 lanes of 32 bits (R74). -/
abbrev Vec := BitVec 2048

/-- A descriptor register: 64 bytes (R74, R78). -/
abbrev Desc := BitVec 512

end Sys2Proof
end

