-- ==== Sys2Proof/Types.lean ====
section
/-!
DEFINITION. The types of the operands that commands carry.
-/
namespace Sys2Proof

/-- The access path of a register access (R13, R550). -/
inductive Path where
  /-- The external host's direct access, over BAR0 or QSPI. -/
  | host
  /-- The register-access commands of queue pair `q`. -/
  | queue (q : Fin 64)
  /-- The lighthouse firmware. -/
  | firmware
  /-- A lighthouse task, by the handle of the task. -/
  | task (h : Fin 128)
  /-- JTAG. -/
  | jtag
  deriving DecidableEq, Repr

/-- The queue pair a command was fetched from, the CID its host chose, and whether a reserved bit of the entry is set (R670, R676). -/
structure CmdCtx where
  q : Fin 64
  cid : Nat
  resv : Bool
  deriving DecidableEq, Repr

/-- A buffer reference (R671); for KIND 0, `dma` holds the bytes that host memory answered with, or none where the access failed. -/
structure BufRef where
  kind : Nat
  addr : Nat
  len : Nat
  resv : Bool
  dma : Option (List Byte)
  deriving DecidableEq, Repr

/-- What issues an instruction: a slot run of the strict domain, or a lighthouse task (R354). -/
inductive RunId where
  | slot (s : Fin 255)
  | task (h : Fin 128)
  deriving DecidableEq, Repr

/-- The issue fields of an instruction word: its run, its stream, its guard (R82, R93) and its LAST bit (R84); `par` names the
resources that detect a parity error while the instruction runs (R185, R187, R222): bits 0–3 quadrants, bits 4–11 clusters, bits
12–15 the window-unit line buffers of quadrants. -/
structure Issue where
  run : RunId
  stream : Fin 4
  pred : Fin 8
  neg : Bool
  last : Bool
  par : Nat
  deriving DecidableEq, Repr

/-- Operand 2 of R115: a scalar register or a 32-bit immediate. -/
inductive Op2 where
  | reg (r : Fin 64)
  | imm (v : BitVec 32)
  deriving DecidableEq, Repr

/-- TYPE of a vector instruction (R133); codes 6 and 7 are invalid and have no constructor. -/
inductive VType where
  | f32
  | f64
  | f16
  | bf16
  | i32
  | u32
  deriving DecidableEq, Repr

/-- What a NOP is: an instruction word (R115), or command 0x00 of a queue (R676). -/
inductive NopSource where
  | word (iss : Issue)
  | command (cmd : CmdCtx)
  deriving DecidableEq, Repr

/-- How a crane transfer ends (R259, R266, R282, R680). -/
inductive XferEnd where
  | ok
  | dramError
  | flashError
  | hostError
  deriving DecidableEq, Repr

/-- What the translation layer of the flash reports with an event, its inner layout being its own (R268): blocks retired, the life used,
the spare blocks left, the fill of the write cache, and the 16 KiB pages read that no other event reports, by block (R283). -/
structure FtlReport where
  retired : Nat
  life : Nat
  spare : Nat
  fill : Nat
  reads : List (Nat × Nat)
  deriving DecidableEq, Repr

/-- What a wheel input or quadrature pair does (R426): a rising or falling edge of a pulse input, a step up or down of a quadrature counter, or
both of its lines changing in one filter sample. -/
inductive WheelEv where
  | rise
  | fall
  | up
  | down
  | bothLines
  deriving DecidableEq, Repr

/-- What a CSI-2 lane does (R410): it enters the LP-11 stop state, ULPS or HS; HS begins with a start-of-transmission that is clean or in
error, or with a skew-calibration sequence. -/
inductive LaneEv where
  | stop
  | ulps
  | hs
  | hsSotError
  | hsSkewCal
  deriving DecidableEq, Repr

/-- The header of a long packet as the receiver's ECC sees it (R410, R412). -/
inductive Ecc where
  | clean
  | corrected
  | double
  deriving DecidableEq, Repr

/-- What the outside brings over an audio frame (R350): the device time of its end boundary; for each microphone the decimator's output at its
channel's rate, and the VAD path's 16 samples at 16 kHz; the level of CHG_DET at the boundary; the temperatures of the junction sensors and
of the skin, in units of 0.125 °C, and whether SKIN_NTC measures above 2 MΩ or below 100 Ω (R526, R530). -/
structure FrameIn where
  time : Nat
  caps : List (List (BitVec 16))
  vad : List (List (BitVec 16))
  chg : Bool
  junction : List Int
  skin : Int
  ntcBad : Bool
  deriving DecidableEq, Repr

/-- How DRAM is trained in a start (R693): over the cached path, in full, in full after the cached path failed its pattern, or without success
(in full at once, or after the cached path). -/
inductive Training where
  | cached
  | full
  | cachedThenFull
  | failed (afterCached : Bool)
  deriving DecidableEq, Repr

/-- What the outside brings to a start (R653, R692–R699): the HOST_SEL strap, how often the crystal failed before it started, the training, whether
the flash journal can be read, the images whose payload reads wrong, and the tenants whose record cannot be read or authenticated, as a mask. -/
structure StartIn where
  hostSel : Bool
  retries : Nat
  train : Training
  journal : Bool
  damaged : List Nat
  unreadable : Nat
  deriving DecidableEq, Repr

end Sys2Proof
end

