-- ==== Sys2Proof/Syntax.lean ====
section
/-!
DEFINITION. The commands of the device: one constructor per row of the table of operations and events.
A command is an operation that host software, a slot program or the lighthouse gives, or an event at a pin, a bus, a timer or an engine.
-/
namespace Sys2Proof

/-- A command, with the operands of its row. -/
inductive Instr where
  /-- REGISTER_WRITE: a write to a register that has no row of its own acts as the access codes, the reserved-bit rules and the tenant permissions allow (R10). -/
  | registerWrite (p : Path) (a : Nat) (bs : List Byte)
  /-- WIDE_VALUE_CAPTURE_READ: a read of the lowest word of a wide value captures its upper words into the shadow of the access path (R13). -/
  | wideValueCaptureRead (p : Path) (a : Nat) (n : Nat)
  /-- DM_CE_COUNT: a read returns the count of corrected DRAM errors and clears it (R259). -/
  | dmCeCount (p : Path)
  /-- LH_CAP_MISSED: a read returns the count of uncopied capture records of a channel and clears it (R366). -/
  | lhCapMissed (p : Path) (c : Fin 8)
  /-- AU_PB_UNDERRUN: a read returns the underrun count of a playback stream and clears it (R377). -/
  | auPbUnderrun (p : Path) (n : Fin 8)
  /-- CM_RX_ERR: a read returns the receiver error counts and clears them (R412). -/
  | cmRxErr (p : Path) (r : Fin 2)
  /-- SN_STREAM_OVR: a read returns the trigger-overrun count of a stream and clears it (R425). -/
  | snStreamOvr (p : Path) (n : Fin 48)
  /-- SN_STREAM_MISSED: a read returns the count of dropped records of a stream and clears it (R408). -/
  | snStreamMissed (p : Path) (n : Fin 48)
  /-- FU_OUT_MISSED: a read returns the count of dropped fusion output records and clears it (R463). -/
  | fuOutMissed (p : Path)
  /-- FU_SNS_LATE: a read returns the count of late or discarded samples of a sensor entry and clears it (R446). -/
  | fuSnsLate (p : Path) (n : Fin 16)
  /-- CH_DISCARD: a read returns the fabric discard counts by cause and clears them (R622). -/
  | chDiscard (p : Path)
  /-- CH_PORT_ERR: a read returns the CRC and replay counts of a port and clears them (R643). -/
  | chPortErr (p : Path) (k : Fin 4)
  /-- HS_ACCESS_ERR: a read returns the access-error count and last cause and clears the count (R664). -/
  | hsAccessErr (p : Path)
  /-- HS_Q_COUNT: a read returns the outstanding and lost-notice counts of a queue pair and clears the lost-notice count (R668). -/
  | hsQCount (p : Path) (t : Fin 64)
  /-- EF_LOST: a read returns the lost-record count of a tenant fault ring and clears it (R704). -/
  | efLost (p : Path) (t : Fin 64)
  /-- EF_DEV_LOST: a read returns the lost-record count of the device fault ring and clears it (R704). -/
  | efDevLost (p : Path)
  /-- EF_TAIL: a write of a fault ring's TAIL marks records read, and is discarded if it would break the ring bounds (R703). -/
  | efTail (p : Path) (ring : Option (Fin 64)) (v : Word)
  /-- PD_DROOP_MIN: a read returns a rail's droop minimum, captures its tick and cycle, and clears the recorder (R525). -/
  | pdDroopMin (p : Path) (r : Fin 7)
  /-- PD_STRETCH_COUNT: a read returns the stretched-cycle count and clears PD_STATUS.STRETCHED (R522). -/
  | pdStretchCount (p : Path)
  /-- LH_EVT_POP_LO: a read removes and returns the oldest event-latch entry and captures its upper word (R387). -/
  | lhEvtPopLo (p : Path)
  /-- TICK_BOUNDARY: at every tick boundary the tick counter increments and a new tick begins at quay cycle 0 (R17). -/
  | tickBoundary
  /-- REFERENCE_STOP: when the 38.4 MHz reference stops, ticks and device time continue coarsely from the AON clock and no slot runs (R18). -/
  | referenceStop
  /-- REFERENCE_RESTART: when the reference restarts, device time counts reference edges again and ticks become exact at the first qualifying boundary (R18). -/
  | referenceRestart
  /-- CRYSTAL_START_TIMEOUT: a crystal restart that has not completed within 2.00 ms abandons the transitions waiting for it (R494). -/
  | crystalStartTimeout
  /-- SEAM: at reference cycle P minus S of a tick the seam begins and the device performs scrubs, table swaps, route swaps, handovers, PL changes and realignment in order (R35). -/
  | seam
  /-- TK_COMMIT: writing GO submits the shadow table, period and seam length for validation (R27). -/
  | tkCommit (p : Path) (v : Word)
  /-- TABLE_VALIDATION_DONE: validation of a submission completes and it is either accepted for the next seam or rejected (R30). -/
  | tableValidationDone
  /-- SLOT_START: at a slot's START cycle it begins holding its resources and runs, idles or is skipped (R37). -/
  | slotStart (n : Fin 255)
  /-- SLOT_END: at START plus LENGTH the slot ends, truncating an unfinished program and releasing its lists (R40). -/
  | slotEnd (n : Fin 255)
  /-- RESULT_LAND: the earliest pending landing of a run takes place (R87). -/
  | resultLand (run : RunId)
  /-- NOP: no operation, as an instruction word or as a command of a queue (R115, R676). -/
  | nop (src : NopSource)
  /-- ADD: DST ← SRC1 + op2 (R115). -/
  | add (iss : Issue) (dst : Fin 64) (src1 : Fin 64) (op2 : Op2)
  /-- SUB: DST ← SRC1 − op2 (R115). -/
  | sub (iss : Issue) (dst : Fin 64) (src1 : Fin 64) (op2 : Op2)
  /-- MUL: DST ← low 64 bits of SRC1 × op2 (R115). -/
  | mul (iss : Issue) (dst : Fin 64) (src1 : Fin 64) (op2 : Op2)
  /-- AND: bitwise AND (R115). -/
  | and (iss : Issue) (dst : Fin 64) (src1 : Fin 64) (op2 : Op2)
  /-- OR: bitwise OR (R115). -/
  | or (iss : Issue) (dst : Fin 64) (src1 : Fin 64) (op2 : Op2)
  /-- XOR: bitwise XOR (R115). -/
  | xor (iss : Issue) (dst : Fin 64) (src1 : Fin 64) (op2 : Op2)
  /-- SHL: shift left by op2[5:0] (R115). -/
  | shl (iss : Issue) (dst : Fin 64) (src1 : Fin 64) (op2 : Op2)
  /-- SHR: logical shift right by op2[5:0] (R115). -/
  | shr (iss : Issue) (dst : Fin 64) (src1 : Fin 64) (op2 : Op2)
  /-- SAR: arithmetic shift right by op2[5:0] (R115). -/
  | sar (iss : Issue) (dst : Fin 64) (src1 : Fin 64) (op2 : Op2)
  /-- MIN: signed minimum (R115). -/
  | min (iss : Issue) (dst : Fin 64) (src1 : Fin 64) (op2 : Op2)
  /-- MAX: signed maximum (R115). -/
  | max (iss : Issue) (dst : Fin 64) (src1 : Fin 64) (op2 : Op2)
  /-- MINU: unsigned minimum (R115). -/
  | minu (iss : Issue) (dst : Fin 64) (src1 : Fin 64) (op2 : Op2)
  /-- MAXU: unsigned maximum (R115). -/
  | maxu (iss : Issue) (dst : Fin 64) (src1 : Fin 64) (op2 : Op2)
  /-- MOVI: DST ← sext(IMM32) (R115). -/
  | movi (iss : Issue) (dst : Fin 64) (imm : BitVec 32)
  /-- MOVHI: DST ← (IMM32 << 32) OR SRC1[31:0] (R115). -/
  | movhi (iss : Issue) (dst : Fin 64) (src1 : Fin 64) (imm : BitVec 32)
  /-- RDSPEC: DST ← special register (R75, R116). -/
  | rdspec (iss : Issue) (dst : Fin 64) (sel : Fin 4)
  /-- CMPEQ: DST ← (SRC1 = op2) (R115). -/
  | cmpeq (iss : Issue) (dst : Fin 8) (src1 : Fin 64) (op2 : Op2)
  /-- CMPNE: DST ← (SRC1 ≠ op2) (R115). -/
  | cmpne (iss : Issue) (dst : Fin 8) (src1 : Fin 64) (op2 : Op2)
  /-- CMPLT: signed less than (R115). -/
  | cmplt (iss : Issue) (dst : Fin 8) (src1 : Fin 64) (op2 : Op2)
  /-- CMPLTU: unsigned less than (R115). -/
  | cmpltu (iss : Issue) (dst : Fin 8) (src1 : Fin 64) (op2 : Op2)
  /-- CMPLE: signed less or equal (R115). -/
  | cmple (iss : Issue) (dst : Fin 8) (src1 : Fin 64) (op2 : Op2)
  /-- CMPLEU: unsigned less or equal (R115). -/
  | cmpleu (iss : Issue) (dst : Fin 8) (src1 : Fin 64) (op2 : Op2)
  /-- PLOGIC: DST ← truth table of two predicates (R115). -/
  | plogic (iss : Issue) (dst : Fin 8) (a : Fin 8) (b : Fin 8) (table : Fin 16)
  /-- LOOP: hardware loop over the next `body` bundles (R94, R117). -/
  | loop (iss : Issue) (body : Nat) (count : Op2)
  /-- B: branch to a signed word offset (R96, R117). -/
  | b (iss : Issue) (offset : BitVec 32)
  /-- WAIT: empty bundles (R118). -/
  | wait (iss : Issue) (count : Op2)
  /-- END: the stream stops (R98). -/
  | endStream (iss : Issue)
  /-- PILOT: pilot notice (R121). -/
  | pilot (iss : Issue) (cls : Fin 8) (down : Bool) (lead : Nat)
  /-- CONF: publish a stage confidence (R122). -/
  | conf (iss : Issue) (src : Fin 64)
  /-- WAKE: wake a stage (KIND 0) or post a software event (KIND 1) (R123). -/
  | wake (iss : Issue) (event : Bool) (target : Fin 64)
  /-- BOND_OPEN: bond the berths of a mask (R124). -/
  | bondOpen (iss : Issue) (src : Fin 64)
  /-- BOND_COMMIT: commit a higher stage's bond (R125, R126). -/
  | bondCommit (iss : Issue) (stage : Fin 8)
  /-- BOND_DROP: drop a higher stage's bond (R125, R126). -/
  | bondDrop (iss : Issue) (stage : Fin 8)
  /-- MMA: matrix multiply-accumulate (R128). -/
  | mma (iss : Issue) (flow : Fin 3) (acc : Bool) (dst : Fin 16) (a : Fin 16) (b : Fin 16)
  /-- CONV: convolution (R130). -/
  | conv (iss : Issue) (flow : Fin 3) (acc : Bool) (pack : Bool) (dst : Fin 16) (input : Fin 16) (filter : Fin 16) (win : Fin 16)
  /-- POOL: pooling (R200). -/
  | pool (iss : Issue) (mode : Fin 4) (dst : Fin 16) (input : Fin 16) (win : Fin 16)
  /-- VADD: vector add (R171). -/
  | vadd (iss : Issue) (ty : VType) (dst : Fin 32) (a : Fin 32) (b : Fin 32)
  /-- VSUB: vector subtract (R171). -/
  | vsub (iss : Issue) (ty : VType) (dst : Fin 32) (a : Fin 32) (b : Fin 32)
  /-- VMUL: vector multiply (R171). -/
  | vmul (iss : Issue) (ty : VType) (dst : Fin 32) (a : Fin 32) (b : Fin 32)
  /-- VFMA: fused multiply-add with one rounding (R171). -/
  | vfma (iss : Issue) (ty : VType) (dst : Fin 32) (a : Fin 32) (b : Fin 32) (c : Fin 32)
  /-- VMIN: minimum (R172). -/
  | vmin (iss : Issue) (ty : VType) (dst : Fin 32) (a : Fin 32) (b : Fin 32)
  /-- VMAX: maximum (R172). -/
  | vmax (iss : Issue) (ty : VType) (dst : Fin 32) (a : Fin 32) (b : Fin 32)
  /-- VABS: absolute value (R172). -/
  | vabs (iss : Issue) (ty : VType) (dst : Fin 32) (a : Fin 32)
  /-- VNEG: negation (R172). -/
  | vneg (iss : Issue) (ty : VType) (dst : Fin 32) (a : Fin 32)
  /-- VCMPEQ: equality mask (R172). -/
  | vcmpeq (iss : Issue) (ty : VType) (dst : Fin 32) (a : Fin 32) (b : Fin 32)
  /-- VCMPLT: less-than mask (R172). -/
  | vcmplt (iss : Issue) (ty : VType) (dst : Fin 32) (a : Fin 32) (b : Fin 32)
  /-- VCMPLE: less-or-equal mask (R172). -/
  | vcmple (iss : Issue) (ty : VType) (dst : Fin 32) (a : Fin 32) (b : Fin 32)
  /-- VSEL: select by raw selector bits (R136). -/
  | vsel (iss : Issue) (ty : VType) (dst : Fin 32) (a : Fin 32) (b : Fin 32) (c : Fin 32)
  /-- VAND: bitwise AND (R135). -/
  | vand (iss : Issue) (ty : VType) (dst : Fin 32) (a : Fin 32) (b : Fin 32)
  /-- VOR: bitwise OR (R135). -/
  | vor (iss : Issue) (ty : VType) (dst : Fin 32) (a : Fin 32) (b : Fin 32)
  /-- VXOR: bitwise XOR (R135). -/
  | vxor (iss : Issue) (ty : VType) (dst : Fin 32) (a : Fin 32) (b : Fin 32)
  /-- VSHL: shift left (R135). -/
  | vshl (iss : Issue) (ty : VType) (dst : Fin 32) (a : Fin 32) (b : Fin 32)
  /-- VSHR: logical shift right (R135). -/
  | vshr (iss : Issue) (ty : VType) (dst : Fin 32) (a : Fin 32) (b : Fin 32)
  /-- VSAR: arithmetic shift right (R135). -/
  | vsar (iss : Issue) (ty : VType) (dst : Fin 32) (a : Fin 32) (b : Fin 32)
  /-- VCVT: conversion between types (R173). -/
  | vcvt (iss : Issue) (ty : VType) (ty2 : VType) (dst : Fin 32) (a : Fin 32)
  /-- VBCAST: broadcast of a scalar (R135). -/
  | vbcast (iss : Issue) (ty : VType) (dst : Fin 32) (src : Fin 64)
  /-- VEXT: element of the rank-0 cluster (R136). -/
  | vext (iss : Issue) (ty : VType) (dst : Fin 64) (a : Fin 32) (lane : Fin 64)
  /-- VRCP: reciprocal (R174). -/
  | vrcp (iss : Issue) (ty : VType) (dst : Fin 32) (a : Fin 32)
  /-- VRSQRT: reciprocal square root (R174). -/
  | vrsqrt (iss : Issue) (ty : VType) (dst : Fin 32) (a : Fin 32)
  /-- VSQRT: square root (R171). -/
  | vsqrt (iss : Issue) (ty : VType) (dst : Fin 32) (a : Fin 32)
  /-- VDIV: division (R171). -/
  | vdiv (iss : Issue) (ty : VType) (dst : Fin 32) (a : Fin 32) (b : Fin 32)
  /-- VEXP2: base-2 exponential (R174). -/
  | vexp2 (iss : Issue) (ty : VType) (dst : Fin 32) (a : Fin 32)
  /-- VLOG2: base-2 logarithm (R174). -/
  | vlog2 (iss : Issue) (ty : VType) (dst : Fin 32) (a : Fin 32)
  /-- VSIN: sine (R174). -/
  | vsin (iss : Issue) (ty : VType) (dst : Fin 32) (a : Fin 32)
  /-- VCOS: cosine (R174). -/
  | vcos (iss : Issue) (ty : VType) (dst : Fin 32) (a : Fin 32)
  /-- VTANH: hyperbolic tangent (R174). -/
  | vtanh (iss : Issue) (ty : VType) (dst : Fin 32) (a : Fin 32)
  /-- VREDSUM: sum reduction (R136). -/
  | vredsum (iss : Issue) (ty : VType) (dst : Fin 32) (a : Fin 32)
  /-- VREDMAX: maximum reduction (R136). -/
  | vredmax (iss : Issue) (ty : VType) (dst : Fin 32) (a : Fin 32)
  /-- VREDMIN: minimum reduction (R136). -/
  | vredmin (iss : Issue) (ty : VType) (dst : Fin 32) (a : Fin 32)
  /-- VGATHER: indexed gather (R138). -/
  | vgather (iss : Issue) (ty : VType) (dst : Fin 32) (base : Fin 16) (idx : Fin 32)
  /-- VSCATTER: indexed scatter (R138). -/
  | vscatter (iss : Issue) (ty : VType) (base : Fin 16) (idx : Fin 32) (data : Fin 32)
  /-- VMOV: copy (R135). -/
  | vmov (iss : Issue) (ty : VType) (dst : Fin 32) (a : Fin 32)
  /-- LD_S: load 8 bytes (R139). -/
  | ldS (iss : Issue) (dst : Fin 64) (base : Fin 64) (imm : BitVec 32)
  /-- ST_S: store 8 bytes (R139). -/
  | stS (iss : Issue) (data : Fin 64) (base : Fin 64) (imm : BitVec 32)
  /-- LD_V: load 256 bytes per cluster (R139). -/
  | ldV (iss : Issue) (dst : Fin 32) (base : Fin 16) (imm : BitVec 32)
  /-- ST_V: store 256 bytes per cluster (R139). -/
  | stV (iss : Issue) (data : Fin 32) (base : Fin 16) (imm : BitVec 32)
  /-- LD_D: load a descriptor (R139). -/
  | ldD (iss : Issue) (dst : Fin 16) (base : Fin 64) (imm : BitVec 32)
  /-- MOVB: berth-to-berth move (R142). -/
  | movb (iss : Issue) (dst : Fin 16) (src : Fin 16)
  /-- DSET: set one word of a descriptor (R139). -/
  | dset (iss : Issue) (dst : Fin 16) (src : Fin 64) (word : Fin 8)
  /-- DGET: read one word of a descriptor (R139). -/
  | dget (iss : Issue) (dst : Fin 64) (src : Fin 16) (word : Fin 8)
  /-- DADD: advance a descriptor's BASE (R139). -/
  | dadd (iss : Issue) (dst : Fin 16) (src : Fin 16) (op2 : Op2)
  /-- FSEND: fabric send record (R144). -/
  | fsend (iss : Issue) (src : Fin 16) (node : Fin 64) (chan : Fin 64)
  /-- FRECV: fabric receive record (R144). -/
  | frecv (iss : Issue) (dst : Fin 16) (node : Fin 64) (chan : Fin 64)
  /-- FREDUCE: fabric reduction record (R144). -/
  | freduce (iss : Issue) (dst : Fin 16) (src : Fin 16) (op : Fin 4) (group : Fin 64)
  /-- COMMIT_FLIP_END: at the last cycle of a commit flip the bond becomes ordinary berths, the stage LIVE, and held heat, flags, events and confidence take effect (R330). -/
  | commitFlipEnd (t : Fin 64) (j : Fin 8)
  /-- BOND_EXPIRY: a bond not committed by the seam of tick t plus BOND_TTL is dropped (R332). -/
  | bondExpiry (t : Fin 64) (j : Fin 8)
  /-- QY_SELFTEST: writing GO starts a self-test of named quadrants and clusters (R177). -/
  | qySelftest (p : Path) (v : Word)
  /-- SELFTEST_COMPLETE: a self-test completes its 65,536 slot-region quay cycles (R177). -/
  | selftestComplete (fail : BitVec 16)
  /-- PROG_LOAD: loads a tick program or lighthouse task, hashing it as ingested (R100). -/
  | progLoad (cmd : CmdCtx) (r : BufRef) (dest : Nat) (role : Nat) (tenant : Nat) (src : Nat) (image : Nat) (corrupt : Bool)
  /-- PROGRAM_VALIDATION_DONE: validation of a loaded image completes and the load is accepted or rejected (R101). -/
  | programValidationDone (q : Fin 64) (cid : Nat)
  /-- PROG_UNLOAD: unloads a tick program unless a table or submission names it (R103). -/
  | progUnload (cmd : CmdCtx) (h : Nat) (dest : Nat) (tenant : Nat)
  /-- ALLOC: creates an allocation with a flag word and returns its handle (R226). -/
  | alloc (cmd : CmdCtx) (size : Nat) (flags : Nat)
  /-- FREE: frees an allocation unless a table names a manifest using it (R232). -/
  | free (cmd : CmdCtx) (h : Nat)
  /-- ZERO_ON_FREE_DONE: a ZERO_ON_FREE free completes once every copy has been overwritten or erased (R232). -/
  | zeroOnFreeDone (h : Nat)
  /-- MANIFEST_LOAD: validates and stores a manifest and returns its handle (R244). -/
  | manifestLoad (cmd : CmdCtx) (r : BufRef)
  /-- MANIFEST_UNLOAD: unloads a manifest unless a table or submission names it (R245). -/
  | manifestUnload (cmd : CmdCtx) (h : Nat)
  /-- TRANSFER_ISSUE: a crane issues a transfer when its berth is free and its pool allows, checking it against the rules in force (R563). -/
  | transferIssue (x : Nat)
  /-- TRANSFER_COMPLETE: a crane transfer completes, successfully or with an error status (R250). -/
  | transferComplete (x : Nat) (e : XferEnd) (ce : Nat) (reads : List (Nat × Nat))
  /-- PAGE_COPY_DONE: a tier-mover page copy completes and awaits its handover (R240). -/
  | pageCopyDone (h : Nat) (p : Nat) (reads : List (Nat × Nat))
  /-- CR_RES: a write of a tenant's reservation is checked against the pool and accepted or refused (R252). -/
  | crRes (p : Path) (t : Fin 64) (x : Fin 5) (v : Word)
  /-- WRITE_DURABLE: a flash write becomes durable when its SLC program and journal record complete (R273). -/
  | writeDurable (id : Nat) (r : FtlReport)
  /-- RELOCATION_DONE: a read-disturb relocation finishes copying and erases its source (R285). -/
  | relocationDone (block : Nat) (r : FtlReport)
  /-- IMG_OPEN: opens an image ingest (R290). -/
  | imgOpen (cmd : CmdCtx) (r : BufRef)
  /-- IMG_DATA: delivers image bytes in ascending offset order (R290). -/
  | imgData (cmd : CmdCtx) (r : BufRef) (off : Nat)
  /-- IMG_CLOSE: closes an ingest and makes the image visible when durable (R291). -/
  | imgClose (cmd : CmdCtx)
  /-- IMG_DELETE: deletes an image (R289). -/
  | imgDelete (cmd : CmdCtx) (id : Nat)
  /-- IMG_LIST: returns image records (R288). -/
  | imgList (cmd : CmdCtx) (r : BufRef)
  /-- IMG_LOAD: copies a weight image into an allocation after verifying its digest (R292). -/
  | imgLoad (cmd : CmdCtx) (id : Nat) (h : Nat) (off : Nat) (corrupt : Bool) (reads : List (Nat × Nat))
  /-- BOOT_SELECT: sets the persistent boot selector (R570). -/
  | bootSelect (cmd : CmdCtx) (id : Nat)
  /-- FLASH_FORMAT: factory-reformats the flash, destroying all contents (R296). -/
  | flashFormat (cmd : CmdCtx) (key : Nat)
  /-- CAS_CREATE: creates a cascade from its descriptor (R314). -/
  | casCreate (cmd : CmdCtx) (r : BufRef)
  /-- CAS_ARM: arms a cascade (R315). -/
  | casArm (cmd : CmdCtx) (t : Fin 64)
  /-- CAS_DISARM: disarms a cascade, dropping its bonds (R315). -/
  | casDisarm (cmd : CmdCtx) (t : Fin 64)
  /-- CAS_DESTROY: destroys a cascade (R316). -/
  | casDestroy (cmd : CmdCtx) (t : Fin 64)
  /-- AUDIO_FRAME: at every audio frame boundary capture, VAD hops, task shares, haptics, routing and sampling advance (R350). -/
  | audioFrame (f : FrameIn)
  /-- TASK_SHARE_END: a task's share ends and an unfinished task is truncated (R358). -/
  | taskShareEnd (h : Fin 128)
  /-- XTAL32_LOSS: no 32.768 kHz edge for 64 AON cycles holds the FLL and sets XTAL32_LOST (R352). -/
  | xtal32Loss
  /-- XTAL32_RELOCK: crystal edges return and the FLL relocks, clearing the flag (R352). -/
  | xtal32Relock
  /-- XTAL32_START_TIMEOUT: the 32.768 kHz crystal has not locked within 2,000 ms of start (R696). -/
  | xtal32StartTimeout
  /-- LH_PART_OWNER: assigning a lighthouse partition to a new owner starts clearing it (R353). -/
  | lhPartOwner (p : Path) (n : Fin 64) (v : Word)
  /-- PARTITION_CLEAR_DONE: a reassigned partition finishes clearing and becomes accessible to its owner (R353). -/
  | partitionClearDone (p : Fin 64)
  /-- MICRO_ARRAY_START: a store to the command block starts a micro-array multiply (R360). -/
  | microArrayStart (h : Fin 128)
  /-- STAGE1_PUBLISH: a store to the publication port publishes the stage-1 confidence (R361). -/
  | stage1Publish (h : Fin 128)
  /-- VAD_PUBLISH: 64 AON cycles after a hop ends the VAD publishes its confidence as stage 0 (R369). -/
  | vadPublish
  /-- LH_VAD_CFG: a write configures and enables the VAD, applying H and MICS at hop boundaries (R367). -/
  | lhVadCfg (p : Path) (v : Word)
  /-- LH_CAP_CFG: a write enables or disables a capture channel, taking or releasing a stream context (R364). -/
  | lhCapCfg (p : Path) (c : Fin 8) (v : Word)
  /-- MIRROR_COPY: a capture record is copied into its DRAM mirror within 250 µs (R366). -/
  | mirrorCopy (c : Fin 8)
  /-- LH_MIC_MUTE: a write sets or clears the software microphone mute or the settle count (R371). -/
  | lhMicMute (p : Path) (v : Word)
  /-- AU_COMMIT: writing GO commits the next routing matrix, optionally with crossfade (R379). -/
  | auCommit (p : Path) (v : Word)
  /-- TOUCH_SCAN_TIMER: the scan timer triggers a touch scan every PERIOD frames (R380). -/
  | touchScanTimer
  /-- SCAN: a software write triggers a touch scan (R380). -/
  | scan (p : Path)
  /-- TOUCH_MEASUREMENT_END: a touch measurement ends and its channel is evaluated (R380). -/
  | touchMeasurementEnd (cnt : BitVec 16)
  /-- BUTTON_INPUT: a button pad changes level (R382). -/
  | buttonInput (b : Fin 8) (level : Bool)
  /-- BUTTON_DEBOUNCED: a button level held for its debounce time is accepted (R382). -/
  | buttonDebounced (b : Fin 8)
  /-- HAPTIC_GO: writing GO plays a haptic pattern from the next frame boundary (R383). -/
  | hapticGo (p : Path) (h : Fin 2)
  /-- HAPTIC_STOP: writing STOP drives the haptic output low at the next boundary (R383). -/
  | hapticStop (p : Path) (h : Fin 2)
  /-- HAPTIC_STEP_END: a haptic step's duration expires and the next step or repeat begins (R383). -/
  | hapticStepEnd (h : Fin 2)
  /-- RTC_ALARM: the RTC count equals the alarm and posts RTC_ALARM (R385). -/
  | rtcAlarm
  /-- RTC_PERIOD: the RTC period elapses and posts RTC_PERIOD (R385). -/
  | rtcPeriod
  /-- LH_RTC_LO: a write of the RTC takes effect at the next crystal edge (R385). -/
  | lhRtcLo (p : Path) (v : Word)
  /-- LH_RH_TENANTS: a write requests that the lighthouse become or stop being host of queue pairs (R389). -/
  | lhRhTenants (p : Path) (v : BitVec 64)
  /-- RESIDENT_HOST_SWITCH: a resident-host change takes effect once the queue has no command outstanding (R389). -/
  | residentHostSwitch (t : Fin 64)
  /-- STREAM_OPEN: opens a stream context on a source (R406). -/
  | streamOpen (cmd : CmdCtx) (kind : Nat) (src : Nat) (size : Nat) (dram : Bool) (ring : Nat) (records : Nat)
  /-- STREAM_CLOSE: closes a stream context after its last record (R406). -/
  | streamClose (cmd : CmdCtx) (n : Nat)
  /-- STREAM_INJECT: writes a host-injected record to a HOST stream (R406). -/
  | streamInject (cmd : CmdCtx) (n : Nat) (stamp : Nat) (r : BufRef)
  /-- RING_RECORD_WRITE: a record is written to its DRAM ring within 250 µs of its sample boundary, or dropped (R408). -/
  | ringRecordWrite (n : Nat)
  /-- SN_BIND_COMMIT: writing GO rebinds a stream context from its next sample boundary (R409). -/
  | snBindCommit (p : Path) (n : Fin 48) (v : Word)
  /-- FRAME_START: a Frame Start latches the frame address and increments the frame count (R412). -/
  | frameStart (v : Fin 8) (csi : Nat) (late : Bool)
  /-- FRAME_END: a Frame End closes the frame (R413). -/
  | frameEnd (v : Fin 8)
  /-- LONG_PACKET: a long packet is written as a frame line or discarded (R411). -/
  | longPacket (v : Fin 8) (dt : Nat) (bs : List Byte) (ecc : Ecc) (crcBad : Bool) (lost : Bool)
  /-- FRAME_RECORD: within 50 µs of closing, a frame's record is written to its stream (R413). -/
  | frameRecord (v : Fin 8)
  /-- CM_COMMIT: writing GO submits a frame allocation and offset as one commit (R414). -/
  | cmCommit (p : Path) (c : Fin 8) (v : Word)
  /-- SN_I3C_CFG: enabling an I3C controller runs RSTDAA, SETDASA and ENTDAA (R419). -/
  | snI3cCfg (p : Path) (k : Fin 2) (found : List (Fin 11)) (v : Word)
  /-- IBI: an in-band interrupt from a target is accepted or NACKed (R419). -/
  | ibi (k : Fin 2) (addr : Nat) (data : List Byte)
  /-- HOT_JOIN: a Hot-Join request is NACKed (R418). -/
  | hotJoin (k : Fin 2)
  /-- ARM: writing ARM validates and arms a capture sequence (R421). -/
  | arm (p : Path) (n : Fin 16)
  /-- DISARM: writing DISARM disarms a capture sequence (R430). -/
  | disarm (p : Path) (n : Fin 16)
  /-- TRIG: writing TRIG fires a SOFTWARE trigger of a sequence (R422). -/
  | trig (p : Path) (n : Fin 16)
  /-- TIMER_TRIGGER: device time reaches a TIMER trigger point of a sequence (R422). -/
  | timerTrigger (n : Fin 16)
  /-- SEQUENCE_RUN_START: a triggered sequence starts once its controller is free (R424). -/
  | sequenceRunStart (n : Fin 16)
  /-- BUS_TRANSACTION_DONE: a sequence step's bus transaction ends and the next step or the record follows (R423). -/
  | busTransactionDone (n : Fin 16) (ok : Bool) (bs : List Byte)
  /-- WHEEL_EDGE: a filtered wheel or quadrature edge is counted and stamped (R427). -/
  | wheelEdge (w : Fin 4) (e : WheelEv)
  /-- WHEEL_REPORT: at a report point a WHEEL stream writes its record (R428). -/
  | wheelReport (w : Fin 4)
  /-- FU_CTRL: writing EN validates the fusion configuration and enables or disables the engine (R465). -/
  | fuCtrl (p : Path) (v : Word)
  /-- GRID_POINT: at t plus FU_LAT the engine processes a grid point and, at filter steps, runs the filter and writes output (R445). -/
  | gridPoint
  /-- MASK_HOLD_EXPIRY: MASK_HOLD after a consistency mask expires and readmission opens (R457). -/
  | maskHoldExpiry (n : Fin 16)
  /-- FU_SNS_CTRL: a write sets or clears FORCE_MASK of a sensor entry (R457). -/
  | fuSnsCtrl (p : Path) (n : Fin 16) (v : Word)
  /-- PWR_SET: requests domains to on, retention or off (R484). -/
  | pwrSet (cmd : CmdCtx) (p : List Byte)
  /-- PERF_SET: requests quay and SoC performance levels for a coming seam (R486). -/
  | perfSet (cmd : CmdCtx) (p : List Byte)
  /-- STANDING_ORDER: posts or cancels a standing order (R487). -/
  | standingOrder (cmd : CmdCtx) (p : List Byte)
  /-- LOWERING_START: a domain lowering begins once issued transfers have drained, running the retention handshake (R482). -/
  | loweringStart (d : Fin 96)
  /-- DOMAIN_TRANSITION_COMPLETE: a domain transition ends and its new state takes effect (R476). -/
  | domainTransitionComplete (d : Fin 96) (mountOk : Bool) (full : Bool)
  /-- TRANSITION_TIMEOUT: a transition exceeding twice its time is abandoned (R477). -/
  | transitionTimeout (d : Fin 96)
  /-- SQUELCH_BREAK: a squelch break on a port in ANY mode posts a link wake (R492). -/
  | squelchBreak (p : Fin 4)
  /-- WAKE_PATTERN: the wake pattern is detected on a port in PATTERN mode (R492). -/
  | wakePattern (p : Fin 4)
  /-- CLKREQ_ASSERT: CLKREQ# asserted posts a host-link wake (R491). -/
  | clkreqAssert
  /-- PERST_DEASSERT: PERST# deasserted posts a host-link wake and raises HOST (R491). -/
  | perstDeassert
  /-- QSPI_CS_ASSERT: QSPI chip select asserted wakes HOST (R661). -/
  | qspiCsAssert
  /-- ILIM_UPDATE: every 32 AON cycles I_LIM is recomputed from VBAT (R514). -/
  | ilimUpdate (vbat : Nat) (vres : Nat)
  /-- BURST_ENERGY_EXHAUSTED: E_BURST reaches zero during a tick and the reserve supplies until the seam (R518). -/
  | burstEnergyExhausted
  /-- STEP_ASSIST: a VDD_Q droop below setpoint minus 15 mV connects the step assist (R520). -/
  | stepAssist (v : Nat)
  /-- RELEASE_SHUNT: a VDD_Q rise above setpoint plus 25 mV connects the release shunt (R520). -/
  | releaseShunt (v : Nat)
  /-- DROOP_STRETCH: a sense point below PL voltage minus 30 mV stretches the next allowed quay cycle (R521). -/
  | droopStretch (v : Nat) (c : Nat)
  /-- RAIL_UNDERVOLT: a sense point below PL voltage minus 60 mV for 64 cycles truncates running slots (R523). -/
  | railUndervolt (c : Nat)
  /-- THERMAL_SHUTDOWN_COMPARATOR: T_J of 115 °C turns off every domain except AON and puts HM into retention (R531). -/
  | thermalShutdownComparator
  /-- V_WARN_ASSERT: VBAT falls below V_WARN (R533). -/
  | vWarnAssert
  /-- V_WARN_DEASSERT: VBAT rises above V_WARN plus hysteresis and the status clears (R533). -/
  | vWarnDeassert
  /-- V_NVW_ASSERT: VBAT below V_NVW enters the write inhibit and flushes the journal tail (R297). -/
  | vNvwAssert
  /-- V_NVW_DEASSERT: the inhibit ends and held writes program in release order (R299). -/
  | vNvwDeassert
  /-- V_RET_ASSERT: VBAT below V_RET fires the built-in retention order (R535). -/
  | vRetAssert
  /-- V_RET_DEASSERT: VBAT rises above V_RET plus hysteresis and the status clears (R533). -/
  | vRetDeassert
  /-- BROWN_OUT_RESET: VBAT below V_BOR resets every domain, keeping RTC and event latch on the keep-alive supply (R536). -/
  | brownOutReset
  /-- BROWN_OUT_RELEASE: release of brown-out reset runs the start-up sequence to BOOTED and READY (R692). -/
  | brownOutRelease (x : StartIn)
  /-- TENANT_CREATE: creates a tenant with a fresh nonce and key (R554). -/
  | tenantCreate (cmd : CmdCtx) (t : Nat) (mode : Nat) (quota : Nat)
  /-- TENANT_DESTROY: destroys a tenant by aborting transfers, zeroing its key and freeing its objects (R556). -/
  | tenantDestroy (cmd : CmdCtx) (t : Nat)
  /-- RULES_UPDATE: installs a new rule set as the next epoch (R562). -/
  | rulesUpdate (cmd : CmdCtx) (r : BufRef)
  /-- RULE_FENCE: once every revoked transfer has completed, the fence is reached and the update completes (R565). -/
  | ruleFence
  /-- ATTEST: produces a FULL or CERT attestation report (R581). -/
  | attest (cmd : CmdCtx) (kind : Nat) (scope : Nat) (nlen : Nat) (r : BufRef) (nonce : List Byte)
  /-- OWNER_ENROLL: fuses the owner key hash (R575). -/
  | ownerEnroll (cmd : CmdCtx) (r : BufRef)
  /-- SVN_COMMIT: raises the fused SVN counter to the running firmware's SVN (R577). -/
  | svnCommit (cmd : CmdCtx)
  /-- RMA_CONSENT: permits one vendor unlock before the next brown-out reset (R590). -/
  | rmaConsent (cmd : CmdCtx)
  /-- ENTROPY_HEALTH_TEST: an entropy health test runs and may fail or recover (R560). -/
  | entropyHealthTest (pass : Bool)
  /-- HM_LOCK_SET: writing 1 to a bit locks every RWL register of a block (R552). -/
  | hmLockSet (p : Path) (v : Word)
  /-- NEW_CHALLENGE: draws a fresh debug unlock challenge (R585). -/
  | newChallenge (p : Path)
  /-- UNLOCK: verifies a signed response and raises the debug level (R585). -/
  | unlock (p : Path) (level : Fin 4)
  /-- RELOCK: returns the debug level to 0 (R589). -/
  | relock (p : Path)
  /-- EXTEST_ENTRY: entering EXTEST holds every domain except AON in reset (R583). -/
  | extestEntry
  /-- EXTEST_EXIT: leaving EXTEST causes a brown-out reset (R583). -/
  | extestExit
  /-- FLIT: a received flit is checked, accepted or discarded, and delivered or forwarded by its routing table (R610). -/
  | flit (p : Fin 4) (bs : List Byte) (blockErr : Bool)
  /-- ACK: a received ACK returns credits and advances or triggers replay on NAK (R610). -/
  | ack (p : Fin 4) (body : Nat)
  /-- REPLAY_TIMEOUT: 2 µs without an advancing ACK resends all unacknowledged flits (R610). -/
  | replayTimeout (p : Fin 4)
  /-- TRAIN: received TRAIN blocks advance LOCKED and READY until the port enters ACTIVE (R612). -/
  | train (p : Fin 4) (aligned : Bool) (locked : Bool) (ready : Bool)
  /-- TRAINING_TIMEOUT: training not ACTIVE within 100 µs restarts after 1 ms (R612). -/
  | trainingTimeout (p : Fin 4)
  /-- SLEEP: a received SLEEP block moves the port to SLEEP (R612). -/
  | sleep (p : Fin 4)
  /-- BLOCK_LOCK_LOSS: loss of block lock for 1 µs takes an ACTIVE port out of ACTIVE (R612). -/
  | blockLockLoss (p : Fin 4)
  /-- SEND_WAKE: a write makes the port send the wake pattern (R613). -/
  | sendWake (p : Path) (k : Fin 4)
  /-- HELLO: a received HELLO gives the neighbour's UID, versions, time and period (R615). -/
  | hello
  /-- CERT: a received CERT report decides the neighbour's admission (R616). -/
  | cert
  /-- TOPO: a received TOPO updates the topology, connected set and leader, and is flooded if newer (R617). -/
  | topo
  /-- TOPO_TIMER: every 256 ticks the node sends TOPO (R617). -/
  | topoTimer
  /-- ASSIGN_TIMER: a leader whose topology has been stable for 100 µs sends ASSIGN (R619). -/
  | assignTimer
  /-- ASSIGN: a received ASSIGN builds the inactive routing table for a swap at SWAP_TICK (R619). -/
  | assign
  /-- ROUTE_TABLE_RELEASE: the old routing table is released 20 µs after a swap (R623). -/
  | routeTableRelease
  /-- SYNC_REQ: a received SYNC_REQ is answered by SYNC_RESP with fabric-time stamps (R625). -/
  | syncReq (f2 : Fin 64) (f3 : Fin 64)
  /-- SYNC_RESP: a received SYNC_RESP updates the follower's fabric-time offset and rate (R626). -/
  | syncResp (f1 : Fin 64) (f4 : Fin 64)
  /-- SEND_TRANSFER: a received SEND transfer is matched to a FRECV record, staged and landed (R630). -/
  | sendTransfer
  /-- RED_UP: a partial arrives at a group's home and is combined when all shards are present (R633). -/
  | redUp
  /-- CUTOFF_EXPIRY: in a relaxed job, CUTOFF after the first partial without all partials switches to arrival order (R634). -/
  | cutoffExpiry
  /-- RED_DOWN: a received reduction result is placed into waiting FREDUCE records and the job digest computed (R635). -/
  | redDown
  /-- DIGEST: a received job digest is held by the job leader for comparison (R636). -/
  | digest
  /-- VERDICT: a received VERDICT OK or DIVERGE for a tick is held by a member (R637). -/
  | verdict
  /-- CASCADE: a received cascade-decision message is applied to a FROM_PEER stage (R337). -/
  | cascade
  /-- PEER_TRANSFER: a received PEER transfer is delivered into the bound PEER stream context (R638). -/
  | peerTransfer
  /-- JOB_OPEN: opens a fabric job from its descriptor (R632). -/
  | jobOpen (cmd : CmdCtx) (r : BufRef)
  /-- JOB_CLOSE: closes a fabric job at the next seam (R631). -/
  | jobClose (cmd : CmdCtx) (job : Nat)
  /-- SQ_TAIL_DOORBELL: writing the SQ tail submits entries of a queue pair (R666). -/
  | sqTailDoorbell (q : Fin 64) (v : Word) (ok32 : Bool)
  /-- CQ_HEAD_DOORBELL: writing the CQ head frees completion entries (R666). -/
  | cqHeadDoorbell (q : Fin 64) (v : Word) (ok32 : Bool)
  /-- COMMAND_FETCH: the device fetches a command once the CQ has room and starts it in SQ order (R667). -/
  | commandFetch (q : Fin 64) (dma : Option (List Byte))
  /-- COMMAND_COMPLETE: a command that took time completes and its completion entry is posted (R672); `lost` says that a CQ write fails (R673). -/
  | commandComplete (q : Fin 64) (cid : Nat) (lost : Bool)
  /-- IRQ_COALESCE_TIMER: TIME µs after the first unsignalled completion the queue's vector is sent (R675). -/
  | irqCoalesceTimer (q : Fin 64)
  /-- HS_Q_CFG: a write enables or disables a queue pair after checking its bases and depths (R665). -/
  | hsQCfg (p : Path) (t : Fin 64) (v : Word)
  /-- LINK_RESET: FLR, PERST#, hot reset or link down disables the external host's queues (R657). -/
  | linkReset (down : Bool)
  /-- LINK_TRAINED: the PCIe link trains, lowering the host pools if below full bandwidth (R681). -/
  | linkTrained (speed : Fin 5) (width : Fin 3)
  /-- D3HOT_ENTRY: the function enters D3hot and stops fetching commands and sending MSI-X (R658). -/
  | d3hotEntry
  /-- D0_RETURN: on return to D0, held completions are written and interrupts follow (R658). -/
  | d0Return
  /-- QSPI_READ: a QSPI READ transaction reads words from the address upward (R659). -/
  | qspiRead (a : Nat) (n : Nat) (cut : Bool)
  /-- QSPI_WRITE: a QSPI WRITE transaction writes words from the address upward (R659). -/
  | qspiWrite (a : Nat) (ws : List Word) (cut : Bool)
  /-- QSPI_STATUS: a QSPI STATUS transaction returns WRITE_BUSY, IRQ and FRAME_ERR and clears FRAME_ERR (R659). -/
  | qspiStatus (inst : Nat)
  /-- REG_READ: reads a register in the queue's tenant context (R676). -/
  | regRead (cmd : CmdCtx) (off : Nat)
  /-- REG_WRITE: writes a register in the queue's tenant context (R676). -/
  | regWrite (cmd : CmdCtx) (off : Nat) (v : Word)
  /-- HOST_WRITE: writes bytes into an allocation, completing when durable (R676). -/
  | hostWrite (cmd : CmdCtx) (h : Nat) (off : Nat) (r : BufRef)
  /-- HOST_READ: reads bytes from an allocation to a destination (R676). -/
  | hostRead (cmd : CmdCtx) (h : Nat) (off : Nat) (r : BufRef) (reads : List (Nat × Nat))
  /-- HOSTMEM_REG: registers a region of host memory for the tenant (R679). -/
  | hostmemReg (cmd : CmdCtx) (r : BufRef)
  /-- HOSTMEM_UNREG: unregisters a host-memory region (R679). -/
  | hostmemUnreg (cmd : CmdCtx) (region : Nat)
  /-- LH_MEM_WRITE: writes bytes into an owned lighthouse partition (R676). -/
  | lhMemWrite (cmd : CmdCtx) (addr : Nat) (r : BufRef)
  /-- LH_MEM_READ: reads bytes from an owned lighthouse partition (R676). -/
  | lhMemRead (cmd : CmdCtx) (addr : Nat) (r : BufRef)
  /-- RUN_NOTIFY: turns run notices for a slot on or off (R677). -/
  | runNotify (cmd : CmdCtx) (slot : Nat) (on : Bool)
  /-- DROOP_RECORDER_MINIMUM: a rail sample strictly lower than the recorded MIN replaces it and stores the tick and quay cycle (R524). -/
  | droopRecorderMinimum (r : Fin 7) (v : Nat)
  /-- RESERVOIR_V_RES_MIN: VRES reaches V_RES_MIN and the input switch draws up to 3.0 A from VBAT until the seam (R518). -/
  | reservoirVResMin
  /-- DPHY_LANE_STATE_CHANGE: a CSI-2 lane enters or leaves HS, the LP-11 stop state or ULPS (R410). -/
  | dphyLaneStateChange (r : Fin 2) (l : Fin 2) (e : LaneEv)
  /-- SEQUENCE_DELAY_END: a DELAY step of a capture sequence run expires and the run proceeds to its next step (R421). -/
  | sequenceDelayEnd (n : Fin 16)
  /-- VIO_BANK_SUPPLY_CHANGE: VIO_A or VIO_H rises through or falls below 0.9 V, selecting the VIO_H range or making the bank's pads high-impedance and its inputs read 0 (R723). -/
  | vioBankSupplyChange (h : Bool) (up : Bool) (hiV : Bool)
  /-- KEEP_ALIVE_LOSS: the keep-alive supply falls below 1.80 V and the RTC and event-latch contents are lost, making the next start a power-on start (R536). -/
  | keepAliveLoss
  deriving DecidableEq, Repr

end Sys2Proof
end

