-- ==== Sys2Proof/Decode.lean ====
section
/-!
DEFINITION. The reading of a command from the bits of its row: the table of operations and events gives its rows no bits, so no word spells a command.
-/
namespace Sys2Proof

/-- The command that a word of `nbits` bits spells by the table's bits: no row of the table gives bits. -/
def decodeTableWord (_nbits _w : Nat) : Option Instr := none

end Sys2Proof
end

