-- ==== Sys2Proof/Machine/Bits.lean ====
section
/-!
DEFINITION. Bit fields (R7), little-endian bytes (R7) and sparse tables.
A sparse table is a list of (key, value) pairs with strictly rising keys; an absent key reads as the table's default,
and no entry holds the default, so that equal tables are equal data.
-/
namespace Sys2Proof.Machine

/-- Bits `[lo+n-1:lo]` of a number, read as a number (R7). -/
def bits (w lo n : Nat) : Nat := (w >>> lo) % 2 ^ n

/-- Bit `i` of a number. -/
def bit (w i : Nat) : Bool := w.testBit i

/-- Bits `[lo+n-1:lo]` of a register, read as a number (R7). -/
def fld (w : Word) (lo n : Nat) : Nat := bits w.toNat lo n

/-- Bit `i` of a register. -/
def flag (w : Word) (i : Nat) : Bool := w.toNat.testBit i

/-- A register with the field `[lo+n-1:lo]` set to `v` modulo its width (R7). -/
def setFld (w : Word) (lo n v : Nat) : Word :=
  BitVec.ofNat 32 (w.toNat - (bits w.toNat lo n) * 2 ^ lo + (v % 2 ^ n) * 2 ^ lo)

/-- A register with bit `i` set to `b`. -/
def setFlag (w : Word) (i : Nat) (b : Bool) : Word := setFld w i 1 (if b then 1 else 0)

/-- 1 for true, 0 for false. -/
def b2n (b : Bool) : Nat := if b then 1 else 0

/-- The number a list of bytes spells, lowest byte first (R7). -/
def leNat : List Byte → Nat
  | [] => 0
  | b :: bs => b.toNat + 256 * leNat bs

/-- The `n` bytes of a number, lowest byte first (R7). -/
def leBytes : Nat → Nat → List Byte
  | 0, _ => []
  | n + 1, v => BitVec.ofNat 8 v :: leBytes n (v / 256)

/-- The number a list of bytes spells, highest byte first. -/
def beNat (bs : List Byte) : Nat := leNat bs.reverse

/-- The `n` bytes of a number, highest byte first. -/
def beBytes (n v : Nat) : List Byte := (leBytes n v).reverse

/-- `n` bytes of `bs` from offset `o`; bytes past the end are zero. -/
def slice (bs : List Byte) (o n : Nat) : List Byte :=
  let t := (bs.drop o).take n
  t ++ List.replicate (n - t.length) 0

/-- The little-endian field of `n` bytes at offset `o` of a structure (R7). -/
def byteFld (bs : List Byte) (o n : Nat) : Nat := leNat ((bs.drop o).take n)

/-- Whether every byte of a range of a structure is zero (a reserved range, R12). -/
def zeroAt (bs : List Byte) (o n : Nat) : Bool := ((bs.drop o).take n).all (· == 0)

/-- Replace the byte range at offset `o` of a structure by `new`. -/
def patch (bs : List Byte) (o : Nat) (new : List Byte) : List Byte :=
  bs.take o ++ new ++ bs.drop (o + new.length)

/-- The two's-complement integer of the low `n` bits of `v`. -/
def signedOf (n v : Nat) : Int :=
  let u := v % 2 ^ n
  if u < 2 ^ (n - 1) then (u : Int) else (u : Int) - (2 ^ n : Nat)

/-- The low `n` bits of an integer's two's-complement form. -/
def wrapInt (n : Nat) (v : Int) : Nat := (v % ((2 ^ n : Nat) : Int)).toNat

/-- A saturating count of `n` bits. -/
def satAdd (n v d : Nat) : Nat := min (v + d) (2 ^ n - 1)

/-- Division rounded up. -/
def ceilDiv (a b : Nat) : Nat := (a + b - 1) / b

/-- Indices of the bits that are set among the low `n` bits, ascending. -/
def bitList (w n : Nat) : List Nat := (List.range n).filter (fun i => w.testBit i)

/-- The number of bits set among the low `n` bits. -/
def popCount (w n : Nat) : Nat := (bitList w n).length

/-- A mask with the listed bits set. -/
def maskOf (is : List Nat) : Nat := is.foldl (fun m i => m ||| 2 ^ i) 0

/-- The position of the highest set bit, as ⌊log₂ v⌋; 0 for 0. -/
def ilog2 (v : Nat) : Nat := Nat.log2 v

/-- A sparse table. -/
abbrev Tab (β : Type) := List (Nat × β)

/-- The entry of a key, if the table lists one. -/
def tabFind {β : Type} : Tab β → Nat → Option β
  | [], _ => none
  | (k, v) :: t, a => if k = a then some v else tabFind t a

/-- The value of a key, or the default where it is not listed. -/
def tabGet {β : Type} (t : Tab β) (a : Nat) (d : β) : β := (tabFind t a).getD d

/-- The table without a key. -/
def tabDel {β : Type} (t : Tab β) (a : Nat) : Tab β := t.filter (fun e => e.1 != a)

/-- The table with a key set, keys kept rising. -/
def tabPut {β : Type} : Tab β → Nat → β → Tab β
  | [], a, x => [(a, x)]
  | (k, v) :: t, a, x =>
    if a < k then (a, x) :: (k, v) :: t
    else if a = k then (a, x) :: t
    else (k, v) :: tabPut t a x

/-- The table with a key set; setting the default removes the entry, so that equal tables are equal data. -/
def tabSet {β : Type} [DecidableEq β] (t : Tab β) (a : Nat) (x d : β) : Tab β :=
  if x = d then tabDel t a else tabPut t a x

/-- The table with one key's value changed by a function. -/
def tabMod {β : Type} [DecidableEq β] (t : Tab β) (a : Nat) (d : β) (f : β → β) : Tab β :=
  tabSet t a (f (tabGet t a d)) d

/-- The table without the keys of the range `[lo, lo+n)`. -/
def tabClear {β : Type} (t : Tab β) (lo n : Nat) : Tab β :=
  t.filter (fun e => e.1 < lo || lo + n ≤ e.1)

/-- Strictly rising keys, all above a bound. -/
def tabRising {β : Type} : Option Nat → Tab β → Bool
  | _, [] => true
  | none, (k, _) :: t => tabRising (some k) t
  | some b, (k, _) :: t => decide (b < k) && tabRising (some k) t

/-- The canonical form of a byte memory whose unlisted bytes read as `d`: keys strictly rise, and no entry holds `d`. -/
def Memory.wf (t : Tab Byte) (d : Byte) : Bool := tabRising none t && t.all (fun e => e.2 != d)

/-- Bytes of a byte memory from an address; unlisted bytes read as `d`. -/
def memRead (t : Tab Byte) (d : Byte) (a : Nat) : Nat → List Byte
  | 0 => []
  | n + 1 => tabGet t a d :: memRead t d (a + 1) n

/-- Bytes stored into a byte memory, at rising addresses. -/
def memWrite (t : Tab Byte) (d : Byte) : Nat → List Byte → Tab Byte
  | _, [] => t
  | a, b :: bs => memWrite (tabSet t a b d) d (a + 1) bs

/-- The little-endian number of `n` bytes at an address. -/
def memNat (t : Tab Byte) (a n : Nat) : Nat := leNat (memRead t 0 a n)

/-- Replace the element at an index of a list; an index past the end changes nothing. -/
def setAt {α : Type} (l : List α) (i : Nat) (x : α) : List α := l.set i x

/-- Change the elements of a list that satisfy a test. -/
def mapIf {α : Type} (p : α → Bool) (f : α → α) (l : List α) : List α :=
  l.map (fun x => if p x then f x else x)

end Sys2Proof.Machine
end

