-- ==== Sys2Proof/Machine/Parts.lean ====
section
/-!
DEFINITION. The parts of the machine's state, as plain data, by chapter of the spec.
Registers of BAR0 stand in one register file, keyed by address; the parts hold what the spec names beside the registers.
-/
namespace Sys2Proof.Machine

/-- A fault record (R700). -/
structure FaultRec where
  code : Nat
  tenant : Nat
  device : Bool
  coarse : Bool
  rept : Nat
  slot : Nat
  time : Nat
  tick : Nat
  cycle : Nat
  info : Nat
  deriving DecidableEq, Repr

/-- An all-zero record: what an unwritten place of a ring reads as (R704). -/
def FaultRec.zero : FaultRec := ⟨0, 0, false, false, 0, 0, 0, 0, 0, 0⟩

/-- The fault log (R700–R703): the tenant rings, keyed by 64·t + place, the device ring, the AON buffer, and the records raised in
the command that runs. -/
structure FaultLog where
  rings : Tab FaultRec
  dev : Tab FaultRec
  buf : List FaultRec
  raised : List FaultRec
  deriving DecidableEq, Repr

/-- Time below and above the quay line (R17, R18, R403, R404). -/
structure Clk where
  /-- Device time in reference cycles. -/
  now : Nat
  /-- The 48-bit tick counter. -/
  tick : Nat
  /-- Device time of the last tick boundary. -/
  tickStart : Nat
  /-- The 38.4 MHz reference is stopped. -/
  refStopped : Bool
  /-- The next coarse advance is 13 reference cycles and not 12 (R404). -/
  coarse13 : Bool
  /-- Device time at which the reference last restarted. -/
  restartAt : Nat
  /-- The tick under way is coarse (R18). -/
  coarseTick : Bool
  /-- Coarse intervals that have ended, as device times of stop and restart, and the device time of the last stop (R404). -/
  coarsePast : List (Nat × Nat)
  stopAt : Nat
  /-- The tick's seam has begun (R20). -/
  inSeam : Bool
  /-- The crystal has been started for waiting on-transitions (R494). -/
  xtalStarting : Bool
  deriving DecidableEq, Repr

/-- One completion, before its entry is written (R672). -/
structure Cpl where
  q : Nat
  cid : Nat
  op : Nat
  status : Nat
  result : Nat
  detail : Nat
  cls : Nat
  deriving DecidableEq, Repr

/-- A command that was fetched and has not completed (R667, R674). -/
structure RunCmd where
  q : Nat
  cid : Nat
  op : Nat
  fence : Bool
  /-- The command has begun: its acceptance (R674). -/
  begun : Bool
  /-- What remains before it completes, as the owning chapter codes it; 0 for nothing. -/
  wait : Nat
  /-- The completion that COMMAND_COMPLETE posts once nothing remains. -/
  cpl : Option Cpl
  /-- The objects it names, as `objKey` numbers them, and the byte range of a HOST_WRITE or HOST_READ (R674). -/
  objs : List Nat
  lo : Nat
  hi : Nat
  deriving DecidableEq, Repr

/-- What the device keeps for a queue pair beside its registers (R666–R675). -/
structure Queue where
  /-- The SQ tail the host last rang, and the CQ entries that are posted and not freed. -/
  tail : Nat
  used : Nat
  /-- Completions posted since the last vector, and the device time of the first of them. -/
  unsig : Nat
  unsigAt : Nat
  /-- HS_NOTICE_LOST has been raised since HS_Q_COUNT was read (R668). -/
  noticeRaised : Bool
  /-- Commands fetched before a stop: their completions are discarded (R657, R673). -/
  dropped : List Nat
  deriving DecidableEq, Repr

/-- The state of a queue pair after its enable (R665). -/
def Queue.init : Queue := ⟨0, 0, 0, 0, false, []⟩

/-- A region of registered host memory (R679). -/
structure HostRegion where
  id : Nat
  owner : Nat
  pages : List Nat
  deriving DecidableEq, Repr

/-- The host interface beside its registers. -/
structure HostIf where
  queues : Tab Queue
  cmds : List RunCmd
  /-- Completions held while the function is in D3hot or HOST is coming on (R658, R682). -/
  held : List Cpl
  sram : Tab Byte
  stage : Tab Byte
  regions : List HostRegion
  /-- QSPI: written words that wait for HOST, as addresses and words, and the framing error flag (R659, R661). -/
  qspiBuf : List (Nat × Word)
  frameErr : Bool
  /-- The slots and tenants with RUN_NOTIFY on, keyed by 64 × slot + tenant (R677). -/
  notify : Tab Nat
  /-- Vectors whose message a D3hot function owes (R658). -/
  owed : List Nat
  /-- Queue pairs the resident host serves now, as a mask (R389). -/
  resident : Nat
  deriving DecidableEq, Repr

/-- A domain transition under way (R476, R495). -/
structure Trans where
  dom : Nat
  src : Nat
  tgt : Nat
  begun : Nat
  due : Nat
  /-- It waits for the crystal (R494). -/
  xtal : Bool
  req : Nat
  deriving DecidableEq, Repr

/-- A change of one domain that was accepted and has not begun (R480, R482, R483). -/
structure Act where
  dom : Nat
  tgt : Nat
  /-- It begins in a seam (R480). -/
  seam : Bool
  /-- It waits for issued transfers to drain (R482). -/
  drain : Bool
  req : Nat
  deriving DecidableEq, Repr

/-- A PWR_SET that completes when its transitions have ended (R484, R756). -/
structure PwrReq where
  id : Nat
  q : Nat
  cid : Nat
  changed : Nat
  offline : Nat
  deriving DecidableEq, Repr

/-- A standing order (R487). -/
structure SOrder where
  event : Nat
  mask : Nat
  rept : Bool
  notify : Bool
  action : Nat
  params : List Byte
  deriving DecidableEq, Repr

/-- A wake: the event's class and index, or a direct pad (R490, R499). -/
structure Wake where
  cls : Nat
  index : Nat
  cascade : Bool
  deriving DecidableEq, Repr

/-- The power controller beside its registers. -/
structure Power where
  /-- Domain states: 0 on, 1 retention, 2 off; unlisted domains are off (R499). -/
  dom : Tab Nat
  trans : List Trans
  acts : List Act
  reqs : List PwrReq
  nextReq : Nat
  /-- Domains that count as on during the tick (R481), as a mask. -/
  onTick : Nat
  /-- Wakes latched during a lowering (R496). -/
  latched : List Wake
  orders : Tab (Option SOrder)
  /-- Levels of an accepted PERF_SET that wait for a seam (R486). -/
  pendPl : Option Nat
  pendS : Option Nat
  /-- PERF_SET commands with WAIT = 1, as queue and CID. -/
  perfWait : List (Nat × Nat)
  /-- A start that is to run, by its KIND (R690): the device is held in brown-out reset, or a recovery restart is due (R697). -/
  start : Option Nat
  deriving DecidableEq, Repr

/-- A thermal monitor (R528): consecutive samples at or above its first and second threshold, and below each of them minus 2.0 °C; its last step
as tick, device time and direction (true for up); and whether the pending reversal was counted. -/
structure Monitor where
  up1 : Nat
  up2 : Nat
  dn1 : Nat
  dn2 : Nat
  last : Option (Nat × Nat × Bool)
  hovered : Bool
  deriving DecidableEq, Repr

/-- A monitor that has sampled nothing. -/
def Monitor.init : Monitor := ⟨0, 0, 0, 0, none, false⟩

/-- Power delivery beside its registers (R509–R536). -/
structure Deliv where
  tj : Monitor
  skin : Monitor
  /-- Domains that the thermal order lowered and that nothing has changed since (R527), as a mask. -/
  thermDoms : Nat
  /-- Consecutive valid samples since the NTC fault (R530), and samples below 95.0 °C since a shutdown (R531). -/
  ntcValid : Nat
  coolCount : Nat
  /-- The debounced profile that takes effect in the next seam (R515). -/
  profileNext : Option Bool
  /-- E_BURST has reached zero in this tick (R518); it did so between undock and the profile's change (R710). -/
  spent : Bool
  undockSpent : Bool
  /-- VRES has reached V_RES_MIN in this tick (R518). -/
  vresMin : Bool
  /-- E_BURST has regained its resume level under the reservoir cap (R518). -/
  regained : Bool
  /-- A cap below the table's PL_MIN was reported (R532). -/
  blocked : Bool
  /-- VIO_A and VIO_H are at or above 0.9 V, and the 1.8 V range of VIO_H is selected (R723, R724). -/
  vioA : Bool
  vioH : Bool
  vioHHigh : Bool
  deriving DecidableEq, Repr

/-! ## The tick and the strict domain -/

/-- A submission of a slot table with its period and seam length (R27, R28). -/
structure Submission where
  table : Tab Word
  period : Nat
  seam : Nat
  /-- The manifests that its entries bind, by slot, as 1 + the manifest's number (R755). -/
  bound : Tab Nat
  /-- Tenants halted, or to be halted, when it was written: those it resumes where it names them (R42), as a mask. -/
  resume : Nat
  deriving DecidableEq, Repr

/-- The tick beside its registers (R16–R46). -/
structure Tick where
  shadow : Tab Word
  active : Tab Word
  /-- A submission that is being validated (R27). -/
  validating : Option Submission
  /-- A submission that was accepted and waits for its seam (R28). -/
  accepted : Option Submission
  /-- The manifests that the active table's entries bind, by slot, as 1 + the manifest's number (R755). -/
  bound : Tab Nat
  /-- The seam length in force. -/
  seam : Nat
  /-- The period and seam length of a table that became active in this tick's seam: they take effect at its end (R28). -/
  timing : Option (Nat × Nat)
  /-- STRICT_EN as it stood at the tick boundary (R55). -/
  strict : Bool
  /-- Tenants that are halted, and those to halt at the next seam (R42), as masks. -/
  halted : Nat
  haltNext : Nat
  /-- Outcomes of the slots of this tick: 0 RAN, 1 IDLE, 2 SKIPPED, 3 TRUNCATED (R46). -/
  outcomes : Tab Nat
  /-- Last-owner tags of strict-domain resources by domain index (R566); 64 for none. -/
  owner : Tab Nat
  /-- Resources pending scrub, as a domain mask (R568). -/
  pendScrub : Nat
  /-- Resources to take offline in the next seam after a parity failure (R176), as in QY_OFFLINE. -/
  offNext : Nat
  /-- A self-test (R177): what it tests, as in QY_OFFLINE; the quay cycles of the slot region left, counted from a quay cycle of the tick; and
  what of it failed, once known. -/
  testNamed : Nat
  testLeft : Option Nat
  testAt : Nat
  testFail : Option Nat
  /-- Quay cycles of this tick that were stretched, and the last of them (R521). -/
  stretched : Nat
  lastStretch : Option Nat
  deriving DecidableEq, Repr

/-- A loop of a stream: its first bundle, the bundle after its body, and the iterations left after this one (R94, R95). -/
structure LoopFrame where
  start : Nat
  stop : Nat
  left : Nat
  deriving DecidableEq, Repr

/-- What a bundle's control instruction asks for at the bundle's end. -/
inductive Ctl where
  | none
  | loop (n count : Nat)
  | branch (offset : Int)
  | wait (n : Nat)
  | stop
  deriving DecidableEq, Repr

/-- One instruction stream (R64–R67). -/
structure Stream where
  /-- The sequencer that runs it. -/
  seq : Nat
  /-- Its vector clusters, in rank order (R66). -/
  clusters : List Nat
  /-- The stream's code, as 64-bit words. -/
  code : List Nat
  /-- The address of the bundle that issues next. -/
  pc : Nat
  /-- The words of that bundle that have issued. -/
  done : Nat
  /-- The cycle at which that bundle issues. -/
  cyc : Nat
  loops : List LoopFrame
  /-- Delay bundles left and the address that issues after them (R96). -/
  delay : Option (Nat × Nat)
  ctl : Ctl
  ended : Bool
  /-- The first cycle at which the T, V and M unit take an instruction again (R92). -/
  busyT : Nat
  busyV : Nat
  busyM : Nat
  deriving DecidableEq, Repr

/-- An issued instruction of a run: its issue cycle, unit (0 S, 1 T, 2 V, 3 M), stream and bundle address. -/
structure Ins where
  iss : Nat
  unit : Nat
  stream : Nat
  word : Nat
  deriving DecidableEq, Repr

/-- What lands in registers (R87, R89), or the numeric flags that land with it (R175). -/
inductive LandAct where
  | s (bank r : Nat) (v : BitVec 64)
  | p (bank r : Nat) (v : Bool)
  | d (bank r : Nat) (v : BitVec 512)
  | v (cl r : Nat) (v : BitVec 2048)
  | flags (mask : Nat)
  deriving DecidableEq, Repr

/-- A landing: its cycle, its instruction and what lands. -/
structure Land where
  cyc : Nat
  ins : Ins
  act : LandAct
  deriving DecidableEq, Repr

/-- Where a load's bytes go (R139). -/
inductive LoadDest where
  | s (bank r : Nat)
  | d (bank r : Nat)
  | v (cl r : Nat)
  deriving DecidableEq, Repr

/-- One beat of a move (R143): the addresses of its source and destination rows, the element width and count of the row, the byte
offset and length of the beat in it, and the LIMIT of each side. -/
structure Beat where
  srow : Int
  drow : Int
  w : Nat
  n : Nat
  off : Nat
  len : Nat
  slim : Nat
  dlim : Nat
  deriving DecidableEq, Repr

/-- What a berth access does at its cycle (R90, R91). -/
inductive AccAct where
  | load (dest : LoadDest) (addr : Int) (len lim : Nat)
  | store (addr : Int) (bytes : List Byte) (lim : Nat)
  /-- A beat's read, and the cycle of its write (R143). -/
  | beatR (b : Beat) (wcyc : Nat)
  | beatW (b : Beat) (bytes : List Byte)
  /-- A beat's read on the uncompressed side of a compressing move: its bytes join the hold's buffer (R210). -/
  | rowR (b : Beat) (hold : Nat)
  /-- A block row is compressed from eight rows of the buffer, from a byte of it on, and written (R210). -/
  | rowEnc (hold fmt cmp blocks start : Nat) (addr : Int) (rowBytes lim : Nat)
  /-- A block row is read and decompressed; its beats are written at their cycles (R210). -/
  | rowDec (hold fmt cmp blocks : Nat) (addr : Int) (lim : Nat) (beats : List (Nat × Beat))
  /-- A T-unit result, unless its hold has lost a port (R132). -/
  | tensor (hold : Nat) (cells : List (Nat × Byte)) (flags : Nat)
  /-- A gather's read at its last held cycle: the addresses of the elements (R138). -/
  | gather (hold cl r : Nat) (addrs : List (Option Nat))
  | scatter (hold : Nat) (cells : List (Nat × Nat))
  /-- A micro-array result (R360). -/
  | micro (addr : Nat) (bytes : List Byte)
  deriving DecidableEq, Repr

/-- A berth access: its cycle, its instruction, the cluster rank, and what it does. -/
structure BAcc where
  cyc : Nat
  ins : Ins
  rank : Nat
  act : AccAct
  deriving DecidableEq, Repr

/-- A port hold over cycles `frm` to `til` (R132, R138, R210): the berths held, as a mask, and whether it has lost a port. -/
structure Hold where
  id : Nat
  ins : Ins
  rank : Nat
  frm : Nat
  til : Nat
  berths : Nat
  /-- Only a loss in a block-row access cycle matters (R210). -/
  rows : Bool
  lost : Bool
  buf : List Byte
  deriving DecidableEq, Repr

/-- A fabric record of a slot run (R144): 0 FSEND, 1 FRECV, 2 FREDUCE. -/
structure FabRec where
  kind : Nat
  /-- Node, or operation for FREDUCE. -/
  node : Nat
  /-- Channel, or group for FREDUCE. -/
  chan : Nat
  src : BitVec 512
  dst : BitVec 512
  deriving DecidableEq, Repr

/-- A pilot notice (R121, R519): class, direction and the cycle at which its step begins. -/
structure PilotNote where
  cls : Nat
  down : Bool
  at' : Nat
  deriving DecidableEq, Repr

/-- A running slot, or a running lighthouse task (R37, R358). -/
structure SlotRun where
  /-- Slot number; 256 + handle for a lighthouse task. -/
  id : Nat
  tenant : Nat
  /-- START in quay cycles of the tick, or the share's first lighthouse cycle in the frame. -/
  start : Nat
  length : Nat
  berths : Nat
  quad : Nat
  vec : Nat
  seqs : Nat
  cascade : Bool
  stage : Nat
  /-- The run is speculative (R320). -/
  spec : Bool
  manifest : Nat
  /-- Berths that are input destinations of the manifest, as a mask (R328). -/
  inputs : Nat
  /-- The tenant's choice counter at START (R52). -/
  choice : Nat
  streams : List Stream
  lands : List Land
  accs : List BAcc
  holds : List Hold
  nextHold : Nat
  /-- Instructions that have raised SQ_BERTH_RANGE or SQ_PORT_CONFLICT: each raises once (R111). -/
  ranged : List Ins
  ported : List Ins
  /-- The first cycle at which the micro-array starts again in a task's share (R360). -/
  maBusy : Nat
  records : List FabRec
  pilots : List PilotNote
  /-- An undervoltage cut the run short: it ends TRUNCATED (R523). -/
  cut : Bool
  /-- The fault with which the slot was skipped, 0xFFFF for a stale skip, 0 for neither (R42, R43, R262). A slot that does not run has no streams. -/
  skip : Nat
  /-- Pages and bytes that its input list read, to be credited where it ends RAN (R236). -/
  heat : List (Nat × Nat)
  deriving DecidableEq, Repr

/-- The strict domain: registers by bank, berth bytes and the runs under way (R74, R78). -/
structure Strict where
  s : Tab (BitVec 64)
  p : Tab Bool
  d : Tab (BitVec 512)
  v : Tab (BitVec 2048)
  berth : Tab Byte
  runs : List SlotRun
  deriving DecidableEq, Repr

/-! ## The lighthouse core (R353–R361) -/

/-- A loaded lighthouse task (R356). -/
structure LhTask where
  h : Nat
  tenant : Nat
  /-- 0 STAGE1, 1 GENERAL. -/
  role : Nat
  /-- MAX_CYCLES: its share in lighthouse cycles. -/
  share : Nat
  code : List Nat
  digest : List Byte
  deriving DecidableEq, Repr

/-- The voice-activity detector's hop (R367, R368): samples are signed integers. -/
structure Vad where
  /-- A hop is under way: frames of it that have ended, with H and MICS as it latched them. -/
  hop : Bool
  frames : Nat
  h : Nat
  mics : Nat
  xs : List Int
  prev : Int
  first : Bool
  floor : Int
  /-- A computed confidence that waits for its publication: the device time, the confidence and the next noise floor (R369). -/
  pend : Option (Nat × Nat × Int)
  deriving DecidableEq, Repr

/-- A haptic driver (R383). -/
structure Haptic where
  playing : Bool
  step : Nat
  /-- Frames left of the step, and repeats left of the pattern. -/
  left : Nat
  reps : Nat
  go : Bool
  stop : Bool
  deriving DecidableEq, Repr

/-- A driver that is still. -/
def Haptic.init : Haptic := ⟨false, 0, 0, 0, false, false⟩

/-- A touch channel (R380). -/
structure TouchCh where
  base : Int
  n : Nat
  first : Bool
  deriving DecidableEq, Repr

/-- A channel that was never scanned. -/
def TouchCh.init : TouchCh := ⟨0, 0, true⟩

/-- The touch scanner (R380, R381): the channels that the scan under way has still to measure, and when the current measurement began. -/
structure Touch where
  left : List Nat
  running : Bool
  queued : Bool
  abort : Bool
  began : Nat
  /-- Frames since the timer's last trigger, and a trigger that is due. -/
  frames : Nat
  due : Bool
  chans : Tab TouchCh
  deriving DecidableEq, Repr

/-- A button (R382): its pad's level, and since when the pad has read it. -/
structure Btn where
  level : Bool
  since : Nat
  deriving DecidableEq, Repr

/-- A button whose pad reads low from the start. -/
def Btn.init : Btn := ⟨false, 0⟩

/-- The real-time clock (R385). -/
structure Rtc where
  count : Nat
  /-- Fraction of a count, in units of 2⁻²⁰ / 125. -/
  frac : Nat
  alarmDue : Bool
  sincePeriod : Nat
  /-- Periods that elapsed and whose event is still to come. -/
  periodDue : Nat
  deriving DecidableEq, Repr

/-- The lighthouse beside its registers. -/
structure Light where
  /-- The SRAM of 64 partitions of 16 KiB (R353). -/
  sram : Tab Byte
  /-- The micro-array command block (R355, R360). -/
  blk : Tab Byte
  /-- Partitions that are being cleared, as a mask (R353). -/
  clearing : Nat
  tasks : List LhTask
  /-- Device time of the last audio frame boundary. -/
  frameStart : Nat
  /-- The earliest mute of the frame under way, and whether a mute applied in any part of it (R372). -/
  muteAt : Option Nat
  mutedPart : Bool
  /-- PDM_CLK restarts at the next boundary; settling frames left (R373). -/
  restart : Bool
  settle : Nat
  muteCount : Nat
  /-- Capture channels that were enabled at the frame's start, as a mask. -/
  capOn : Nat
  mirRaised : Nat
  vad : Vad
  /-- A route commit that waits for its boundary, with its XFADE, and whether it applies at the boundary after the next (R379, R397). -/
  commit : Option Bool
  /-- A crossfade: the old gains by 8·input + output, and how many of its samples are out. -/
  xfade : Option (List Nat × Nat)
  /-- Playback streams that have run out of data, and whose fault was raised (R377). -/
  starved : Nat
  undRaised : Nat
  haps : Tab Haptic
  touch : Touch
  btns : Tab Btn
  /-- CHG_DET: consecutive boundary samples of a new level, and the DEB that their count uses (R384). -/
  chgCount : Nat
  chgDeb : Nat
  rtc : Rtc
  deriving DecidableEq, Repr

/-! ## Cascades (R312–R332) -/

/-- A stage of a cascade (R313, R320). -/
structure CStage where
  kind : Nat
  pre : Nat
  con : Nat
  dis : Nat
  retire : Bool
  fromPeer : Bool
  /-- 0 DORMANT, 1 SPEC, 2 LIVE. -/
  st : Nat
  /-- The enable boundary is the first tick boundary at or after this device time (R324). -/
  bound : Option Nat
  enabled : Bool
  deriving DecidableEq, Repr

/-- A bond (R328): its berths, the tick its stage became SPEC, and what it holds. -/
structure Bond where
  stage : Nat
  berths : Nat
  tick : Nat
  /-- 0 open; 1 its commit is decided; 2 its flip has begun; 3 dropped and not yet scrubbed. -/
  st : Nat
  /-- The quay cycle of the tick at which the flip begins; none for the start of the seam (R330). -/
  flip : Option Nat
  conf : Option Nat
  events : List Nat
  flags : Nat
  /-- Pages and bytes whose heat is deferred (R236); a page is numbered as in `pageKey`. -/
  heat : List (Nat × Nat)
  /-- Stages whose BOND.COMMIT is held (R345). -/
  commits : List Nat
  /-- Run notices of speculative runs (R677): slot, tick, status and class. -/
  notes : List (Nat × Nat × Nat × Nat)
  deriving DecidableEq, Repr

/-- A decision for a PEER successor that waits for its tick's seam (R336). -/
structure PeerSend where
  stage : Nat
  dec : Nat
  value : Nat
  tick : Nat
  deriving DecidableEq, Repr

/-- A cascade (R312, R313). -/
structure Casc where
  tenant : Nat
  ttl : Nat
  max : Nat
  lead : Nat
  peerNode : Nat
  peerTenant : Nat
  peerStage : Nat
  armed : Bool
  /-- A disarm waits for a flip to end (R315). -/
  disarming : Bool
  stages : List CStage
  bonds : List Bond
  sends : List PeerSend
  deriving DecidableEq, Repr

/-- A slot program of a loaded tick program (R70). -/
structure SlotProg where
  streams : Nat
  width : Nat
  vecCount : List Nat
  berths : Nat
  maxCycles : Nat
  code : List (List Nat)
  deriving DecidableEq, Repr

/-- A loaded tick program (R71, R100) or lighthouse task (R356). -/
structure TickProg where
  h : Nat
  tenant : Nat
  progs : List SlotProg
  words : Nat
  digest : List Byte
  deriving DecidableEq, Repr

/-- An image that is being validated, for its command (R100–R102, R356). -/
structure Loading where
  q : Nat
  cid : Nat
  tenant : Nat
  dest : Nat
  role : Nat
  image : List Byte
  deriving DecidableEq, Repr

/-- The program store (R68–R71). -/
structure Store where
  progs : List TickProg
  loading : List Loading
  /-- Tick programs to unload once no active table names them: tenants being destroyed (R103), as a mask. -/
  unloadTenants : Nat
  deriving DecidableEq, Repr

/-! ## Memory and its transfers (R223–R267) -/

/-- What the device keeps for a page of an allocation beside its bytes (R235, R238, R240, R266). -/
structure Pg where
  heat : Nat
  acc : Nat
  /-- A page whose home is not DRAM lies in DRAM. -/
  dram : Bool
  /-- 0 no copy; 1 its copy to the other tier is under way; 2 the copy is complete and waits for its handover. -/
  copy : Nat
  poison : Bool
  /-- The DRAM copy it left is read by transfers that began before the handover. -/
  old : Bool
  deriving DecidableEq, Repr

/-- A page as it is at allocation (R235). -/
def Pg.init : Pg := ⟨0, 0, false, 0, false, false⟩

/-- An allocation (R226–R232). -/
structure Alloc where
  h : Nat
  owner : Nat
  gen : Nat
  flags : Nat
  pages : Nat
  data : Tab Byte
  pg : Tab Pg
  /-- Host pages it takes, by region (R679). -/
  host : List (Nat × Nat)
  /-- It is being freed with ZERO_ON_FREE for this command (R232). -/
  zeroing : Option (Nat × Nat)
  deriving DecidableEq, Repr

/-- An entry of a manifest (R243). -/
structure MEnt where
  h : Nat
  cmp : Nat
  off : Nat
  len : Nat
  berth : Nat
  deriving DecidableEq, Repr

/-- A loaded manifest (R242, R755): `uid` numbers manifests in the order they were loaded. -/
structure Manifest where
  h : Nat
  uid : Nat
  tenant : Nat
  berths : Nat
  ins : List MEnt
  wbs : List MEnt
  deriving DecidableEq, Repr

/-- A released list (R247): an input list, kind 0, or a write-back list, kind 1, of a slot. -/
structure CList where
  id : Nat
  slot : Nat
  kind : Nat
  tenant : Nat
  uid : Nat
  /-- Pages read and bytes, whose heat START credits (R236). -/
  heat : List (Nat × Nat)
  /-- It is abandoned: it issues no further transfer (R247). -/
  abandoned : Bool
  /-- The fault that one of its transfers ended with, or 0. -/
  failed : Nat
  /-- An entry of a NO_SPEC allocation is withheld (R249). -/
  withheld : Bool
  /-- Fabric transfers that the run it feeds still awaits (R145). -/
  fabric : Nat
  /-- The completion code and tick of the run whose notice waits for this write-back list (R677). -/
  notice : Option (Nat × Nat)
  deriving DecidableEq, Repr

/-- A transfer (R246): 0 waiting, 1 issued, 2 aborted and not yet complete. -/
structure Xfer where
  id : Nat
  list : Nat
  slot : Nat
  /-- 0 input, 1 write-back. -/
  kind : Nat
  tenant : Nat
  h : Nat
  gen : Nat
  off : Nat
  len : Nat
  berth : Nat
  st : Nat
  epoch : Nat
  /-- It is fetched and not landed (R249). -/
  noLand : Bool
  deriving DecidableEq, Repr

/-- What becomes durable when a flash write completes (R273). -/
inductive WAct where
  /-- Bytes of one page of an allocation, at an offset of the allocation. -/
  | page (h gen off : Nat) (bytes : List Byte)
  /-- The image that is being closed becomes visible (R291). -/
  | image
  | imageDel (id : Nat)
  /-- A tenant's record is written (R554), or erased (R556). -/
  | record (t : Nat)
  | erase (t : Nat)
  | selector (id : Nat)
  | format
  deriving DecidableEq, Repr

/-- A write to flash that is not yet durable, or that is durable before an earlier write to its page (R273, R276). -/
structure FWrite where
  id : Nat
  act : WAct
  /-- The command it belongs to, as queue and CID; queue 64 for none. -/
  q : Nat
  cid : Nat
  /-- The write-back transfer it finishes, with its list, its tenant and its berth range. -/
  xf : Option (Nat × Nat × Nat × Nat)
  /-- The write inhibit holds it (R298). -/
  held : Bool
  /-- It was revoked after its program began: it ends in an unmapped page (R564). -/
  unmapped : Bool
  done : Bool
  deriving DecidableEq, Repr

/-- The memory tiers and the cranes beside their registers. -/
structure Mem where
  allocs : List Alloc
  /-- How many allocations were ever made with a handle (R559). -/
  gens : Tab Nat
  mans : List Manifest
  nextUid : Nat
  lists : List CList
  xfers : List Xfer
  nextId : Nat
  /-- Parameters written to TM_DECAY, TM_PROMOTE and TM_DEMOTE, in force since the last seam (R257). -/
  decay : Nat
  promote : Nat
  demote : Nat
  /-- Allocation and page of an uncorrectable error are in registers; pages poisoned now are counted from the pages. -/
  ceCount : Nat
  deriving DecidableEq, Repr

/-! ## The flash store (R268–R311) -/

/-- An image of the store (R288). -/
structure Image where
  id : Nat
  kind : Nat
  owner : Nat
  version : Nat
  digest : List Byte
  bytes : List Byte
  /-- How often an image was written under this ID (R559). -/
  count : Nat
  /-- Its delete has begun and is not durable: it has ceased to exist (R674). -/
  deleting : Bool
  deriving DecidableEq, Repr

/-- An ingest (R290): the record it was opened with, the bytes so far, and whether its close waits to be durable. -/
structure Ingest where
  q : Nat
  id : Nat
  kind : Nat
  owner : Nat
  version : Nat
  length : Nat
  expect : List Byte
  bytes : List Byte
  closing : Bool
  deriving DecidableEq, Repr

/-- The flash beside its registers. -/
structure Flash where
  writes : List FWrite
  images : List Image
  ingest : Option Ingest
  /-- Read counters by block (R283). -/
  reads : Tab Nat
  /-- Blocks that raised FL_RD_BACKLOG and were not yet relocated (R287). -/
  backlog : List Nat
  /-- The limit in force since the last seam (R284). -/
  limit : Nat
  /-- The persistent boot selector (R570). -/
  selector : Option Nat
  /-- Tenant records: mode, nonce and image quota (R554). -/
  records : Tab (Option (Nat × Nat × Nat))
  /-- The journal can be read at a mount (R296); a brown-out since the last checkpoint makes the mount unclean (R294). -/
  clean : Bool
  /-- Starts since manufacture, and the counters kept in the journal: unclean mounts, relocations, retired blocks. -/
  boots : Nat
  unclean : Nat
  relocs : Nat
  bad : Nat
  /-- Read-only mode persists across resets (R281). -/
  readOnly : Bool
  wear : Nat
  deriving DecidableEq, Repr

/-! ## The harbourmaster (R550–R591) -/

/-- An entry of a rule set (R561). -/
structure Rule where
  kind : Nat
  tenant : Nat
  rights : Nat
  a : Nat
  b : Nat
  c : Nat
  deriving DecidableEq, Repr

/-- What the harbourmaster keeps for a tenant beside its registers (R554, R556, R572). -/
structure TenRec where
  nonce : Nat
  /-- K_t is held and not zeroed (R556). -/
  key : Bool
  /-- A create was accepted and has not completed. -/
  creating : Bool
  log : List Byte
  /-- Loaded tick programs and tasks: kind, handle and digest (R572). -/
  progs : List (Nat × Nat × List Byte)
  /-- Loaded weight images: ID, VERSION, digest, and the allocation and generation they went to. -/
  weights : List (Nat × Nat × List Byte × Nat × Nat)
  overflow : Bool
  deriving DecidableEq, Repr

/-- A tenant of which nothing is kept. -/
def TenRec.init : TenRec := ⟨0, false, false, List.replicate 48 0, [], [], false⟩

/-- The harbourmaster beside its registers. -/
structure Harbour where
  rules : List Rule
  /-- The command of the update whose fence is pending (R565). -/
  fence : Option (Nat × Nat)
  ten : Tab TenRec
  /-- The running firmware: VERSION, SVN and PAYLOAD_DIGEST. -/
  fw : Option (Nat × Nat × List Byte)
  /-- The boot measurement MB (R571). -/
  mb : List Byte
  /-- A fresh challenge that no unlock has consumed (R585). -/
  challenge : Bool
  /-- A vendor unlock waits for the flash programs that it revoked (R597). -/
  unlocking : Bool
  /-- Boundary scan holds every domain but AON in reset (R583). -/
  extest : Bool
  deriving DecidableEq, Repr

/-! ## Streams, the camera and the sensor inputs (R403–R439) -/

/-- What the device keeps for a stream context beside its registers (R406–R409, R425). -/
structure SCtx where
  /-- Records counted from 0 (R408). -/
  count : Nat
  /-- Generation of the ring's allocation. -/
  gen : Nat
  /-- A committed source that waits for the next sample boundary (R409). -/
  bind : Option Nat
  /-- A trigger was dropped or aborted since the last record. -/
  overrun : Bool
  /-- SN_TRIG_OVERRUN, or SN_RING_MISSED, was raised since its counter was read. -/
  ovrRaised : Bool
  missRaised : Bool
  deriving DecidableEq, Repr

/-- A stream context that was just opened. -/
def SCtx.init : SCtx := ⟨0, 0, none, false, false, false⟩

/-- A record on its way to a DRAM ring, or to a capture ring's mirror (R366, R408): its stream, or 255 for the fusion output. -/
structure RingWrite where
  stream : Nat
  mirror : Bool
  h : Nat
  gen : Nat
  off : Nat
  bytes : List Byte
  due : Nat
  deriving DecidableEq, Repr

/-- A frame that is being received, or that has closed and owes its record (R412, R413). -/
structure Frame where
  stream : Nat
  count : Nat
  csi : Nat
  stamp : Nat
  feStamp : Nat
  alloc : Nat
  gen : Nat
  off : Nat
  pitch : Nat
  maxLines : Nat
  /-- Lines that arrived, and lines and bytes that were written. -/
  seen : Nat
  lines : Nat
  byteCount : Nat
  bad : Nat
  flags : Nat
  phyRaised : Bool
  ovfRaised : Bool
  deriving DecidableEq, Repr

/-- A VC context of a receiver (R411–R417). -/
structure VCtx where
  /-- The active frame allocation, its generation and the offset. -/
  alloc : Nat
  gen : Nat
  off : Nat
  /-- The accepted commit that waits for a Frame Start (R414). -/
  pend : Option (Nat × Nat × Nat)
  /-- Device time at which that commit became visible. -/
  pendAt : Nat
  frame : Option Frame
  closed : List Frame
  deriving DecidableEq, Repr

/-- A VC context at reset. -/
def VCtx.init : VCtx := ⟨0, 0, 0, none, 0, none, []⟩

/-- A capture sequence (R421–R425). -/
structure SeqSt where
  /-- A trigger waits for the controller, or for the end of the run under QUEUE1, with the IBI's data. -/
  waiting : Option Nat
  running : Bool
  step : Nat
  /-- Stamp of the first bus transaction, once it began. -/
  stamp : Option Nat
  source : Nat
  bytes : List Byte
  ibi : Nat
  err : Bool
  coarse : Bool
  /-- RESTART_AT_BOUNDARY was asked for: the run ends at the next STOP. -/
  abort : Option Nat
  /-- Device time at which the DELAY step under way ends. -/
  delay : Option Nat
  /-- Device time of its last trigger: triggers of one reference cycle count as one (R422). -/
  lastTrig : Option Nat
  deriving DecidableEq, Repr

/-- A sequence that does nothing. -/
def SeqSt.init : SeqSt := ⟨none, false, 0, none, 0, [], 0, false, false, none, none, none⟩

/-- A wheel input (R426–R428). -/
structure Wheel where
  edges : Nat
  last : Nat
  interval : Nat
  quadErr : Bool
  /-- Whether an edge was counted since the input was enabled. -/
  any : Bool
  /-- The next report point. -/
  next : Nat
  deriving DecidableEq, Repr

/-- A wheel input that has counted nothing. -/
def Wheel.init : Wheel := ⟨0, 0, 0xFFFFFFFF, false, false, 0⟩

/-- The stream contexts and the inputs beside their registers. -/
structure Sensor where
  ctx : Tab SCtx
  ring : List RingWrite
  vc : Tab VCtx
  seqs : Tab SeqSt
  wheels : Tab Wheel
  /-- Lane states by 2·receiver + lane: 0 stop, 1 ULPS, 2 HS. -/
  lanes : Tab Nat
  deriving DecidableEq, Repr

/-! ## The fusion engine (R440–R474) -/

/-- A sample that arrived at an entry (R442, R443): its stamp, its arrival, and its decoded elements as FP64 words; for an event-type
entry, the words are the POSITION or the speed. An invalid sample only breaks the interpolation. -/
structure FuSample where
  stamp : Nat
  arr : Nat
  valid : Bool
  sat : Bool
  x : List Nat
  deriving DecidableEq, Repr

/-- A sensor entry (R454–R458). -/
structure FuEnt where
  /-- 0 OK, 1 SUSPECT, 2 MASKED. -/
  st : Nat
  fails : Nat
  passes : Nat
  /-- Readmission is open, or opens at a device time. -/
  open' : Bool
  openAt : Option Nat
  /-- It dropped out and no valid sample has come since (R455). -/
  silent : Bool
  /-- Stamp from which silence is counted: its last valid sample, or the enable. -/
  lastValid : Nat
  /-- Stamp and SOURCE of its previous record. -/
  lastStamp : Option Nat
  src : Option Nat
  samples : List FuSample
  /-- POSITION and STAMP of the previous WHEEL record (R443). -/
  prev : Option (Nat × Nat)
  deriving DecidableEq, Repr

/-- An entry at a start of the engine. -/
def FuEnt.init (now : Nat) : FuEnt := ⟨0, 0, 0, true, none, false, now, none, none, [], none⟩

/-- The fusion engine beside its registers (R444–R464). Numbers are FP64 words but for the biases, which are FP32 words. -/
structure Fusion where
  ents : List FuEnt
  q : List Nat
  v : List Nat
  p : List Nat
  bg : List Nat
  ba : List Nat
  /-- The filter's covariance: an opaque value, since the spec does not give its arithmetic (log 50). -/
  kf : Nat
  /-- Grid points averaged so far, with the sums of ACCEL and MAG (R451). -/
  still : Nat
  accSum : List Nat
  magSum : List Nat
  /-- The next grid point's k, and the grid time of the last filter step. -/
  nextK : Nat
  lastStep : Nat
  /-- Filter steps for which the condition has stayed below the reported step (R461). -/
  hold : Nat
  lastOdo : Nat
  odoSpeed : Nat
  /-- Output records counted from 0; RESET and LATE are owed to the next record. -/
  count : Nat
  owesReset : Bool
  late : Bool
  missRaised : Bool
  ringGen : Nat
  deriving DecidableEq, Repr

/-! ## The Chedan fabric (R602–R652) -/

/-- A flit that waits at an egress port: its class, where it came from (0–3 a port, 4 the node itself) and its 72 bytes of header and payload. -/
structure TxFlit where
  cls : Nat
  src : Nat
  bytes : List Byte
  deriving DecidableEq, Repr

/-- A port beside its registers (R607–R616). -/
structure ChPort where
  txq : List TxFlit
  /-- Flits sent and not acknowledged, oldest first, with how often each was resent (R610). -/
  sent : List (List Byte × Nat)
  seq : Nat
  credits : List Nat
  /-- The source served last, by class (R608). -/
  rr : List Nat
  lastAdv : Nat
  /-- The next expected SEQ, and whether a flit was discarded since the last accepted one. -/
  exp : Nat
  nakd : Bool
  /-- Credits owed to the sender, by class. -/
  owe : List Nat
  locked : Bool
  ready : Bool
  trainAt : Nat
  fails : Nat
  failRaised : Bool
  /-- The neighbour's HELLO and CERT, once received (R615, R616). -/
  hello : Option (List Byte)
  cert : Option (List Byte)
  /-- Admission failed, which holds until the link leaves ACTIVE (R616). -/
  denied : Bool
  syncT1 : Option Nat
  deriving DecidableEq, Repr

/-- A port that is DOWN. -/
def ChPort.init : ChPort :=
  ⟨[], [], 0, List.replicate 7 8, List.replicate 7 4, 0, 0, false, List.replicate 7 0, false, false, 0, 0, false, none, none, false, none⟩

/-- A transfer or message that is being received, or was received whole (R606, R614): port 4 is the node itself. -/
structure Msg where
  port : Nat
  typ : Nat
  src : Nat
  ten : Nat
  chan : Nat
  shard : Nat
  tp : Nat
  arr : Bool
  coarse : Bool
  beats : Nat
  data : List Byte
  /-- Device time of its last flit, and of its first. -/
  at' : Nat
  first : Nat
  deriving DecidableEq, Repr

/-- A TOPO message that the node holds (R617): its payload and the fields read from it. -/
structure Topo where
  uid : Nat
  seq : Nat
  nbs : List Nat
  data : List Byte
  deriving DecidableEq, Repr

/-- An ASSIGN (R619). -/
structure Assign where
  leader : Nat
  gen : Nat
  swap : Nat
  period : Nat
  transport : Nat
  outStep : Nat
  digest : List Byte
  uids : List Nat
  deriving DecidableEq, Repr

/-- A group of a job (R631). -/
structure JGroup where
  group : Nat
  home : Nat
  shards : Nat
  deriving DecidableEq, Repr

/-- A fabric job (R631). -/
structure Job where
  job : Nat
  tenant : Nat
  relaxed : Bool
  members : Nat
  cutoff : Nat
  groups : List JGroup
  digest : List Byte
  closing : Bool
  halting : Option Nat
  /-- UIDs of the members, for R642. -/
  uids : List (Nat × Nat)
  opened : Nat
  deriving DecidableEq, Repr

/-- An FRECV or FREDUCE record that waits for its data (R145, R630, R635): the fabric tick of the run that made it, and the input list it
feeds once that is released. -/
structure WaitRec where
  kind : Nat
  tenant : Nat
  node : Nat
  chan : Nat
  tick : Nat
  slot : Nat
  dst : BitVec 512
  list : Option Nat
  deriving DecidableEq, Repr

/-- Partials of a group and fabric tick at its home (R633): shard, bytes and arrival, in order of arrival. -/
structure Partials where
  tenant : Nat
  group : Nat
  tick : Nat
  op : Option Nat
  parts : List (Nat × List Byte × Nat)
  /-- A conflict made it NONE (R635), or its result was sent. -/
  none' : Bool
  sent : Bool
  /-- The running value of arrival order (R634). -/
  run : Option (List Byte)
  deriving DecidableEq, Repr

/-- Group outcomes that a member holds for a fabric tick (R636): the result, or none for NONE. -/
structure Outcome' where
  tenant : Nat
  tick : Nat
  group : Nat
  res : Option (List Byte)
  deriving DecidableEq, Repr

/-- A digest held by the job leader, or a verdict held by a member (R636, R637). -/
structure JDigest where
  tenant : Nat
  tick : Nat
  node : Nat
  value : List Byte
  deriving DecidableEq, Repr

/-- The fabric beside its registers. Times carry 16 fractional bits where they say so. -/
structure Fab where
  ports : List ChPort
  asm : List Msg
  inbox : List Msg
  topos : List Topo
  topoSeq : Nat
  topoAt : Nat
  leader : Nat
  assign : Option Assign
  pend : Option Assign
  lastGen : Nat
  lastDigest : List Byte
  lastAssignLeader : Nat
  /-- Device time until which the old routing table is kept (R623). -/
  oldUntil : Option Nat
  causes : Nat
  /-- Offset of fabric time at the start and the end of its spread, in 2⁻¹⁶ cycles, and when the spread began (R626). -/
  oFrom : Int
  oTo : Int
  oAt : Nat
  rate : Int
  /-- Ticks in a row with an error above 1 µs, and below 2 cycles (R628). -/
  bad : Nat
  good : Nat
  /-- The next exchange steps the offset (R628). -/
  stepNext : Bool
  /-- The tick under way is being realigned: no slot runs, and it ends at this fabric tick's boundary (R628). -/
  align : Option Nat
  jobs : List Job
  recs : List WaitRec
  parts : List Partials
  outs : List Outcome'
  digests : List JDigest
  verdicts : List (Nat × Nat × Bool)
  /-- Members that were lost (cause 3) or fell out of step (cause 4) since the last seam, by UID (R641). -/
  lost : List (Nat × Nat)
  /-- The offset that the next tick spreads in (R626). -/
  oNext : Option Int
  /-- The topology as it last changed, TOPO_SEQ left out, and the tick of the last TOPO sent (R617, R619). -/
  topoNow : List (List Byte)
  topoTick : Nat
  /-- CH_FABRIC_FULL was raised and still holds (R618). -/
  full : Bool
  /-- Cascade decisions that wait for the tick boundary they act at (R337). -/
  early : List Msg
  deriving DecidableEq, Repr

/-! ## Fuses and outputs -/

/-- What is fused: it outlives every reset (R570, R575, R576). -/
structure Fuses where
  /-- The owner key hash, once an owner is enrolled (R575). -/
  owner : Option (List Byte)
  /-- The fused security version counter HM_SVN (R576). -/
  svn : Nat
  deriving DecidableEq, Repr

/-- What the device sends out while it carries out one command. -/
inductive Out where
  /-- An MSI-X message with its vector (R675). -/
  | msix (v : Nat)
  /-- A CQ entry written to host memory at a bus address (R672). -/
  | hostWrite (addr : Nat) (bytes : List Byte)
  /-- A completion for the resident host: it interrupts the control core (R389, R675). -/
  | residentCpl (q : Nat) (entry : List Byte)
  /-- Bytes delivered over the host link for a command's KIND 0 reference (R671). -/
  | hostData (addr : Nat) (bytes : List Byte)
  /-- Read data of a register access, a doorbell page or a QSPI transaction. -/
  | readData (bytes : List Byte)
  /-- A fabric block, flit or message sent on a port; 4 for the node's own delivery (chapter 15). -/
  | link (port : Nat) (bytes : List Byte)
  /-- Output samples of a TDM slot over an audio frame, as 24-bit or 16-bit words (R376, R378). -/
  | audio (slot : Nat) (samples : List Nat)
  /-- A pin or analogue output the spec names, by name and value. -/
  | pin (name : String) (value : Nat)
  deriving DecidableEq, Repr

end Sys2Proof.Machine
end

