-- ==== Sys2Proof/Machine/RegMap.lean ====
section
/-!
DEFINITION. The register map of BAR0: block bases (R9), access codes (R11), writable bits (R12), reset values, the words of
wide values (R13), the tenants that may read and write, and the power domain, register by register, from the register and field
tables of R54, R104, R178, R212, R256, R258, R300, R338, R391, R429, R465, R498, R537, R591, R643, R663 and R704.
The power domain of a register is the domain its chapter puts its unit's configuration in; the others count as AON (log 6).
-/
namespace Sys2Proof.Machine

/-- Access codes (R11). -/
inductive Acc where
  | rw
  | ro
  | wo
  | w1c
  | rwl
  deriving DecidableEq, Repr

/-- Who may read or write a register: every context, tenant 0, the tenant of the register's index and tenant 0, or the owner
that the register's chapter names and tenant 0 (R551). -/
inductive Perm where
  | any
  | t0
  | own
  | special
  deriving DecidableEq, Repr

/-- One row of the map: an address, its two index strides, its access code, its bits, its readers and writers, its place in a
wide value and its power domain (127 for AON). -/
structure RegRow where
  base : Nat
  n : Nat
  s : Nat
  n2 : Nat
  s2 : Nat
  acc : Acc
  reset : Nat
  mask : Nat
  rd : Perm
  wr : Perm
  wk : Nat
  wn : Nat
  dom : Nat
  deriving DecidableEq, Repr

/-- HS_ID -/
abbrev rHS_ID : Nat := 0x0
/-- HS_FW_VERSION -/
abbrev rHS_FW_VERSION : Nat := 0x4
/-- HS_MODE -/
abbrev rHS_MODE : Nat := 0x8
/-- HS_EVENTS -/
abbrev rHS_EVENTS : Nat := 0xc
/-- HS_ACCESS_ERR -/
abbrev rHS_ACCESS_ERR : Nat := 0x10
/-- HS_IRQ_PEND_i -/
abbrev rHS_IRQ_PEND (i : Nat) : Nat := 0x20 + 4 * i
/-- HS_IRQ_MASK_i -/
abbrev rHS_IRQ_MASK (i : Nat) : Nat := 0x30 + 4 * i
/-- HS_SQ_BASE_LO_t -/
abbrev rHS_SQ_BASE_LO (i : Nat) : Nat := 0x1000 + 64 * i
/-- HS_SQ_BASE_HI_t -/
abbrev rHS_SQ_BASE_HI (i : Nat) : Nat := 0x1004 + 64 * i
/-- HS_CQ_BASE_LO_t -/
abbrev rHS_CQ_BASE_LO (i : Nat) : Nat := 0x1008 + 64 * i
/-- HS_CQ_BASE_HI_t -/
abbrev rHS_CQ_BASE_HI (i : Nat) : Nat := 0x100c + 64 * i
/-- HS_Q_CFG_t -/
abbrev rHS_Q_CFG (i : Nat) : Nat := 0x1010 + 64 * i
/-- HS_Q_IRQ_t -/
abbrev rHS_Q_IRQ (i : Nat) : Nat := 0x1014 + 64 * i
/-- HS_Q_STATUS_t -/
abbrev rHS_Q_STATUS (i : Nat) : Nat := 0x1018 + 64 * i
/-- HS_Q_COUNT_t -/
abbrev rHS_Q_COUNT (i : Nat) : Nat := 0x101c + 64 * i
/-- HS_MSIX_ADDR_v -/
abbrev rHS_MSIX_ADDR_v (i j : Nat) : Nat := 0x8000 + 16 * i + 4 * j
/-- HS_MSIX_CTRL_v -/
abbrev rHS_MSIX_CTRL (i : Nat) : Nat := 0x800c + 16 * i
/-- HS_MSIX_PBA_i -/
abbrev rHS_MSIX_PBA (i : Nat) : Nat := 0x9000 + 4 * i
/-- TK_CTRL -/
abbrev rTK_CTRL : Nat := 0x100000
/-- TK_PERIOD -/
abbrev rTK_PERIOD : Nat := 0x100004
/-- TK_PERIOD_NEXT -/
abbrev rTK_PERIOD_NEXT : Nat := 0x100008
/-- TK_SEAM_LEN -/
abbrev rTK_SEAM_LEN : Nat := 0x10000c
/-- TK_TICK_LO -/
abbrev rTK_TICK_LO : Nat := 0x100010
/-- TK_TICK_HI -/
abbrev rTK_TICK_HI : Nat := 0x100014
/-- TK_STATUS -/
abbrev rTK_STATUS : Nat := 0x100018
/-- TK_COMMIT -/
abbrev rTK_COMMIT : Nat := 0x10001c
/-- TK_REJECT -/
abbrev rTK_REJECT : Nat := 0x100020
/-- TK_OVERRUN_COUNT -/
abbrev rTK_OVERRUN_COUNT : Nat := 0x100024
/-- TK_PL_DEFER_COUNT -/
abbrev rTK_PL_DEFER_COUNT : Nat := 0x100028
/-- TK_MODE_LO -/
abbrev rTK_MODE_LO : Nat := 0x100030
/-- TK_MODE_HI -/
abbrev rTK_MODE_HI : Nat := 0x100034
/-- TK_SLOT_STATEk -/
abbrev rTK_SLOT_STATE (i : Nat) : Nat := 0x100100 + 4 * i
/-- TK_SLOT_STATE15 -/
abbrev rTK_SLOT_STATE15 : Nat := 0x10013c
/-- TK_CHOICE_t -/
abbrev rTK_CHOICE (i : Nat) : Nat := 0x101000 + 8 * i
/-- TK_CHOICE_CAUSE_t -/
abbrev rTK_CHOICE_CAUSE (i : Nat) : Nat := 0x101004 + 8 * i
/-- SQ_STORE_SIZE -/
abbrev rSQ_STORE_SIZE : Nat := 0x200000
/-- SQ_STORE_FREE -/
abbrev rSQ_STORE_FREE : Nat := 0x200004
/-- SQ_PROG_COUNT -/
abbrev rSQ_PROG_COUNT : Nat := 0x200008
/-- SQ_LOAD_STATUS -/
abbrev rSQ_LOAD_STATUS : Nat := 0x20000c
/-- SQ_LOAD_WHERE -/
abbrev rSQ_LOAD_WHERE : Nat := 0x200010
/-- SQ_FAULT_WHERE -/
abbrev rSQ_FAULT_WHERE : Nat := 0x200014
/-- SQ_FAULT_CYCLE -/
abbrev rSQ_FAULT_CYCLE : Nat := 0x200018
/-- SQ_QUOTA_t -/
abbrev rSQ_QUOTA (i : Nat) : Nat := 0x201000 + 4 * i
/-- SQ_USED_t -/
abbrev rSQ_USED (i : Nat) : Nat := 0x201100 + 4 * i
/-- QY_ARITH_REV -/
abbrev rQY_ARITH_REV : Nat := 0x300000
/-- QY_OFFLINE -/
abbrev rQY_OFFLINE : Nat := 0x300004
/-- QY_SELFTEST -/
abbrev rQY_SELFTEST : Nat := 0x300008
/-- QY_FLAGS_t -/
abbrev rQY_FLAGS (i : Nat) : Nat := 0x300100 + 4 * i
/-- QY_WIN_CAPS -/
abbrev rQY_WIN_CAPS : Nat := 0x301000
/-- QY_WIN_LIMITS -/
abbrev rQY_WIN_LIMITS : Nat := 0x301004
/-- BR_CAS_CAPS -/
abbrev rBR_CAS_CAPS : Nat := 0x402000
/-- BR_BOND_ARMED -/
abbrev rBR_BOND_ARMED : Nat := 0x402004
/-- BR_CAS_STATE_t -/
abbrev rBR_CAS_STATE (i : Nat) : Nat := 0x402100 + 32 * i
/-- BR_CAS_CONF01_t -/
abbrev rBR_CAS_CONF01 (i : Nat) : Nat := 0x402104 + 32 * i
/-- BR_CAS_CONF23_t -/
abbrev rBR_CAS_CONF23 (i : Nat) : Nat := 0x402108 + 32 * i
/-- BR_CAS_CONF45_t -/
abbrev rBR_CAS_CONF45 (i : Nat) : Nat := 0x40210c + 32 * i
/-- BR_BOND_LO_t -/
abbrev rBR_BOND_LO (i : Nat) : Nat := 0x402110 + 32 * i
/-- BR_BOND_HI_t -/
abbrev rBR_BOND_HI (i : Nat) : Nat := 0x402114 + 32 * i
/-- BR_CAS_COMMITS_t -/
abbrev rBR_CAS_COMMITS (i : Nat) : Nat := 0x402118 + 32 * i
/-- BR_CAS_DROPS_t -/
abbrev rBR_CAS_DROPS (i : Nat) : Nat := 0x40211c + 32 * i
/-- CR_OUTSTANDING -/
abbrev rCR_OUTSTANDING : Nat := 0x500000
/-- CR_RES_SUM_x -/
abbrev rCR_RES_SUM (i : Nat) : Nat := 0x500020 + 4 * i
/-- CR_RES_POOL -/
abbrev rCR_RES_POOL (i : Nat) : Nat := 0x500040 + 4 * i
/-- CR_RES_t_x -/
abbrev rCR_RES (i j : Nat) : Nat := 0x500100 + 32 * i + 4 * j
/-- CR_MAN_STATE_s -/
abbrev rCR_MAN_STATE (i : Nat) : Nat := 0x502000 + 4 * i
/-- TM_CTRL -/
abbrev rTM_CTRL : Nat := 0x600000
/-- TM_DECAY -/
abbrev rTM_DECAY : Nat := 0x600004
/-- TM_PROMOTE -/
abbrev rTM_PROMOTE : Nat := 0x600008
/-- TM_DEMOTE -/
abbrev rTM_DEMOTE : Nat := 0x60000c
/-- TM_STATUS -/
abbrev rTM_STATUS : Nat := 0x600010
/-- TM_DRAM_QUOTA_t -/
abbrev rTM_DRAM_QUOTA (i : Nat) : Nat := 0x600100 + 4 * i
/-- TM_DRAM_USED_t -/
abbrev rTM_DRAM_USED (i : Nat) : Nat := 0x600200 + 4 * i
/-- TM_DBG_SEL -/
abbrev rTM_DBG_SEL : Nat := 0x601000
/-- TM_DBG_SEL_PAGE -/
abbrev rTM_DBG_SEL_PAGE : Nat := 0x601004
/-- TM_DBG_LOC -/
abbrev rTM_DBG_LOC : Nat := 0x601008
/-- DM_STATUS -/
abbrev rDM_STATUS : Nat := 0x700000
/-- DM_PAGES -/
abbrev rDM_PAGES : Nat := 0x700004
/-- DM_FREE -/
abbrev rDM_FREE : Nat := 0x700008
/-- DM_CE_COUNT -/
abbrev rDM_CE_COUNT : Nat := 0x70000c
/-- DM_UE_COUNT -/
abbrev rDM_UE_COUNT : Nat := 0x700010
/-- DM_POISONED -/
abbrev rDM_POISONED : Nat := 0x700014
/-- DM_LAST_UE_ALLOC -/
abbrev rDM_LAST_UE_ALLOC : Nat := 0x700018
/-- DM_LAST_UE_PAGE -/
abbrev rDM_LAST_UE_PAGE : Nat := 0x70001c
/-- DM_LAST_UE_TICK_LO -/
abbrev rDM_LAST_UE_TICK_LO : Nat := 0x700020
/-- DM_LAST_UE_TICK_HI -/
abbrev rDM_LAST_UE_TICK_HI : Nat := 0x700024
/-- FL_STATUS -/
abbrev rFL_STATUS : Nat := 0x800000
/-- FL_USER_PAGES -/
abbrev rFL_USER_PAGES : Nat := 0x800004
/-- FL_WEAR -/
abbrev rFL_WEAR : Nat := 0x800008
/-- FL_BAD_BLOCKS -/
abbrev rFL_BAD_BLOCKS : Nat := 0x80000c
/-- FL_RD_RELOC_COUNT -/
abbrev rFL_RD_RELOC_COUNT : Nat := 0x800014
/-- FL_RD_PENDING -/
abbrev rFL_RD_PENDING : Nat := 0x800018
/-- FL_CACHE_FILL -/
abbrev rFL_CACHE_FILL : Nat := 0x80001c
/-- FL_IMG_FREE -/
abbrev rFL_IMG_FREE : Nat := 0x800020
/-- FL_IMG_COUNT -/
abbrev rFL_IMG_COUNT : Nat := 0x800024
/-- FL_INHIBIT_COUNT -/
abbrev rFL_INHIBIT_COUNT : Nat := 0x800028
/-- FL_UNCLEAN_COUNT -/
abbrev rFL_UNCLEAN_COUNT : Nat := 0x80002c
/-- FL_RD_LIMIT -/
abbrev rFL_RD_LIMIT : Nat := 0x800010
/-- LH_STATUS -/
abbrev rLH_STATUS : Nat := 0x900000
/-- LH_FRAME -/
abbrev rLH_FRAME : Nat := 0x900004
/-- LH_MIC_MUTE -/
abbrev rLH_MIC_MUTE : Nat := 0x900010
/-- LH_MUTE_DELEGATE -/
abbrev rLH_MUTE_DELEGATE : Nat := 0x900014
/-- LH_MUTE_LOG -/
abbrev rLH_MUTE_LOG : Nat := 0x900018
/-- LH_MUTE_DENIED -/
abbrev rLH_MUTE_DENIED : Nat := 0x90001c
/-- LH_MUTE_TICK_LO -/
abbrev rLH_MUTE_TICK_LO : Nat := 0x900020
/-- LH_MUTE_TICK_HI -/
abbrev rLH_MUTE_TICK_HI : Nat := 0x900024
/-- LH_PDM_CFG -/
abbrev rLH_PDM_CFG : Nat := 0x900030
/-- LH_CAP_CFG_c -/
abbrev rLH_CAP_CFG (i : Nat) : Nat := 0x900100 + 16 * i
/-- LH_CAP_RING_c -/
abbrev rLH_CAP_RING (i : Nat) : Nat := 0x900104 + 16 * i
/-- LH_CAP_MIRROR_c -/
abbrev rLH_CAP_MIRROR (i : Nat) : Nat := 0x900108 + 16 * i
/-- LH_CAP_MISSED_c -/
abbrev rLH_CAP_MISSED (i : Nat) : Nat := 0x90010c + 16 * i
/-- LH_VAD_CFG -/
abbrev rLH_VAD_CFG : Nat := 0x900200
/-- LH_VAD_W -/
abbrev rLH_VAD_W : Nat := 0x900204
/-- LH_VAD_W2 -/
abbrev rLH_VAD_W2 : Nat := 0x900208
/-- LH_VAD_NF -/
abbrev rLH_VAD_NF : Nat := 0x90020c
/-- LH_VAD_CONF -/
abbrev rLH_VAD_CONF : Nat := 0x900210
/-- LH_RTC_LO -/
abbrev rLH_RTC_LO : Nat := 0x900300
/-- LH_RTC_HI -/
abbrev rLH_RTC_HI : Nat := 0x900304
/-- LH_RTC_ALARM_LO -/
abbrev rLH_RTC_ALARM_LO : Nat := 0x900308
/-- LH_RTC_ALARM_HI -/
abbrev rLH_RTC_ALARM_HI : Nat := 0x90030c
/-- LH_RTC_PERIOD -/
abbrev rLH_RTC_PERIOD : Nat := 0x900310
/-- LH_RTC_TRIM -/
abbrev rLH_RTC_TRIM : Nat := 0x900314
/-- LH_TOUCH_CFG -/
abbrev rLH_TOUCH_CFG : Nat := 0x900400
/-- LH_TOUCH_CH_n -/
abbrev rLH_TOUCH_CH (i : Nat) : Nat := 0x900404 + 4 * i
/-- LH_TOUCH_OVR -/
abbrev rLH_TOUCH_OVR : Nat := 0x900430
/-- LH_TOUCH_TH_n -/
abbrev rLH_TOUCH_TH (i : Nat) : Nat := 0x900440 + 4 * i
/-- LH_BTN_CFG_n -/
abbrev rLH_BTN_CFG (i : Nat) : Nat := 0x900500 + 4 * i
/-- LH_HAP_CFG_h -/
abbrev rLH_HAP_CFG (i : Nat) : Nat := 0x900600 + 256 * i
/-- LH_HAP_CTRL_h -/
abbrev rLH_HAP_CTRL (i : Nat) : Nat := 0x900604 + 256 * i
/-- LH_HAP_OWNER_h -/
abbrev rLH_HAP_OWNER (i : Nat) : Nat := 0x900608 + 256 * i
/-- LH_HAP_STEP_h_i -/
abbrev rLH_HAP_STEP (i j : Nat) : Nat := 0x900680 + 256 * i + 4 * j
/-- LH_CHG_CFG -/
abbrev rLH_CHG_CFG : Nat := 0x900800
/-- LH_EVT_POP_LO -/
abbrev rLH_EVT_POP_LO : Nat := 0x900900
/-- LH_EVT_POP_HI -/
abbrev rLH_EVT_POP_HI : Nat := 0x900904
/-- LH_EVT_PENDING -/
abbrev rLH_EVT_PENDING : Nat := 0x900908
/-- LH_EVT_LOST -/
abbrev rLH_EVT_LOST : Nat := 0x90090c
/-- LH_WAKE_EN -/
abbrev rLH_WAKE_EN : Nat := 0x900910
/-- LH_RH_TENANTS_LO -/
abbrev rLH_RH_TENANTS_LO : Nat := 0x900a00
/-- LH_RH_TENANTS_HI -/
abbrev rLH_RH_TENANTS_HI : Nat := 0x900a04
/-- LH_PART_OWNER_p -/
abbrev rLH_PART_OWNER (i : Nat) : Nat := 0x901000 + 4 * i
/-- AU_CFG -/
abbrev rAU_CFG : Nat := 0x980000
/-- AU_COMMIT -/
abbrev rAU_COMMIT : Nat := 0x980004
/-- AU_STATUS -/
abbrev rAU_STATUS : Nat := 0x980008
/-- AU_COMMIT_LOST -/
abbrev rAU_COMMIT_LOST : Nat := 0x98000c
/-- AU_PB_OWNER_p -/
abbrev rAU_PB_OWNER (i : Nat) : Nat := 0x980100 + 32 * i
/-- AU_PB_BASE_p -/
abbrev rAU_PB_BASE (i : Nat) : Nat := 0x980104 + 32 * i
/-- AU_PB_WP_p -/
abbrev rAU_PB_WP (i : Nat) : Nat := 0x980108 + 32 * i
/-- AU_PB_RP_p -/
abbrev rAU_PB_RP (i : Nat) : Nat := 0x98010c + 32 * i
/-- AU_PB_UNDERRUN_p -/
abbrev rAU_PB_UNDERRUN (i : Nat) : Nat := 0x980110 + 32 * i
/-- AU_MATRIX_ACTIVE -/
abbrev rAU_MATRIX_ACTIVE (i : Nat) : Nat := 0x981000 + 4 * i
/-- AU_MATRIX_NEXT -/
abbrev rAU_MATRIX_NEXT (i : Nat) : Nat := 0x981200 + 4 * i
/-- CM_RX_CFG -/
abbrev rCM_RX_CFG (i : Nat) : Nat := 0xa00000 + 256 * i
/-- CM_RX_STATUS -/
abbrev rCM_RX_STATUS (i : Nat) : Nat := 0xa00004 + 256 * i
/-- CM_RX_ERR -/
abbrev rCM_RX_ERR (i : Nat) : Nat := 0xa00008 + 256 * i
/-- CM_VC_CFG_v -/
abbrev rCM_VC_CFG (i : Nat) : Nat := 0xa01000 + 64 * i
/-- CM_LINE_PITCH_v -/
abbrev rCM_LINE_PITCH (i : Nat) : Nat := 0xa01004 + 64 * i
/-- CM_FRAME_ALLOC_v -/
abbrev rCM_FRAME_ALLOC (i : Nat) : Nat := 0xa01008 + 64 * i
/-- CM_FRAME_BASE_v -/
abbrev rCM_FRAME_BASE (i : Nat) : Nat := 0xa0100c + 64 * i
/-- CM_COMMIT_v -/
abbrev rCM_COMMIT (i : Nat) : Nat := 0xa01010 + 64 * i
/-- CM_STATUS_v -/
abbrev rCM_STATUS (i : Nat) : Nat := 0xa01014 + 64 * i
/-- CM_FRAME_COUNT_v -/
abbrev rCM_FRAME_COUNT (i : Nat) : Nat := 0xa01018 + 64 * i
/-- CM_COMMIT_LOST_v -/
abbrev rCM_COMMIT_LOST (i : Nat) : Nat := 0xa0101c + 64 * i
/-- CM_VC_STATE_v -/
abbrev rCM_VC_STATE (i : Nat) : Nat := 0xa01020 + 64 * i
/-- CM_DT_DROP_v -/
abbrev rCM_DT_DROP (i : Nat) : Nat := 0xa01024 + 64 * i
/-- SN_TIME_LO -/
abbrev rSN_TIME_LO : Nat := 0xb00000
/-- SN_TIME_HI -/
abbrev rSN_TIME_HI : Nat := 0xb00004
/-- SN_STATUS -/
abbrev rSN_STATUS : Nat := 0xb00008
/-- SN_STREAM_CFG_n -/
abbrev rSN_STREAM_CFG (i : Nat) : Nat := 0xb00100 + 32 * i
/-- SN_STREAM_RING_n -/
abbrev rSN_STREAM_RING (i : Nat) : Nat := 0xb00104 + 32 * i
/-- SN_STREAM_RECORDS_n -/
abbrev rSN_STREAM_RECORDS (i : Nat) : Nat := 0xb00108 + 32 * i
/-- SN_STREAM_SEQ_n -/
abbrev rSN_STREAM_SEQ (i : Nat) : Nat := 0xb0010c + 32 * i
/-- SN_STREAM_OVR_n -/
abbrev rSN_STREAM_OVR (i : Nat) : Nat := 0xb00110 + 32 * i
/-- SN_STREAM_MISSED_n -/
abbrev rSN_STREAM_MISSED (i : Nat) : Nat := 0xb00114 + 32 * i
/-- SN_BIND_NEXT_n -/
abbrev rSN_BIND_NEXT (i : Nat) : Nat := 0xb00118 + 32 * i
/-- SN_BIND_COMMIT_n -/
abbrev rSN_BIND_COMMIT (i : Nat) : Nat := 0xb0011c + 32 * i
/-- SN_I3C_CFG_k -/
abbrev rSN_I3C_CFG (i : Nat) : Nat := 0xb01000 + 256 * i
/-- SN_I3C_DEV_k_i -/
abbrev rSN_I3C_DEV (i j : Nat) : Nat := 0xb01010 + 256 * i + 4 * j
/-- SN_SPI_CFG_k -/
abbrev rSN_SPI_CFG (i : Nat) : Nat := 0xb01800 + 256 * i
/-- SN_SEQ_CFG_n -/
abbrev rSN_SEQ_CFG (i : Nat) : Nat := 0xb02000 + 256 * i
/-- SN_SEQ_PERIOD_n -/
abbrev rSN_SEQ_PERIOD (i : Nat) : Nat := 0xb02004 + 256 * i
/-- SN_SEQ_PHASE_n -/
abbrev rSN_SEQ_PHASE (i : Nat) : Nat := 0xb02008 + 256 * i
/-- SN_SEQ_OFS_n -/
abbrev rSN_SEQ_OFS (i : Nat) : Nat := 0xb0200c + 256 * i
/-- SN_SEQ_CTRL_n -/
abbrev rSN_SEQ_CTRL (i : Nat) : Nat := 0xb02010 + 256 * i
/-- SN_SEQ_STEP_n_i_LO -/
abbrev rSN_SEQ_STEP_LO (i j : Nat) : Nat := 0xb02040 + 256 * i + 8 * j
/-- SN_SEQ_STEP_n_i_HI -/
abbrev rSN_SEQ_STEP_HI (i j : Nat) : Nat := 0xb02044 + 256 * i + 8 * j
/-- SN_WHL_CFG_w -/
abbrev rSN_WHL_CFG (i : Nat) : Nat := 0xb03000 + 64 * i
/-- SN_WHL_POS_w -/
abbrev rSN_WHL_POS (i : Nat) : Nat := 0xb03004 + 64 * i
/-- SN_WHL_PERIOD_w -/
abbrev rSN_WHL_PERIOD (i : Nat) : Nat := 0xb03008 + 64 * i
/-- SN_WHL_PHASE_w -/
abbrev rSN_WHL_PHASE (i : Nat) : Nat := 0xb0300c + 64 * i
/-- FU_CTRL -/
abbrev rFU_CTRL : Nat := 0xc00000
/-- FU_STATUS -/
abbrev rFU_STATUS : Nat := 0xc00004
/-- FU_OWNER -/
abbrev rFU_OWNER : Nat := 0xc00008
/-- FU_SNS_STATE -/
abbrev rFU_SNS_STATE : Nat := 0xc0000c
/-- FU_GRID_PERIOD -/
abbrev rFU_GRID_PERIOD : Nat := 0xc00010
/-- FU_GRID_PHASE -/
abbrev rFU_GRID_PHASE : Nat := 0xc00014
/-- FU_LAT -/
abbrev rFU_LAT : Nat := 0xc00018
/-- FU_FILT -/
abbrev rFU_FILT : Nat := 0xc0001c
/-- FU_STEP_HOLD -/
abbrev rFU_STEP_HOLD : Nat := 0xc00020
/-- FU_COAST_MAX -/
abbrev rFU_COAST_MAX : Nat := 0xc00024
/-- FU_POS_SD_MAX -/
abbrev rFU_POS_SD_MAX : Nat := 0xc00028
/-- FU_VEL_MAX -/
abbrev rFU_VEL_MAX : Nat := 0xc0002c
/-- FU_GRAVITY -/
abbrev rFU_GRAVITY : Nat := 0xc00030
/-- FU_ATT_SD_MAX -/
abbrev rFU_ATT_SD_MAX : Nat := 0xc00034
/-- FU_OUT_RING -/
abbrev rFU_OUT_RING : Nat := 0xc00038
/-- FU_OUT_RECORDS -/
abbrev rFU_OUT_RECORDS : Nat := 0xc0003c
/-- FU_OUT_SEQ -/
abbrev rFU_OUT_SEQ : Nat := 0xc00040
/-- FU_OUT_MISSED -/
abbrev rFU_OUT_MISSED : Nat := 0xc00044
/-- FU_SNS_CFG_n -/
abbrev rFU_SNS_CFG (i : Nat) : Nat := 0xc01000 + 64 * i
/-- FU_SNS_DECODE_n -/
abbrev rFU_SNS_DECODE (i : Nat) : Nat := 0xc01004 + 64 * i
/-- FU_SNS_SCALE_n -/
abbrev rFU_SNS_SCALE (i : Nat) : Nat := 0xc01008 + 64 * i
/-- FU_SNS_GATE_n -/
abbrev rFU_SNS_GATE (i : Nat) : Nat := 0xc01018 + 64 * i
/-- FU_SNS_COUNTS_n -/
abbrev rFU_SNS_COUNTS (i : Nat) : Nat := 0xc0101c + 64 * i
/-- FU_SNS_DROPOUT_n -/
abbrev rFU_SNS_DROPOUT (i : Nat) : Nat := 0xc01020 + 64 * i
/-- FU_SNS_MASK_HOLD_n -/
abbrev rFU_SNS_MASK_HOLD (i : Nat) : Nat := 0xc01024 + 64 * i
/-- FU_SNS_WEIGHT_LO_n -/
abbrev rFU_SNS_WEIGHT_LO (i : Nat) : Nat := 0xc01028 + 64 * i
/-- FU_SNS_WEIGHT_HI_n -/
abbrev rFU_SNS_WEIGHT_HI (i : Nat) : Nat := 0xc0102c + 64 * i
/-- FU_SNS_NOISE_n -/
abbrev rFU_SNS_NOISE (i : Nat) : Nat := 0xc01030 + 64 * i
/-- FU_SNS_BIAS_n_i -/
abbrev rFU_SNS_BIAS (i j : Nat) : Nat := 0xc0100c + 64 * i + 4 * j
/-- FU_SNS_CTRL_n -/
abbrev rFU_SNS_CTRL (i : Nat) : Nat := 0xc01034 + 64 * i
/-- FU_SNS_LATE_n -/
abbrev rFU_SNS_LATE (i : Nat) : Nat := 0xc01038 + 64 * i
/-- FU_SNS_FAILS_n -/
abbrev rFU_SNS_FAILS (i : Nat) : Nat := 0xc0103c + 64 * i
/-- PM_STATUS -/
abbrev rPM_STATUS : Nat := 0xd00000
/-- PM_STATE_r -/
abbrev rPM_STATE (i : Nat) : Nat := 0xd00010 + 4 * i
/-- PM_PERF -/
abbrev rPM_PERF : Nat := 0xd00030
/-- PM_WAKE_DOMAINS -/
abbrev rPM_WAKE_DOMAINS (i : Nat) : Nat := 0xd00040 + 4 * i
/-- PM_LINK_WAKE -/
abbrev rPM_LINK_WAKE : Nat := 0xd00050
/-- PM_LAST_WAKE -/
abbrev rPM_LAST_WAKE : Nat := 0xd00054
/-- PM_WAKE_COUNT -/
abbrev rPM_WAKE_COUNT : Nat := 0xd00058
/-- PM_XTAL -/
abbrev rPM_XTAL : Nat := 0xd00060
/-- PM_SET_CHANGED_i -/
abbrev rPM_SET_CHANGED (i : Nat) : Nat := 0xd00070 + 4 * i
/-- PM_SET_OFFLINE_i -/
abbrev rPM_SET_OFFLINE (i : Nat) : Nat := 0xd00080 + 4 * i
/-- PM_SO_k -/
abbrev rPM_SO (i : Nat) : Nat := 0xd00100 + 8 * i
/-- PM_SO_FIRED_k -/
abbrev rPM_SO_FIRED (i : Nat) : Nat := 0xd00104 + 8 * i
/-- PD_STATUS -/
abbrev rPD_STATUS : Nat := 0xe00000
/-- PD_PLIM_WORN -/
abbrev rPD_PLIM_WORN : Nat := 0xe00004
/-- PD_PLIM_DOCK -/
abbrev rPD_PLIM_DOCK : Nat := 0xe00008
/-- PD_PLCAP -/
abbrev rPD_PLCAP : Nat := 0xe0000c
/-- PD_ILIM_NOW -/
abbrev rPD_ILIM_NOW : Nat := 0xe00010
/-- PD_RES_CAP -/
abbrev rPD_RES_CAP : Nat := 0xe00020
/-- PD_RES_VMAX -/
abbrev rPD_RES_VMAX : Nat := 0xe00024
/-- PD_RES_ICHG -/
abbrev rPD_RES_ICHG : Nat := 0xe00028
/-- PD_RES_RESERVE -/
abbrev rPD_RES_RESERVE : Nat := 0xe0002c
/-- PD_RES_RESUME -/
abbrev rPD_RES_RESUME : Nat := 0xe00030
/-- PD_RES_VOLT -/
abbrev rPD_RES_VOLT : Nat := 0xe00034
/-- PD_RES_ENERGY -/
abbrev rPD_RES_ENERGY : Nat := 0xe00038
/-- PD_VBAT -/
abbrev rPD_VBAT : Nat := 0xe00040
/-- PD_VTH_WARN -/
abbrev rPD_VTH_WARN : Nat := 0xe00044
/-- PD_VTH_NVW -/
abbrev rPD_VTH_NVW : Nat := 0xe00048
/-- PD_VTH_RET -/
abbrev rPD_VTH_RET : Nat := 0xe0004c
/-- PD_VTH_BOR -/
abbrev rPD_VTH_BOR : Nat := 0xe00050
/-- PD_TJ_MAX -/
abbrev rPD_TJ_MAX : Nat := 0xe00060
/-- PD_TSKIN -/
abbrev rPD_TSKIN : Nat := 0xe00064
/-- PD_SKIN_LIMIT -/
abbrev rPD_SKIN_LIMIT : Nat := 0xe00068
/-- PD_NTC_CFG -/
abbrev rPD_NTC_CFG : Nat := 0xe0006c
/-- PD_HOVER_COUNT -/
abbrev rPD_HOVER_COUNT : Nat := 0xe00070
/-- PD_THERM_STEPS -/
abbrev rPD_THERM_STEPS : Nat := 0xe00074
/-- PD_STRETCH_COUNT -/
abbrev rPD_STRETCH_COUNT : Nat := 0xe00078
/-- PD_ASSIST_COUNT -/
abbrev rPD_ASSIST_COUNT : Nat := 0xe00084
/-- PD_SHUNT_COUNT -/
abbrev rPD_SHUNT_COUNT : Nat := 0xe00088
/-- PD_LIMIT_EXCEED -/
abbrev rPD_LIMIT_EXCEED : Nat := 0xe0008c
/-- PD_STRETCH_TICK_LO -/
abbrev rPD_STRETCH_TICK_LO : Nat := 0xe0007c
/-- PD_STRETCH_TICK_HI -/
abbrev rPD_STRETCH_TICK_HI : Nat := 0xe00080
/-- PD_DROOP_r_MIN -/
abbrev rPD_DROOP_MIN (i : Nat) : Nat := 0xe00100 + 16 * i
/-- PD_DROOP_r_TICK_LO -/
abbrev rPD_DROOP_TICK_LO (i : Nat) : Nat := 0xe00104 + 16 * i
/-- PD_DROOP_r_TICK_HI -/
abbrev rPD_DROOP_TICK_HI (i : Nat) : Nat := 0xe00108 + 16 * i
/-- PD_DROOP_r_CYCLE -/
abbrev rPD_DROOP_CYCLE (i : Nat) : Nat := 0xe0010c + 16 * i
/-- PD_TJ_j -/
abbrev rPD_TJ (i : Nat) : Nat := 0xe00200 + 4 * i
/-- HM_STATUS -/
abbrev rHM_STATUS : Nat := 0xf00000
/-- HM_HOST_CTX -/
abbrev rHM_HOST_CTX : Nat := 0xf00004
/-- HM_LOCK_SET -/
abbrev rHM_LOCK_SET : Nat := 0xf00008
/-- HM_LOCK_STATE -/
abbrev rHM_LOCK_STATE : Nat := 0xf0000c
/-- HM_RULE_EPOCH -/
abbrev rHM_RULE_EPOCH : Nat := 0xf00010
/-- HM_SVN -/
abbrev rHM_SVN : Nat := 0xf00014
/-- HM_BOOT_COUNT -/
abbrev rHM_BOOT_COUNT : Nat := 0xf00018
/-- HM_SCRUB_COUNT -/
abbrev rHM_SCRUB_COUNT : Nat := 0xf0001c
/-- HM_UID_0 -/
abbrev rHM_UID_0 : Nat := 0xf00020
/-- HM_UID_1 -/
abbrev rHM_UID_1 : Nat := 0xf00024
/-- HM_UID_2 -/
abbrev rHM_UID_2 : Nat := 0xf00028
/-- HM_UID_3 -/
abbrev rHM_UID_3 : Nat := 0xf0002c
/-- HM_TENANTS_LO -/
abbrev rHM_TENANTS_LO : Nat := 0xf00030
/-- HM_TENANTS_HI -/
abbrev rHM_TENANTS_HI : Nat := 0xf00034
/-- HM_TENANT_CFG_t -/
abbrev rHM_TENANT_CFG (i : Nat) : Nat := 0xf00100 + 4 * i
/-- HM_IMG_QUOTA_t -/
abbrev rHM_IMG_QUOTA (i : Nat) : Nat := 0xf00200 + 4 * i
/-- HM_ATT_POLICY_t -/
abbrev rHM_ATT_POLICY (i : Nat) : Nat := 0xf00300 + 4 * i
/-- DB_STATE -/
abbrev rDB_STATE : Nat := 0x1100000
/-- DB_CTRL -/
abbrev rDB_CTRL : Nat := 0x1100004
/-- DB_CHALLENGE_0 -/
abbrev rDB_CHALLENGE_0 : Nat := 0x1100010
/-- DB_CHALLENGE_1 -/
abbrev rDB_CHALLENGE_1 : Nat := 0x1100014
/-- DB_CHALLENGE_2 -/
abbrev rDB_CHALLENGE_2 : Nat := 0x1100018
/-- DB_CHALLENGE_3 -/
abbrev rDB_CHALLENGE_3 : Nat := 0x110001c
/-- DB_CHALLENGE_4 -/
abbrev rDB_CHALLENGE_4 : Nat := 0x1100020
/-- DB_CHALLENGE_5 -/
abbrev rDB_CHALLENGE_5 : Nat := 0x1100024
/-- DB_CHALLENGE_6 -/
abbrev rDB_CHALLENGE_6 : Nat := 0x1100028
/-- DB_CHALLENGE_7 -/
abbrev rDB_CHALLENGE_7 : Nat := 0x110002c
/-- DB_CHALLENGE_8 -/
abbrev rDB_CHALLENGE_8 : Nat := 0x1100030
/-- DB_CHALLENGE_9 -/
abbrev rDB_CHALLENGE_9 : Nat := 0x1100034
/-- DB_CHALLENGE_10 -/
abbrev rDB_CHALLENGE_10 : Nat := 0x1100038
/-- DB_CHALLENGE_11 -/
abbrev rDB_CHALLENGE_11 : Nat := 0x110003c
/-- DB_RESPONSE_0 -/
abbrev rDB_RESPONSE_0 : Nat := 0x1100040
/-- DB_RESPONSE_1 -/
abbrev rDB_RESPONSE_1 : Nat := 0x1100044
/-- DB_RESPONSE_2 -/
abbrev rDB_RESPONSE_2 : Nat := 0x1100048
/-- DB_RESPONSE_3 -/
abbrev rDB_RESPONSE_3 : Nat := 0x110004c
/-- DB_RESPONSE_4 -/
abbrev rDB_RESPONSE_4 : Nat := 0x1100050
/-- DB_RESPONSE_5 -/
abbrev rDB_RESPONSE_5 : Nat := 0x1100054
/-- DB_RESPONSE_6 -/
abbrev rDB_RESPONSE_6 : Nat := 0x1100058
/-- DB_RESPONSE_7 -/
abbrev rDB_RESPONSE_7 : Nat := 0x110005c
/-- DB_RESPONSE_8 -/
abbrev rDB_RESPONSE_8 : Nat := 0x1100060
/-- DB_RESPONSE_9 -/
abbrev rDB_RESPONSE_9 : Nat := 0x1100064
/-- DB_RESPONSE_10 -/
abbrev rDB_RESPONSE_10 : Nat := 0x1100068
/-- DB_RESPONSE_11 -/
abbrev rDB_RESPONSE_11 : Nat := 0x110006c
/-- DB_RESPONSE_12 -/
abbrev rDB_RESPONSE_12 : Nat := 0x1100070
/-- DB_RESPONSE_13 -/
abbrev rDB_RESPONSE_13 : Nat := 0x1100074
/-- DB_RESPONSE_14 -/
abbrev rDB_RESPONSE_14 : Nat := 0x1100078
/-- DB_RESPONSE_15 -/
abbrev rDB_RESPONSE_15 : Nat := 0x110007c
/-- DB_RESPONSE_16 -/
abbrev rDB_RESPONSE_16 : Nat := 0x1100080
/-- DB_RESPONSE_17 -/
abbrev rDB_RESPONSE_17 : Nat := 0x1100084
/-- DB_RESPONSE_18 -/
abbrev rDB_RESPONSE_18 : Nat := 0x1100088
/-- DB_RESPONSE_19 -/
abbrev rDB_RESPONSE_19 : Nat := 0x110008c
/-- DB_RESPONSE_20 -/
abbrev rDB_RESPONSE_20 : Nat := 0x1100090
/-- DB_RESPONSE_21 -/
abbrev rDB_RESPONSE_21 : Nat := 0x1100094
/-- DB_RESPONSE_22 -/
abbrev rDB_RESPONSE_22 : Nat := 0x1100098
/-- DB_RESPONSE_23 -/
abbrev rDB_RESPONSE_23 : Nat := 0x110009c
/-- DB_UART -/
abbrev rDB_UART : Nat := 0x11000a0
/-- CH_NODE -/
abbrev rCH_NODE : Nat := 0x1000000
/-- CH_GEN -/
abbrev rCH_GEN : Nat := 0x1000004
/-- CH_FTIME_LO -/
abbrev rCH_FTIME_LO : Nat := 0x1000008
/-- CH_FTIME_HI -/
abbrev rCH_FTIME_HI : Nat := 0x100000c
/-- CH_TICK_OFS_LO -/
abbrev rCH_TICK_OFS_LO : Nat := 0x1000010
/-- CH_TICK_OFS_HI -/
abbrev rCH_TICK_OFS_HI : Nat := 0x1000014
/-- CH_SYNC -/
abbrev rCH_SYNC : Nat := 0x1000018
/-- CH_DISCARD -/
abbrev rCH_DISCARD : Nat := 0x100001c
/-- CH_CONFIG_HASH_0 -/
abbrev rCH_CONFIG_HASH_0 : Nat := 0x1000020
/-- CH_CONFIG_HASH_1 -/
abbrev rCH_CONFIG_HASH_1 : Nat := 0x1000024
/-- CH_CONFIG_HASH_2 -/
abbrev rCH_CONFIG_HASH_2 : Nat := 0x1000028
/-- CH_CONFIG_HASH_3 -/
abbrev rCH_CONFIG_HASH_3 : Nat := 0x100002c
/-- CH_PORT_CFG -/
abbrev rCH_PORT_CFG (i : Nat) : Nat := 0x1000100 + 16 * i
/-- CH_PORT_CTRL -/
abbrev rCH_PORT_CTRL (i : Nat) : Nat := 0x1000104 + 16 * i
/-- CH_PORT_STATUS -/
abbrev rCH_PORT_STATUS (i : Nat) : Nat := 0x1000108 + 16 * i
/-- CH_PORT_ERR -/
abbrev rCH_PORT_ERR (i : Nat) : Nat := 0x100010c + 16 * i
/-- CH_ROUTE_i_w -/
abbrev rCH_ROUTE (i j : Nat) : Nat := 0x1000200 + 32 * i + 4 * j
/-- CH_NODE_UID_n_0 -/
abbrev rCH_NODE_UID_0 (i : Nat) : Nat := 0x1001000 + 16 * i
/-- CH_NODE_UID_n_1 -/
abbrev rCH_NODE_UID_1 (i : Nat) : Nat := 0x1001004 + 16 * i
/-- CH_NODE_UID_n_2 -/
abbrev rCH_NODE_UID_2 (i : Nat) : Nat := 0x1001008 + 16 * i
/-- CH_NODE_UID_n_3 -/
abbrev rCH_NODE_UID_3 (i : Nat) : Nat := 0x100100c + 16 * i
/-- CH_NODE_INFO_n -/
abbrev rCH_NODE_INFO (i : Nat) : Nat := 0x1001400 + 4 * i
/-- CH_JOB_STATE_j -/
abbrev rCH_JOB_STATE (i : Nat) : Nat := 0x1002000 + 4 * i
/-- CH_PEER_OUT_k -/
abbrev rCH_PEER_OUT (i : Nat) : Nat := 0x1003000 + 4 * i
/-- CH_PEER_IN_s -/
abbrev rCH_PEER_IN (i : Nat) : Nat := 0x1003100 + 4 * i
/-- EF_START -/
abbrev rEF_START : Nat := 0x1200000
/-- EF_START_TIME -/
abbrev rEF_START_TIME : Nat := 0x1200004
/-- EF_HEAD_t -/
abbrev rEF_HEAD (i : Nat) : Nat := 0x1200100 + 16 * i
/-- EF_TAIL_t -/
abbrev rEF_TAIL (i : Nat) : Nat := 0x1200104 + 16 * i
/-- EF_LOST_t -/
abbrev rEF_LOST (i : Nat) : Nat := 0x1200108 + 16 * i
/-- EF_DEV_HEAD -/
abbrev rEF_DEV_HEAD : Nat := 0x1200800
/-- EF_DEV_TAIL -/
abbrev rEF_DEV_TAIL : Nat := 0x1200804
/-- EF_DEV_LOST -/
abbrev rEF_DEV_LOST : Nat := 0x1200808

/-- Registers of the HS block. -/
def regsHS0 : List RegRow := [
  ⟨0x0, 1, 4, 1, 4, .ro, 0x3a10256, 0xffffffff, .any, .t0, 0, 1, 17⟩,
  ⟨0x4, 1, 4, 1, 4, .ro, 0x0, 0xffffffff, .any, .t0, 0, 1, 17⟩,
  ⟨0x8, 1, 4, 1, 4, .ro, 0x0, 0x7f, .any, .t0, 0, 1, 17⟩,
  ⟨0xc, 1, 4, 1, 4, .w1c, 0x0, 0x3, .t0, .t0, 0, 1, 17⟩,
  ⟨0x10, 1, 4, 1, 4, .ro, 0x0, 0xffffffff, .t0, .t0, 0, 1, 17⟩,
  ⟨0x20, 4, 4, 1, 4, .w1c, 0x0, 0xffffffff, .t0, .t0, 0, 1, 17⟩,
  ⟨0x30, 4, 4, 1, 4, .rw, 0xffffffff, 0xffffffff, .t0, .t0, 0, 1, 17⟩,
  ⟨0x1000, 64, 64, 1, 4, .rw, 0x0, 0xffffffff, .t0, .t0, 0, 2, 17⟩,
  ⟨0x1004, 64, 64, 1, 4, .rw, 0x0, 0xffffffff, .t0, .t0, 1, 2, 17⟩,
  ⟨0x1008, 64, 64, 1, 4, .rw, 0x0, 0xffffffff, .t0, .t0, 0, 2, 17⟩,
  ⟨0x100c, 64, 64, 1, 4, .rw, 0x0, 0xffffffff, .t0, .t0, 1, 2, 17⟩,
  ⟨0x1010, 64, 64, 1, 4, .rw, 0x10010, 0xffffff3, .t0, .t0, 0, 1, 17⟩,
  ⟨0x1014, 64, 64, 1, 4, .rw, 0x1, 0xffffff, .t0, .t0, 0, 1, 17⟩,
  ⟨0x1018, 64, 64, 1, 4, .ro, 0x0, 0xffffffff, .t0, .t0, 0, 1, 17⟩,
  ⟨0x101c, 64, 64, 1, 4, .ro, 0x0, 0xffffffff, .t0, .t0, 0, 1, 17⟩,
  ⟨0x8000, 128, 16, 3, 4, .rw, 0x0, 0xffffffff, .t0, .t0, 0, 1, 17⟩,
  ⟨0x800c, 128, 16, 1, 4, .rw, 0x1, 0x1, .t0, .t0, 0, 1, 17⟩,
  ⟨0x9000, 4, 4, 1, 4, .ro, 0x0, 0xffffffff, .t0, .t0, 0, 1, 17⟩]

/-- All registers of the HS block. -/
def regsHS : List RegRow := regsHS0

/-- Registers of the TK block. -/
def regsTK0 : List RegRow := [
  ⟨0x100000, 1, 4, 1, 4, .rw, 0x0, 0x1, .any, .t0, 0, 1, 127⟩,
  ⟨0x100004, 1, 4, 1, 4, .ro, 0x12c00, 0x3ffffff, .any, .t0, 0, 1, 127⟩,
  ⟨0x100008, 1, 4, 1, 4, .rw, 0x12c00, 0x3ffffff, .any, .t0, 0, 1, 127⟩,
  ⟨0x10000c, 1, 4, 1, 4, .rw, 0x3c0, 0xffff, .any, .t0, 0, 1, 127⟩,
  ⟨0x100010, 1, 4, 1, 4, .ro, 0x0, 0xffffffff, .any, .t0, 0, 2, 127⟩,
  ⟨0x100014, 1, 4, 1, 4, .ro, 0x0, 0xffffffff, .any, .t0, 1, 2, 127⟩,
  ⟨0x100018, 1, 4, 1, 4, .ro, 0x0, 0xffff000f, .any, .t0, 0, 1, 127⟩,
  ⟨0x10001c, 1, 4, 1, 4, .wo, 0x0, 0x1, .any, .t0, 0, 1, 127⟩,
  ⟨0x100020, 1, 4, 1, 4, .ro, 0x0, 0xffff0fff, .any, .t0, 0, 1, 127⟩,
  ⟨0x100024, 1, 4, 1, 4, .ro, 0x0, 0xffffffff, .any, .t0, 0, 1, 127⟩,
  ⟨0x100028, 1, 4, 1, 4, .ro, 0x0, 0xffffffff, .any, .t0, 0, 1, 127⟩,
  ⟨0x100030, 1, 4, 1, 4, .ro, 0x0, 0xffffffff, .any, .t0, 0, 1, 127⟩,
  ⟨0x100034, 1, 4, 1, 4, .ro, 0x0, 0xffffffff, .any, .t0, 0, 1, 127⟩,
  ⟨0x100100, 15, 4, 1, 4, .ro, 0x55555555, 0xffffffff, .any, .t0, 0, 1, 127⟩,
  ⟨0x10013c, 1, 4, 1, 4, .ro, 0x15555555, 0x3fffffff, .any, .t0, 0, 1, 127⟩,
  ⟨0x101000, 64, 8, 1, 4, .ro, 0x0, 0xffffffff, .any, .t0, 0, 1, 127⟩,
  ⟨0x101004, 64, 8, 1, 4, .ro, 0x0, 0xffffffff, .any, .t0, 0, 1, 127⟩]

/-- All registers of the TK block. -/
def regsTK : List RegRow := regsTK0

/-- Registers of the SQ block. -/
def regsSQ0 : List RegRow := [
  ⟨0x200000, 1, 4, 1, 4, .ro, 0x80000, 0xfffff, .any, .t0, 0, 1, 127⟩,
  ⟨0x200004, 1, 4, 1, 4, .ro, 0x80000, 0xfffff, .any, .t0, 0, 1, 127⟩,
  ⟨0x200008, 1, 4, 1, 4, .ro, 0x0, 0xffff, .any, .t0, 0, 1, 127⟩,
  ⟨0x20000c, 1, 4, 1, 4, .ro, 0x0, 0x1ffffff, .any, .t0, 0, 1, 127⟩,
  ⟨0x200010, 1, 4, 1, 4, .ro, 0x0, 0x1fffffff, .any, .t0, 0, 1, 127⟩,
  ⟨0x200014, 1, 4, 1, 4, .ro, 0x0, 0x1fffffff, .t0, .t0, 0, 1, 127⟩,
  ⟨0x200018, 1, 4, 1, 4, .ro, 0x0, 0xffffffff, .t0, .t0, 0, 1, 127⟩,
  ⟨0x201000, 64, 4, 1, 4, .rwl, 0x80000, 0xfffff, .any, .t0, 0, 1, 127⟩,
  ⟨0x201100, 64, 4, 1, 4, .ro, 0x0, 0xfffff, .any, .t0, 0, 1, 127⟩]

/-- All registers of the SQ block. -/
def regsSQ : List RegRow := regsSQ0

/-- Registers of the QY block. -/
def regsQY0 : List RegRow := [
  ⟨0x300000, 1, 4, 1, 4, .ro, 0x2003, 0xffffffff, .any, .t0, 0, 1, 127⟩,
  ⟨0x300004, 1, 4, 1, 4, .ro, 0x0, 0xff0f, .any, .t0, 0, 1, 127⟩,
  ⟨0x300008, 1, 4, 1, 4, .rw, 0x0, 0x1ff0f, .any, .t0, 0, 1, 127⟩,
  ⟨0x300100, 64, 4, 1, 4, .w1c, 0x0, 0x1f, .own, .own, 0, 1, 127⟩,
  ⟨0x301000, 1, 4, 1, 4, .ro, 0x3f201080, 0xffffffff, .any, .t0, 0, 1, 127⟩,
  ⟨0x301004, 1, 4, 1, 4, .ro, 0x34010, 0xffffffff, .any, .t0, 0, 1, 127⟩]

/-- All registers of the QY block. -/
def regsQY : List RegRow := regsQY0

/-- Registers of the BR block. -/
def regsBR0 : List RegRow := [
  ⟨0x402000, 1, 4, 1, 4, .ro, 0x2b41088, 0xffffffff, .any, .t0, 0, 1, 127⟩,
  ⟨0x402004, 1, 4, 1, 4, .ro, 0x0, 0x1f, .t0, .t0, 0, 1, 127⟩,
  ⟨0x402100, 64, 32, 1, 4, .ro, 0xfff00, 0xffffffff, .own, .t0, 0, 1, 127⟩,
  ⟨0x402104, 64, 32, 1, 4, .ro, 0x0, 0xffffffff, .own, .t0, 0, 1, 127⟩,
  ⟨0x402108, 64, 32, 1, 4, .ro, 0x0, 0xffffffff, .own, .t0, 0, 1, 127⟩,
  ⟨0x40210c, 64, 32, 1, 4, .ro, 0x0, 0xffffffff, .own, .t0, 0, 1, 127⟩,
  ⟨0x402110, 64, 32, 1, 4, .ro, 0x0, 0xffffffff, .own, .t0, 0, 1, 127⟩,
  ⟨0x402114, 64, 32, 1, 4, .ro, 0x0, 0xffffffff, .own, .t0, 0, 1, 127⟩,
  ⟨0x402118, 64, 32, 1, 4, .ro, 0x0, 0xffffffff, .own, .t0, 0, 1, 127⟩,
  ⟨0x40211c, 64, 32, 1, 4, .ro, 0x0, 0xffffffff, .own, .t0, 0, 1, 127⟩]

/-- All registers of the BR block. -/
def regsBR : List RegRow := regsBR0

/-- Registers of the CR block. -/
def regsCR0 : List RegRow := [
  ⟨0x500000, 1, 4, 1, 4, .ro, 0x0, 0x1fff, .any, .t0, 0, 1, 127⟩,
  ⟨0x500020, 5, 4, 1, 4, .ro, 0x0, 0xffff, .any, .t0, 0, 1, 127⟩,
  ⟨0x500040, 1, 4, 1, 4, .ro, 0x566, 0xffff, .any, .t0, 0, 1, 127⟩,
  ⟨0x500044, 1, 4, 1, 4, .ro, 0x1f, 0xffff, .any, .t0, 0, 1, 127⟩,
  ⟨0x500048, 1, 4, 1, 4, .ro, 0x1f, 0xffff, .any, .t0, 0, 1, 127⟩,
  ⟨0x50004c, 1, 4, 1, 4, .ro, 0xe6, 0xffff, .any, .t0, 0, 1, 127⟩,
  ⟨0x500050, 1, 4, 1, 4, .ro, 0x12, 0xffff, .any, .t0, 0, 1, 127⟩,
  ⟨0x500100, 64, 32, 5, 4, .rwl, 0x0, 0xffff, .own, .t0, 0, 1, 127⟩,
  ⟨0x502000, 255, 4, 1, 4, .ro, 0x0, 0xf3, .special, .t0, 0, 1, 127⟩]

/-- All registers of the CR block. -/
def regsCR : List RegRow := regsCR0

/-- Registers of the TM block. -/
def regsTM0 : List RegRow := [
  ⟨0x600000, 1, 4, 1, 4, .rw, 0x1, 0x1, .any, .t0, 0, 1, 127⟩,
  ⟨0x600004, 1, 4, 1, 4, .rw, 0x200, 0xffff, .any, .t0, 0, 1, 127⟩,
  ⟨0x600008, 1, 4, 1, 4, .rw, 0x18, 0xff, .any, .t0, 0, 1, 127⟩,
  ⟨0x60000c, 1, 4, 1, 4, .rw, 0x4, 0xff, .any, .t0, 0, 1, 127⟩,
  ⟨0x600010, 1, 4, 1, 4, .ro, 0x0, 0xffff0001, .any, .t0, 0, 1, 127⟩,
  ⟨0x600100, 64, 4, 1, 4, .rwl, 0x0, 0x3ffff, .any, .t0, 0, 1, 127⟩,
  ⟨0x600200, 64, 4, 1, 4, .ro, 0x0, 0x3ffff, .any, .t0, 0, 1, 127⟩,
  ⟨0x601000, 1, 4, 1, 4, .rw, 0x0, 0xffffffff, .any, .t0, 0, 1, 127⟩,
  ⟨0x601004, 1, 4, 1, 4, .rw, 0x0, 0x3ffffff, .any, .t0, 0, 1, 127⟩,
  ⟨0x601008, 1, 4, 1, 4, .ro, 0x0, 0x1ff03, .t0, .t0, 0, 1, 127⟩]

/-- All registers of the TM block. -/
def regsTM : List RegRow := regsTM0

/-- Registers of the DM block. -/
def regsDM0 : List RegRow := [
  ⟨0x700000, 1, 4, 1, 4, .ro, 0xff00, 0xff33, .t0, .t0, 0, 1, 15⟩,
  ⟨0x700004, 1, 4, 1, 4, .ro, 0x3f000, 0x3ffff, .t0, .t0, 0, 1, 15⟩,
  ⟨0x700008, 1, 4, 1, 4, .ro, 0x3f000, 0x3ffff, .t0, .t0, 0, 1, 15⟩,
  ⟨0x70000c, 1, 4, 1, 4, .ro, 0x0, 0xffffffff, .t0, .t0, 0, 1, 15⟩,
  ⟨0x700010, 1, 4, 1, 4, .ro, 0x0, 0xffff, .t0, .t0, 0, 1, 15⟩,
  ⟨0x700014, 1, 4, 1, 4, .ro, 0x0, 0x3ffff, .t0, .t0, 0, 1, 15⟩,
  ⟨0x700018, 1, 4, 1, 4, .ro, 0x0, 0xffffffff, .t0, .t0, 0, 1, 15⟩,
  ⟨0x70001c, 1, 4, 1, 4, .ro, 0x0, 0x3ffffff, .t0, .t0, 0, 1, 15⟩,
  ⟨0x700020, 1, 4, 1, 4, .ro, 0x0, 0xffffffff, .t0, .t0, 0, 2, 15⟩,
  ⟨0x700024, 1, 4, 1, 4, .ro, 0x0, 0xffffffff, .t0, .t0, 1, 2, 15⟩]

/-- All registers of the DM block. -/
def regsDM : List RegRow := regsDM0

/-- Registers of the FL block. -/
def regsFL0 : List RegRow := [
  ⟨0x800000, 1, 4, 1, 4, .ro, 0x0, 0x3f, .any, .t0, 0, 1, 127⟩,
  ⟨0x800004, 1, 4, 1, 4, .ro, 0x380000, 0x7fffff, .any, .t0, 0, 1, 127⟩,
  ⟨0x800008, 1, 4, 1, 4, .ro, 0x0, 0xffffffff, .t0, .t0, 0, 1, 127⟩,
  ⟨0x80000c, 1, 4, 1, 4, .ro, 0x0, 0x1ffff, .t0, .t0, 0, 1, 127⟩,
  ⟨0x800014, 1, 4, 1, 4, .ro, 0x0, 0xffffffff, .t0, .t0, 0, 1, 127⟩,
  ⟨0x800018, 1, 4, 1, 4, .ro, 0x0, 0xffffffff, .t0, .t0, 0, 1, 127⟩,
  ⟨0x80001c, 1, 4, 1, 4, .ro, 0x0, 0x3fff, .t0, .t0, 0, 1, 127⟩,
  ⟨0x800020, 1, 4, 1, 4, .ro, 0x8000, 0xffff, .t0, .t0, 0, 1, 127⟩,
  ⟨0x800024, 1, 4, 1, 4, .ro, 0x0, 0x1ff, .t0, .t0, 0, 1, 127⟩,
  ⟨0x800028, 1, 4, 1, 4, .ro, 0x0, 0xffffffff, .t0, .t0, 0, 1, 127⟩,
  ⟨0x80002c, 1, 4, 1, 4, .ro, 0x0, 0xffffffff, .t0, .t0, 0, 1, 127⟩,
  ⟨0x800010, 1, 4, 1, 4, .rwl, 0xea60, 0xffff, .t0, .t0, 0, 1, 127⟩]

/-- All registers of the FL block. -/
def regsFL : List RegRow := regsFL0

/-- Registers of the LH block. -/
def regsLH0 : List RegRow := [
  ⟨0x900000, 1, 4, 1, 4, .ro, 0x0, 0xf, .any, .t0, 0, 1, 127⟩,
  ⟨0x900004, 1, 4, 1, 4, .ro, 0x0, 0xffffffff, .t0, .t0, 0, 1, 127⟩,
  ⟨0x900010, 1, 4, 1, 4, .rw, 0xa01, 0x3f01, .any, .special, 0, 1, 127⟩,
  ⟨0x900014, 1, 4, 1, 4, .rwl, 0x0, 0x13f, .t0, .t0, 0, 1, 127⟩,
  ⟨0x900018, 1, 4, 1, 4, .ro, 0x0, 0x3fffffff, .special, .t0, 0, 1, 127⟩,
  ⟨0x90001c, 1, 4, 1, 4, .ro, 0x0, 0xffffffff, .t0, .t0, 0, 1, 127⟩,
  ⟨0x900020, 1, 4, 1, 4, .ro, 0x0, 0xffffffff, .special, .t0, 0, 2, 127⟩,
  ⟨0x900024, 1, 4, 1, 4, .ro, 0x0, 0xffffffff, .special, .t0, 1, 2, 127⟩,
  ⟨0x900030, 1, 4, 1, 4, .rw, 0x3, 0x3, .t0, .t0, 0, 1, 127⟩,
  ⟨0x900100, 8, 16, 1, 4, .rw, 0x0, 0x3f7f, .special, .t0, 0, 1, 127⟩,
  ⟨0x900104, 8, 16, 1, 4, .rw, 0x0, 0x3fffff80, .special, .t0, 0, 1, 127⟩,
  ⟨0x900108, 8, 16, 1, 4, .rw, 0x0, 0xffffffff, .special, .t0, 0, 1, 127⟩,
  ⟨0x90010c, 8, 16, 1, 4, .ro, 0x0, 0xffffffff, .special, .t0, 0, 1, 127⟩,
  ⟨0x900200, 1, 4, 1, 4, .rw, 0xa00, 0xffff01, .t0, .t0, 0, 1, 127⟩,
  ⟨0x900204, 1, 4, 1, 4, .rw, 0x1000, 0xffffffff, .t0, .t0, 0, 1, 127⟩,
  ⟨0x900208, 1, 4, 1, 4, .rw, 0x0, 0xffffffff, .t0, .t0, 0, 1, 127⟩,
  ⟨0x90020c, 1, 4, 1, 4, .rw, 0x8, 0xffffffff, .t0, .t0, 0, 1, 127⟩,
  ⟨0x900210, 1, 4, 1, 4, .ro, 0x0, 0xffffffff, .t0, .t0, 0, 1, 127⟩,
  ⟨0x900300, 1, 4, 1, 4, .rw, 0x0, 0xffffffff, .any, .t0, 0, 2, 127⟩,
  ⟨0x900304, 1, 4, 1, 4, .rw, 0x0, 0xffffffff, .any, .t0, 1, 2, 127⟩,
  ⟨0x900308, 1, 4, 1, 4, .rw, 0x0, 0xffffffff, .t0, .t0, 0, 2, 127⟩,
  ⟨0x90030c, 1, 4, 1, 4, .rw, 0x0, 0xffffffff, .t0, .t0, 1, 2, 127⟩,
  ⟨0x900310, 1, 4, 1, 4, .rw, 0x0, 0xffffffff, .t0, .t0, 0, 1, 127⟩,
  ⟨0x900314, 1, 4, 1, 4, .rw, 0x0, 0xffff, .t0, .t0, 0, 1, 127⟩,
  ⟨0x900400, 1, 4, 1, 4, .rw, 0x1000100, 0x3ff77ff, .t0, .t0, 0, 1, 127⟩,
  ⟨0x900404, 8, 4, 1, 4, .rw, 0x0, 0xf, .t0, .t0, 0, 1, 127⟩,
  ⟨0x900430, 1, 4, 1, 4, .ro, 0x0, 0xffffffff, .t0, .t0, 0, 1, 127⟩,
  ⟨0x900440, 8, 4, 1, 4, .rw, 0x0, 0xffffffff, .t0, .t0, 0, 1, 127⟩,
  ⟨0x900500, 8, 4, 1, 4, .rw, 0x0, 0xff0f, .t0, .t0, 0, 1, 127⟩,
  ⟨0x900600, 2, 256, 1, 4, .rw, 0x0, 0xffffff, .special, .t0, 0, 1, 127⟩,
  ⟨0x900604, 2, 256, 1, 4, .rw, 0x0, 0x3, .special, .special, 0, 1, 127⟩,
  ⟨0x900608, 2, 256, 1, 4, .rwl, 0x0, 0x3f, .special, .t0, 0, 1, 127⟩,
  ⟨0x900680, 2, 256, 32, 4, .rw, 0x0, 0x1ffff, .special, .special, 0, 1, 127⟩,
  ⟨0x900800, 1, 4, 1, 4, .rw, 0x14, 0xff, .t0, .t0, 0, 1, 127⟩,
  ⟨0x900900, 1, 4, 1, 4, .ro, 0x0, 0xffffffff, .t0, .t0, 0, 2, 127⟩,
  ⟨0x900904, 1, 4, 1, 4, .ro, 0x0, 0xffffffff, .t0, .t0, 1, 2, 127⟩,
  ⟨0x900908, 1, 4, 1, 4, .w1c, 0x0, 0x9ffe, .t0, .t0, 0, 1, 127⟩,
  ⟨0x90090c, 1, 4, 1, 4, .ro, 0x0, 0xffffffff, .t0, .t0, 0, 1, 127⟩,
  ⟨0x900910, 1, 4, 1, 4, .rw, 0x0, 0x9ffe, .t0, .t0, 0, 1, 127⟩,
  ⟨0x900a00, 1, 4, 1, 4, .rwl, 0x0, 0xffffffff, .t0, .t0, 0, 2, 127⟩]

/-- Registers of the LH block. -/
def regsLH1 : List RegRow := [
  ⟨0x900a04, 1, 4, 1, 4, .rwl, 0x0, 0xffffffff, .t0, .t0, 1, 2, 127⟩,
  ⟨0x901000, 64, 4, 1, 4, .rwl, 0x0, 0x3f, .special, .t0, 0, 1, 127⟩]

/-- All registers of the LH block. -/
def regsLH : List RegRow := regsLH0 ++ regsLH1

/-- Registers of the AU block. -/
def regsAU0 : List RegRow := [
  ⟨0x980000, 1, 4, 1, 4, .rw, 0x0, 0x7f, .t0, .t0, 0, 1, 25⟩,
  ⟨0x980004, 1, 4, 1, 4, .wo, 0x0, 0x3, .t0, .t0, 0, 1, 25⟩,
  ⟨0x980008, 1, 4, 1, 4, .ro, 0x0, 0xf, .t0, .t0, 0, 1, 25⟩,
  ⟨0x98000c, 1, 4, 1, 4, .ro, 0x0, 0xffffffff, .t0, .t0, 0, 1, 25⟩,
  ⟨0x980100, 8, 32, 1, 4, .rwl, 0x0, 0x3f, .special, .t0, 0, 1, 25⟩,
  ⟨0x980104, 8, 32, 1, 4, .rw, 0x0, 0xffffffc3, .special, .t0, 0, 1, 25⟩,
  ⟨0x980108, 8, 32, 1, 4, .rw, 0x0, 0x3ffff, .special, .special, 0, 1, 25⟩,
  ⟨0x98010c, 8, 32, 1, 4, .ro, 0x0, 0x3ffff, .special, .t0, 0, 1, 25⟩,
  ⟨0x980110, 8, 32, 1, 4, .ro, 0x0, 0xffff, .special, .t0, 0, 1, 25⟩,
  ⟨0x981000, 128, 4, 1, 4, .ro, 0x0, 0xffff, .t0, .t0, 0, 1, 25⟩,
  ⟨0x981200, 128, 4, 1, 4, .rw, 0x0, 0xffff, .t0, .t0, 0, 1, 25⟩]

/-- All registers of the AU block. -/
def regsAU : List RegRow := regsAU0

/-- Registers of the CM block. -/
def regsCM0 : List RegRow := [
  ⟨0xa00000, 1, 4, 1, 4, .rw, 0x0, 0xfff0073, .any, .t0, 0, 1, 22⟩,
  ⟨0xa00004, 1, 4, 1, 4, .ro, 0x1, 0x7, .any, .t0, 0, 1, 22⟩,
  ⟨0xa00008, 1, 4, 1, 4, .ro, 0x0, 0xffffffff, .any, .t0, 0, 1, 22⟩,
  ⟨0xa00100, 1, 4, 1, 4, .rw, 0x0, 0xfff0073, .any, .t0, 0, 1, 23⟩,
  ⟨0xa00104, 1, 4, 1, 4, .ro, 0x1, 0x7, .any, .t0, 0, 1, 23⟩,
  ⟨0xa00108, 1, 4, 1, 4, .ro, 0x0, 0xffffffff, .any, .t0, 0, 1, 23⟩,
  ⟨0xa01000, 8, 64, 1, 4, .rw, 0x0, 0xff, .special, .special, 0, 1, 127⟩,
  ⟨0xa01004, 8, 64, 1, 4, .rw, 0x10040, 0x1fff7fff, .special, .special, 0, 1, 127⟩,
  ⟨0xa01008, 8, 64, 1, 4, .rw, 0x0, 0xffffffff, .special, .special, 0, 1, 127⟩,
  ⟨0xa0100c, 8, 64, 1, 4, .rw, 0x0, 0xffffffff, .special, .special, 0, 1, 127⟩,
  ⟨0xa01010, 8, 64, 1, 4, .wo, 0x0, 0x1, .special, .special, 0, 1, 127⟩,
  ⟨0xa01014, 8, 64, 1, 4, .ro, 0x0, 0xffffffff, .special, .t0, 0, 1, 127⟩,
  ⟨0xa01018, 8, 64, 1, 4, .ro, 0x0, 0xffffffff, .special, .t0, 0, 1, 127⟩,
  ⟨0xa0101c, 8, 64, 1, 4, .ro, 0x0, 0xffffffff, .special, .t0, 0, 1, 127⟩,
  ⟨0xa01020, 8, 64, 1, 4, .ro, 0x0, 0x7, .special, .t0, 0, 1, 127⟩,
  ⟨0xa01024, 8, 64, 1, 4, .ro, 0x0, 0xffffffff, .special, .t0, 0, 1, 127⟩]

/-- All registers of the CM block. -/
def regsCM : List RegRow := regsCM0

/-- Registers of the SN block. -/
def regsSN0 : List RegRow := [
  ⟨0xb00000, 1, 4, 1, 4, .ro, 0x0, 0xffffffff, .any, .t0, 0, 2, 127⟩,
  ⟨0xb00004, 1, 4, 1, 4, .ro, 0x0, 0xffffffff, .any, .t0, 1, 2, 127⟩,
  ⟨0xb00008, 1, 4, 1, 4, .ro, 0x0, 0x1, .any, .t0, 0, 1, 127⟩,
  ⟨0xb00100, 48, 32, 1, 4, .ro, 0x0, 0xffffffff, .special, .t0, 0, 1, 127⟩,
  ⟨0xb00104, 48, 32, 1, 4, .ro, 0x0, 0xffffffff, .special, .t0, 0, 1, 127⟩,
  ⟨0xb00108, 48, 32, 1, 4, .ro, 0x0, 0xffff, .special, .t0, 0, 1, 127⟩,
  ⟨0xb0010c, 48, 32, 1, 4, .ro, 0x0, 0xffffffff, .special, .t0, 0, 1, 127⟩,
  ⟨0xb00110, 48, 32, 1, 4, .ro, 0x0, 0xffff, .special, .t0, 0, 1, 127⟩,
  ⟨0xb00114, 48, 32, 1, 4, .ro, 0x0, 0xffffffff, .special, .t0, 0, 1, 127⟩,
  ⟨0xb00118, 48, 32, 1, 4, .rw, 0x0, 0xff, .special, .special, 0, 1, 127⟩,
  ⟨0xb0011c, 48, 32, 1, 4, .wo, 0x0, 0x1, .special, .special, 0, 1, 127⟩,
  ⟨0xb01000, 2, 256, 1, 4, .rw, 0x0, 0xff03, .any, .t0, 0, 1, 127⟩,
  ⟨0xb01010, 2, 256, 11, 4, .rw, 0x0, 0x1f7007f, .any, .t0, 0, 1, 127⟩,
  ⟨0xb01800, 2, 256, 1, 4, .rw, 0x4, 0xffff, .any, .t0, 0, 1, 127⟩,
  ⟨0xb02000, 16, 256, 1, 4, .rw, 0x0, 0x3f3f, .special, .special, 0, 1, 127⟩,
  ⟨0xb02004, 16, 256, 1, 4, .rw, 0xf00, 0xffffffff, .special, .special, 0, 1, 127⟩,
  ⟨0xb02008, 16, 256, 1, 4, .rw, 0x0, 0xffffffff, .special, .special, 0, 1, 127⟩,
  ⟨0xb0200c, 16, 256, 1, 4, .rw, 0x0, 0xffffffff, .special, .special, 0, 1, 127⟩,
  ⟨0xb02010, 16, 256, 1, 4, .wo, 0x0, 0x7, .special, .special, 0, 1, 127⟩,
  ⟨0xb02040, 16, 256, 16, 8, .rw, 0x0, 0xffffffff, .special, .special, 0, 2, 127⟩,
  ⟨0xb02044, 16, 256, 16, 8, .rw, 0x0, 0xffffffff, .special, .special, 1, 2, 127⟩,
  ⟨0xb03000, 4, 64, 1, 4, .rw, 0x0, 0x3f03ff, .special, .special, 0, 1, 127⟩,
  ⟨0xb03004, 4, 64, 1, 4, .ro, 0x0, 0xffffffff, .special, .t0, 0, 1, 127⟩,
  ⟨0xb03008, 4, 64, 1, 4, .rw, 0x12c0, 0xffffffff, .special, .special, 0, 1, 127⟩,
  ⟨0xb0300c, 4, 64, 1, 4, .rw, 0x0, 0xffffffff, .special, .special, 0, 1, 127⟩]

/-- All registers of the SN block. -/
def regsSN : List RegRow := regsSN0

/-- Registers of the FU block. -/
def regsFU0 : List RegRow := [
  ⟨0xc00000, 1, 4, 1, 4, .rw, 0x0, 0x1, .special, .t0, 0, 1, 24⟩,
  ⟨0xc00004, 1, 4, 1, 4, .ro, 0x4, 0x7f, .special, .t0, 0, 1, 24⟩,
  ⟨0xc00008, 1, 4, 1, 4, .rwl, 0x0, 0x3f, .special, .t0, 0, 1, 24⟩,
  ⟨0xc0000c, 1, 4, 1, 4, .ro, 0xffffffff, 0xffffffff, .special, .t0, 0, 1, 24⟩,
  ⟨0xc00010, 1, 4, 1, 4, .rw, 0x9600, 0xffffffff, .special, .t0, 0, 1, 24⟩,
  ⟨0xc00014, 1, 4, 1, 4, .rw, 0x0, 0xffffffff, .special, .t0, 0, 1, 24⟩,
  ⟨0xc00018, 1, 4, 1, 4, .rw, 0x2ee00, 0xffffffff, .special, .t0, 0, 1, 24⟩,
  ⟨0xc0001c, 1, 4, 1, 4, .rw, 0x10a, 0xff7f, .special, .t0, 0, 1, 24⟩,
  ⟨0xc00020, 1, 4, 1, 4, .rw, 0x64, 0xffffffff, .special, .t0, 0, 1, 24⟩,
  ⟨0xc00024, 1, 4, 1, 4, .rw, 0x16e36000, 0xffffffff, .special, .t0, 0, 1, 24⟩,
  ⟨0xc00028, 1, 4, 1, 4, .rw, 0x42480000, 0xffffffff, .special, .t0, 0, 1, 24⟩,
  ⟨0xc0002c, 1, 4, 1, 4, .rw, 0x41700000, 0xffffffff, .special, .t0, 0, 1, 24⟩,
  ⟨0xc00030, 1, 4, 1, 4, .rw, 0x411ce80a, 0xffffffff, .special, .t0, 0, 1, 24⟩,
  ⟨0xc00034, 1, 4, 1, 4, .rw, 0x3f000000, 0xffffffff, .special, .t0, 0, 1, 24⟩,
  ⟨0xc00038, 1, 4, 1, 4, .rw, 0x0, 0xffffffff, .special, .t0, 0, 1, 24⟩,
  ⟨0xc0003c, 1, 4, 1, 4, .rw, 0x0, 0xffff, .special, .t0, 0, 1, 24⟩,
  ⟨0xc00040, 1, 4, 1, 4, .ro, 0x0, 0xffffffff, .special, .t0, 0, 1, 24⟩,
  ⟨0xc00044, 1, 4, 1, 4, .ro, 0x0, 0xffffffff, .special, .t0, 0, 1, 24⟩,
  ⟨0xc01000, 16, 64, 1, 4, .rw, 0x0, 0x3f0f, .special, .t0, 0, 1, 24⟩,
  ⟨0xc01004, 16, 64, 1, 4, .rw, 0x24000, 0x1ff3ff, .special, .t0, 0, 1, 24⟩,
  ⟨0xc01008, 16, 64, 1, 4, .rw, 0x3f800000, 0xffffffff, .special, .t0, 0, 1, 24⟩,
  ⟨0xc01018, 16, 64, 1, 4, .rw, 0x41800000, 0xffffffff, .special, .t0, 0, 1, 24⟩,
  ⟨0xc0101c, 16, 64, 1, 4, .rw, 0x1008, 0xffff, .special, .t0, 0, 1, 24⟩,
  ⟨0xc01020, 16, 64, 1, 4, .rw, 0x3a9800, 0xffffffff, .special, .t0, 0, 1, 24⟩,
  ⟨0xc01024, 16, 64, 1, 4, .rw, 0x249f000, 0xffffffff, .special, .t0, 0, 1, 24⟩,
  ⟨0xc01028, 16, 64, 1, 4, .rw, 0x0, 0xffffffff, .special, .t0, 0, 1, 24⟩,
  ⟨0xc0102c, 16, 64, 1, 4, .rw, 0x0, 0xffffffff, .special, .t0, 0, 1, 24⟩,
  ⟨0xc01030, 16, 64, 1, 4, .rw, 0x3f800000, 0xffffffff, .special, .t0, 0, 1, 24⟩,
  ⟨0xc0100c, 16, 64, 3, 4, .rw, 0x0, 0xffffffff, .special, .t0, 0, 1, 24⟩,
  ⟨0xc01034, 16, 64, 1, 4, .rw, 0x0, 0x1, .special, .special, 0, 1, 24⟩,
  ⟨0xc01038, 16, 64, 1, 4, .ro, 0x0, 0xffffffff, .special, .t0, 0, 1, 24⟩,
  ⟨0xc0103c, 16, 64, 1, 4, .ro, 0x0, 0x3ffff, .special, .t0, 0, 1, 24⟩]

/-- All registers of the FU block. -/
def regsFU : List RegRow := regsFU0

/-- Registers of the PM block. -/
def regsPM0 : List RegRow := [
  ⟨0xd00000, 1, 4, 1, 4, .ro, 0x0, 0xf, .t0, .t0, 0, 1, 127⟩,
  ⟨0xd00010, 6, 4, 1, 4, .ro, 0x0, 0xffffffff, .t0, .t0, 0, 1, 127⟩,
  ⟨0xd00030, 1, 4, 1, 4, .ro, 0x4, 0x137, .t0, .t0, 0, 1, 127⟩,
  ⟨0xd00040, 1, 4, 1, 4, .rw, 0x0, 0x7ffffff, .t0, .t0, 0, 1, 127⟩,
  ⟨0xd00044, 1, 4, 1, 4, .rw, 0x0, 0xffffffff, .t0, .t0, 0, 1, 127⟩,
  ⟨0xd00048, 1, 4, 1, 4, .rw, 0x0, 0xffffffff, .t0, .t0, 0, 1, 127⟩,
  ⟨0xd00050, 1, 4, 1, 4, .rw, 0x0, 0xff, .t0, .t0, 0, 1, 127⟩,
  ⟨0xd00054, 1, 4, 1, 4, .ro, 0x0, 0x1ffff, .t0, .t0, 0, 1, 127⟩,
  ⟨0xd00058, 1, 4, 1, 4, .ro, 0x0, 0xffffffff, .t0, .t0, 0, 1, 127⟩,
  ⟨0xd00060, 1, 4, 1, 4, .rw, 0x0, 0x3, .t0, .t0, 0, 1, 127⟩,
  ⟨0xd00070, 3, 4, 1, 4, .ro, 0x0, 0xffffffff, .t0, .t0, 0, 1, 127⟩,
  ⟨0xd00080, 3, 4, 1, 4, .ro, 0x0, 0xffffffff, .t0, .t0, 0, 1, 127⟩,
  ⟨0xd00100, 32, 8, 1, 4, .ro, 0x0, 0xffffffff, .t0, .t0, 0, 1, 127⟩,
  ⟨0xd00104, 32, 8, 1, 4, .ro, 0x0, 0xffffffff, .t0, .t0, 0, 1, 127⟩]

/-- All registers of the PM block. -/
def regsPM : List RegRow := regsPM0

/-- Registers of the PD block. -/
def regsPD0 : List RegRow := [
  ⟨0xe00000, 1, 4, 1, 4, .ro, 0x5000, 0x7fff, .t0, .t0, 0, 1, 127⟩,
  ⟨0xe00004, 1, 4, 1, 4, .rwl, 0x5dc, 0xffffffff, .t0, .t0, 0, 1, 127⟩,
  ⟨0xe00008, 1, 4, 1, 4, .rwl, 0x2328, 0xffffffff, .t0, .t0, 0, 1, 127⟩,
  ⟨0xe0000c, 1, 4, 1, 4, .rwl, 0x22375, 0x77777, .t0, .t0, 0, 1, 127⟩,
  ⟨0xe00010, 1, 4, 1, 4, .ro, 0x0, 0xffffffff, .t0, .t0, 0, 1, 127⟩,
  ⟨0xe00020, 1, 4, 1, 4, .rwl, 0x16, 0xffffffff, .t0, .t0, 0, 1, 127⟩,
  ⟨0xe00024, 1, 4, 1, 4, .rwl, 0x1194, 0xffffffff, .t0, .t0, 0, 1, 127⟩,
  ⟨0xe00028, 1, 4, 1, 4, .rwl, 0xc8, 0xffffffff, .t0, .t0, 0, 1, 127⟩,
  ⟨0xe0002c, 1, 4, 1, 4, .rwl, 0x32, 0xffffffff, .t0, .t0, 0, 1, 127⟩,
  ⟨0xe00030, 1, 4, 1, 4, .rwl, 0x19, 0xffffffff, .t0, .t0, 0, 1, 127⟩,
  ⟨0xe00034, 1, 4, 1, 4, .ro, 0x0, 0xffffffff, .t0, .t0, 0, 1, 127⟩,
  ⟨0xe00038, 1, 4, 1, 4, .ro, 0x0, 0xffffffff, .t0, .t0, 0, 1, 127⟩,
  ⟨0xe00040, 1, 4, 1, 4, .ro, 0x0, 0xffffffff, .t0, .t0, 0, 1, 127⟩,
  ⟨0xe00044, 1, 4, 1, 4, .rwl, 0xd7a, 0xffffffff, .t0, .t0, 0, 1, 127⟩,
  ⟨0xe00048, 1, 4, 1, 4, .rwl, 0xce4, 0xffffffff, .t0, .t0, 0, 1, 127⟩,
  ⟨0xe0004c, 1, 4, 1, 4, .rwl, 0xc4e, 0xffffffff, .t0, .t0, 0, 1, 127⟩,
  ⟨0xe00050, 1, 4, 1, 4, .rwl, 0xb86, 0xffffffff, .t0, .t0, 0, 1, 127⟩,
  ⟨0xe00060, 1, 4, 1, 4, .ro, 0x0, 0xffffffff, .t0, .t0, 0, 1, 127⟩,
  ⟨0xe00064, 1, 4, 1, 4, .ro, 0x0, 0xffffffff, .t0, .t0, 0, 1, 127⟩,
  ⟨0xe00068, 1, 4, 1, 4, .rwl, 0x19a, 0xffffffff, .t0, .t0, 0, 1, 127⟩,
  ⟨0xe0006c, 1, 4, 1, 4, .rwl, 0x640d6b, 0xffffffff, .t0, .t0, 0, 1, 127⟩,
  ⟨0xe00070, 1, 4, 1, 4, .ro, 0x0, 0xffffffff, .t0, .t0, 0, 1, 127⟩,
  ⟨0xe00074, 1, 4, 1, 4, .ro, 0x0, 0xffffffff, .t0, .t0, 0, 1, 127⟩,
  ⟨0xe00078, 1, 4, 1, 4, .ro, 0x0, 0xffffffff, .t0, .t0, 0, 1, 127⟩,
  ⟨0xe00084, 1, 4, 1, 4, .ro, 0x0, 0xffffffff, .t0, .t0, 0, 1, 127⟩,
  ⟨0xe00088, 1, 4, 1, 4, .ro, 0x0, 0xffffffff, .t0, .t0, 0, 1, 127⟩,
  ⟨0xe0008c, 1, 4, 1, 4, .ro, 0x0, 0xffffffff, .t0, .t0, 0, 1, 127⟩,
  ⟨0xe0007c, 1, 4, 1, 4, .ro, 0x0, 0xffffffff, .t0, .t0, 0, 2, 127⟩,
  ⟨0xe00080, 1, 4, 1, 4, .ro, 0x0, 0xffffffff, .t0, .t0, 1, 2, 127⟩,
  ⟨0xe00100, 7, 16, 1, 4, .ro, 0xfff, 0xfff, .t0, .t0, 0, 4, 127⟩,
  ⟨0xe00104, 7, 16, 1, 4, .ro, 0x0, 0xffffffff, .t0, .t0, 1, 4, 127⟩,
  ⟨0xe00108, 7, 16, 1, 4, .ro, 0x0, 0xffff, .t0, .t0, 2, 4, 127⟩,
  ⟨0xe0010c, 7, 16, 1, 4, .ro, 0x0, 0xffffffff, .t0, .t0, 3, 4, 127⟩,
  ⟨0xe00200, 16, 4, 1, 4, .ro, 0x0, 0xffffffff, .t0, .t0, 0, 1, 127⟩]

/-- All registers of the PD block. -/
def regsPD : List RegRow := regsPD0

/-- Registers of the HM block. -/
def regsHM0 : List RegRow := [
  ⟨0xf00000, 1, 4, 1, 4, .ro, 0x0, 0xf, .any, .t0, 0, 1, 26⟩,
  ⟨0xf00004, 1, 4, 1, 4, .rwl, 0x0, 0x3f, .t0, .t0, 0, 1, 26⟩,
  ⟨0xf00008, 1, 4, 1, 4, .wo, 0x0, 0xfffff, .t0, .t0, 0, 1, 26⟩,
  ⟨0xf0000c, 1, 4, 1, 4, .ro, 0x0, 0xfffff, .t0, .t0, 0, 1, 26⟩,
  ⟨0xf00010, 1, 4, 1, 4, .ro, 0x0, 0xffffffff, .t0, .t0, 0, 1, 26⟩,
  ⟨0xf00014, 1, 4, 1, 4, .ro, 0x0, 0xffffffff, .t0, .t0, 0, 1, 26⟩,
  ⟨0xf00018, 1, 4, 1, 4, .ro, 0x0, 0xffffffff, .t0, .t0, 0, 1, 26⟩,
  ⟨0xf0001c, 1, 4, 1, 4, .ro, 0x0, 0xffffffff, .t0, .t0, 0, 1, 26⟩,
  ⟨0xf00020, 1, 4, 1, 4, .ro, 0x0, 0xffffffff, .any, .t0, 0, 4, 26⟩,
  ⟨0xf00024, 1, 4, 1, 4, .ro, 0x0, 0xffffffff, .any, .t0, 1, 4, 26⟩,
  ⟨0xf00028, 1, 4, 1, 4, .ro, 0x0, 0xffffffff, .any, .t0, 2, 4, 26⟩,
  ⟨0xf0002c, 1, 4, 1, 4, .ro, 0x0, 0xffffffff, .any, .t0, 3, 4, 26⟩,
  ⟨0xf00030, 1, 4, 1, 4, .ro, 0x1, 0xffffffff, .any, .t0, 0, 2, 26⟩,
  ⟨0xf00034, 1, 4, 1, 4, .ro, 0x0, 0xffffffff, .any, .t0, 1, 2, 26⟩,
  ⟨0xf00100, 64, 4, 1, 4, .ro, 0x0, 0x7, .t0, .t0, 0, 1, 26⟩,
  ⟨0xf00200, 64, 4, 1, 4, .rwl, 0x0, 0xffff, .t0, .t0, 0, 1, 26⟩,
  ⟨0xf00300, 64, 4, 1, 4, .rwl, 0x2, 0x3, .own, .t0, 0, 1, 26⟩]

/-- All registers of the HM block. -/
def regsHM : List RegRow := regsHM0

/-- Registers of the CH block. -/
def regsCH0 : List RegRow := [
  ⟨0x1000000, 1, 4, 1, 4, .ro, 0x10000, 0xffffffff, .any, .t0, 0, 1, 127⟩,
  ⟨0x1000004, 1, 4, 1, 4, .ro, 0x0, 0x1ffff, .any, .t0, 0, 1, 127⟩,
  ⟨0x1000008, 1, 4, 1, 4, .ro, 0x0, 0xffffffff, .any, .t0, 0, 2, 127⟩,
  ⟨0x100000c, 1, 4, 1, 4, .ro, 0x0, 0xffffffff, .any, .t0, 1, 2, 127⟩,
  ⟨0x1000010, 1, 4, 1, 4, .ro, 0x0, 0xffffffff, .any, .t0, 0, 2, 127⟩,
  ⟨0x1000014, 1, 4, 1, 4, .ro, 0x0, 0xffffffff, .any, .t0, 1, 2, 127⟩,
  ⟨0x1000018, 1, 4, 1, 4, .ro, 0x0, 0xffffffff, .t0, .t0, 0, 1, 127⟩,
  ⟨0x100001c, 1, 4, 1, 4, .ro, 0x0, 0xffffffff, .t0, .t0, 0, 1, 127⟩,
  ⟨0x1000020, 1, 4, 1, 4, .rwl, 0x0, 0xffffffff, .t0, .t0, 0, 4, 127⟩,
  ⟨0x1000024, 1, 4, 1, 4, .rwl, 0x0, 0xffffffff, .t0, .t0, 1, 4, 127⟩,
  ⟨0x1000028, 1, 4, 1, 4, .rwl, 0x0, 0xffffffff, .t0, .t0, 2, 4, 127⟩,
  ⟨0x100002c, 1, 4, 1, 4, .rwl, 0x0, 0xffffffff, .t0, .t0, 3, 4, 127⟩,
  ⟨0x1000100, 1, 4, 1, 4, .rw, 0x1, 0x7, .t0, .t0, 0, 1, 18⟩,
  ⟨0x1000104, 1, 4, 1, 4, .wo, 0x0, 0x1, .t0, .t0, 0, 1, 18⟩,
  ⟨0x1000108, 1, 4, 1, 4, .ro, 0x0, 0x7f37, .t0, .t0, 0, 1, 18⟩,
  ⟨0x100010c, 1, 4, 1, 4, .ro, 0x0, 0xffffffff, .t0, .t0, 0, 1, 18⟩,
  ⟨0x1000110, 1, 4, 1, 4, .rw, 0x1, 0x7, .t0, .t0, 0, 1, 19⟩,
  ⟨0x1000114, 1, 4, 1, 4, .wo, 0x0, 0x1, .t0, .t0, 0, 1, 19⟩,
  ⟨0x1000118, 1, 4, 1, 4, .ro, 0x0, 0x7f37, .t0, .t0, 0, 1, 19⟩,
  ⟨0x100011c, 1, 4, 1, 4, .ro, 0x0, 0xffffffff, .t0, .t0, 0, 1, 19⟩,
  ⟨0x1000120, 1, 4, 1, 4, .rw, 0x1, 0x7, .t0, .t0, 0, 1, 20⟩,
  ⟨0x1000124, 1, 4, 1, 4, .wo, 0x0, 0x1, .t0, .t0, 0, 1, 20⟩,
  ⟨0x1000128, 1, 4, 1, 4, .ro, 0x0, 0x7f37, .t0, .t0, 0, 1, 20⟩,
  ⟨0x100012c, 1, 4, 1, 4, .ro, 0x0, 0xffffffff, .t0, .t0, 0, 1, 20⟩,
  ⟨0x1000130, 1, 4, 1, 4, .rw, 0x1, 0x7, .t0, .t0, 0, 1, 21⟩,
  ⟨0x1000134, 1, 4, 1, 4, .wo, 0x0, 0x1, .t0, .t0, 0, 1, 21⟩,
  ⟨0x1000138, 1, 4, 1, 4, .ro, 0x0, 0x7f37, .t0, .t0, 0, 1, 21⟩,
  ⟨0x100013c, 1, 4, 1, 4, .ro, 0x0, 0xffffffff, .t0, .t0, 0, 1, 21⟩,
  ⟨0x1000200, 2, 32, 8, 4, .ro, 0x0, 0xffffffff, .t0, .t0, 0, 1, 127⟩,
  ⟨0x1001000, 64, 16, 1, 4, .ro, 0x0, 0xffffffff, .t0, .t0, 0, 4, 127⟩,
  ⟨0x1001004, 64, 16, 1, 4, .ro, 0x0, 0xffffffff, .t0, .t0, 1, 4, 127⟩,
  ⟨0x1001008, 64, 16, 1, 4, .ro, 0x0, 0xffffffff, .t0, .t0, 2, 4, 127⟩,
  ⟨0x100100c, 64, 16, 1, 4, .ro, 0x0, 0xffffffff, .t0, .t0, 3, 4, 127⟩,
  ⟨0x1001400, 64, 4, 1, 4, .ro, 0x0, 0xffffffff, .t0, .t0, 0, 1, 127⟩,
  ⟨0x1002000, 64, 4, 1, 4, .ro, 0x0, 0xffffffff, .t0, .t0, 0, 1, 127⟩,
  ⟨0x1003000, 8, 4, 1, 4, .rw, 0x0, 0x3f3f3f01, .t0, .t0, 0, 1, 127⟩,
  ⟨0x1003100, 48, 4, 1, 4, .rw, 0x0, 0x3f3f3f01, .t0, .t0, 0, 1, 127⟩]

/-- All registers of the CH block. -/
def regsCH : List RegRow := regsCH0

/-- Registers of the DB block. -/
def regsDB0 : List RegRow := [
  ⟨0x1100000, 1, 4, 1, 4, .ro, 0x0, 0x1ff, .t0, .t0, 0, 1, 26⟩,
  ⟨0x1100004, 1, 4, 1, 4, .wo, 0x0, 0x1f, .t0, .t0, 0, 1, 26⟩,
  ⟨0x1100010, 1, 4, 1, 4, .ro, 0x0, 0xffffffff, .t0, .t0, 0, 12, 26⟩,
  ⟨0x1100014, 1, 4, 1, 4, .ro, 0x0, 0xffffffff, .t0, .t0, 1, 12, 26⟩,
  ⟨0x1100018, 1, 4, 1, 4, .ro, 0x0, 0xffffffff, .t0, .t0, 2, 12, 26⟩,
  ⟨0x110001c, 1, 4, 1, 4, .ro, 0x0, 0xffffffff, .t0, .t0, 3, 12, 26⟩,
  ⟨0x1100020, 1, 4, 1, 4, .ro, 0x0, 0xffffffff, .t0, .t0, 4, 12, 26⟩,
  ⟨0x1100024, 1, 4, 1, 4, .ro, 0x0, 0xffffffff, .t0, .t0, 5, 12, 26⟩,
  ⟨0x1100028, 1, 4, 1, 4, .ro, 0x0, 0xffffffff, .t0, .t0, 6, 12, 26⟩,
  ⟨0x110002c, 1, 4, 1, 4, .ro, 0x0, 0xffffffff, .t0, .t0, 7, 12, 26⟩,
  ⟨0x1100030, 1, 4, 1, 4, .ro, 0x0, 0xffffffff, .t0, .t0, 8, 12, 26⟩,
  ⟨0x1100034, 1, 4, 1, 4, .ro, 0x0, 0xffffffff, .t0, .t0, 9, 12, 26⟩,
  ⟨0x1100038, 1, 4, 1, 4, .ro, 0x0, 0xffffffff, .t0, .t0, 10, 12, 26⟩,
  ⟨0x110003c, 1, 4, 1, 4, .ro, 0x0, 0xffffffff, .t0, .t0, 11, 12, 26⟩,
  ⟨0x1100040, 1, 4, 1, 4, .rw, 0x0, 0xffffffff, .t0, .t0, 0, 24, 26⟩,
  ⟨0x1100044, 1, 4, 1, 4, .rw, 0x0, 0xffffffff, .t0, .t0, 1, 24, 26⟩,
  ⟨0x1100048, 1, 4, 1, 4, .rw, 0x0, 0xffffffff, .t0, .t0, 2, 24, 26⟩,
  ⟨0x110004c, 1, 4, 1, 4, .rw, 0x0, 0xffffffff, .t0, .t0, 3, 24, 26⟩,
  ⟨0x1100050, 1, 4, 1, 4, .rw, 0x0, 0xffffffff, .t0, .t0, 4, 24, 26⟩,
  ⟨0x1100054, 1, 4, 1, 4, .rw, 0x0, 0xffffffff, .t0, .t0, 5, 24, 26⟩,
  ⟨0x1100058, 1, 4, 1, 4, .rw, 0x0, 0xffffffff, .t0, .t0, 6, 24, 26⟩,
  ⟨0x110005c, 1, 4, 1, 4, .rw, 0x0, 0xffffffff, .t0, .t0, 7, 24, 26⟩,
  ⟨0x1100060, 1, 4, 1, 4, .rw, 0x0, 0xffffffff, .t0, .t0, 8, 24, 26⟩,
  ⟨0x1100064, 1, 4, 1, 4, .rw, 0x0, 0xffffffff, .t0, .t0, 9, 24, 26⟩,
  ⟨0x1100068, 1, 4, 1, 4, .rw, 0x0, 0xffffffff, .t0, .t0, 10, 24, 26⟩,
  ⟨0x110006c, 1, 4, 1, 4, .rw, 0x0, 0xffffffff, .t0, .t0, 11, 24, 26⟩,
  ⟨0x1100070, 1, 4, 1, 4, .rw, 0x0, 0xffffffff, .t0, .t0, 12, 24, 26⟩,
  ⟨0x1100074, 1, 4, 1, 4, .rw, 0x0, 0xffffffff, .t0, .t0, 13, 24, 26⟩,
  ⟨0x1100078, 1, 4, 1, 4, .rw, 0x0, 0xffffffff, .t0, .t0, 14, 24, 26⟩,
  ⟨0x110007c, 1, 4, 1, 4, .rw, 0x0, 0xffffffff, .t0, .t0, 15, 24, 26⟩,
  ⟨0x1100080, 1, 4, 1, 4, .rw, 0x0, 0xffffffff, .t0, .t0, 16, 24, 26⟩,
  ⟨0x1100084, 1, 4, 1, 4, .rw, 0x0, 0xffffffff, .t0, .t0, 17, 24, 26⟩,
  ⟨0x1100088, 1, 4, 1, 4, .rw, 0x0, 0xffffffff, .t0, .t0, 18, 24, 26⟩,
  ⟨0x110008c, 1, 4, 1, 4, .rw, 0x0, 0xffffffff, .t0, .t0, 19, 24, 26⟩,
  ⟨0x1100090, 1, 4, 1, 4, .rw, 0x0, 0xffffffff, .t0, .t0, 20, 24, 26⟩,
  ⟨0x1100094, 1, 4, 1, 4, .rw, 0x0, 0xffffffff, .t0, .t0, 21, 24, 26⟩,
  ⟨0x1100098, 1, 4, 1, 4, .rw, 0x0, 0xffffffff, .t0, .t0, 22, 24, 26⟩,
  ⟨0x110009c, 1, 4, 1, 4, .rw, 0x0, 0xffffffff, .t0, .t0, 23, 24, 26⟩,
  ⟨0x11000a0, 1, 4, 1, 4, .rw, 0x0, 0x1, .t0, .t0, 0, 1, 26⟩]

/-- All registers of the DB block. -/
def regsDB : List RegRow := regsDB0

/-- Registers of the EF block. -/
def regsEF0 : List RegRow := [
  ⟨0x1200000, 1, 4, 1, 4, .ro, 0x0, 0xfff, .t0, .t0, 0, 1, 26⟩,
  ⟨0x1200004, 1, 4, 1, 4, .ro, 0x0, 0xffffffff, .t0, .t0, 0, 1, 26⟩,
  ⟨0x1200100, 64, 16, 1, 4, .ro, 0x0, 0xffff, .own, .t0, 0, 1, 26⟩,
  ⟨0x1200104, 64, 16, 1, 4, .rw, 0x0, 0xffff, .own, .own, 0, 1, 26⟩,
  ⟨0x1200108, 64, 16, 1, 4, .ro, 0x0, 0xffff, .own, .t0, 0, 1, 26⟩,
  ⟨0x1200800, 1, 4, 1, 4, .ro, 0x0, 0xffff, .t0, .t0, 0, 1, 26⟩,
  ⟨0x1200804, 1, 4, 1, 4, .rw, 0x0, 0xffff, .t0, .t0, 0, 1, 26⟩,
  ⟨0x1200808, 1, 4, 1, 4, .ro, 0x0, 0xffff, .t0, .t0, 0, 1, 26⟩]

/-- All registers of the EF block. -/
def regsEF : List RegRow := regsEF0

/-- The bases of R9, in the order of its table. -/
def blockBases : List Nat := [0x0, 0x100000, 0x200000, 0x300000, 0x400000, 0x500000, 0x600000, 0x700000, 0x800000, 0x900000, 0x980000, 0xa00000, 0xb00000, 0xc00000, 0xd00000, 0xe00000, 0xf00000, 0x1000000, 0x1100000, 0x1200000]

/-- The row of R9's table that an address belongs to, 0 for HS to 19 for EF. -/
def blockOf (a : Nat) : Nat := (blockBases.filter (· ≤ a)).length - 1

/-- The registers of a block, by its row in R9. -/
def blockRegs (b : Nat) : List RegRow :=
  match b with
  | 0 => regsHS
  | 1 => regsTK
  | 2 => regsSQ
  | 3 => regsQY
  | 4 => regsBR
  | 5 => regsCR
  | 6 => regsTM
  | 7 => regsDM
  | 8 => regsFL
  | 9 => regsLH
  | 10 => regsAU
  | 11 => regsCM
  | 12 => regsSN
  | 13 => regsFU
  | 14 => regsPM
  | 15 => regsPD
  | 16 => regsHM
  | 17 => regsCH
  | 18 => regsDB
  | 19 => regsEF
  | _ => []

/-- The indices of a register address within a row, where it lies in it. -/
def RegRow.hit (r : RegRow) (a : Nat) : Option (Nat × Nat) :=
  if a < r.base then none else
  let o := a - r.base
  let i := o / r.s
  let j := (o % r.s) / r.s2
  if i < r.n ∧ j < r.n2 ∧ o = i * r.s + j * r.s2 then some (i, j) else none

/-- The first row of a list that holds an address, with its indices. -/
def regSearch : List RegRow → Nat → Option (RegRow × Nat × Nat)
  | [], _ => none
  | r :: rs, a =>
    match r.hit a with
    | some ij => some (r, ij)
    | none => regSearch rs a

/-- The row of a register address, with its indices; none where no register lies (R9). -/
def regFind (a : Nat) : Option (RegRow × Nat × Nat) := regSearch (blockRegs (blockOf a)) a

/-- The reset value of a register address; zero where no register lies. -/
def regReset (a : Nat) : Word :=
  match regFind a with
  | some (r, _) => BitVec.ofNat 32 r.reset
  | none => 0

end Sys2Proof.Machine
end

