-- ==== Sys2Proof/Machine/Mach.lean ====
section
/-!
DEFINITION. The machine behind the command queue: the register file and the parts of every chapter.
-/
namespace Sys2Proof.Machine

/-- The machine: everything the device holds but the queue of waiting commands and the fuses. -/
structure Mach where
  /-- The register file: words by BAR0 address; an unlisted register holds its reset value (R14). -/
  regs : Tab Word
  /-- Captured upper words by access path and address (R13). -/
  shadow : Tab Word
  /-- Held upper words of writable wide values by access path and address (R13). -/
  held : Tab Word
  clk : Clk
  ef : FaultLog
  hs : HostIf
  pm : Power
  pd : Deliv
  /-- The event latch: 64-bit entries, oldest first (R387). -/
  latch : List Nat
  tk : Tick
  st : Strict
  sto : Store
  /-- The cascades (R312), one per tenant at most. -/
  cas : List Casc
  lh : Light
  mem : Mem
  fl : Flash
  hm : Harbour
  sn : Sensor
  fu : Fusion
  ch : Fab
  /-- What the device sent during the last command. -/
  out : List Out
  /-- The counter the free values are drawn from: the model's own field (log 1). -/
  fresh : Nat
  deriving DecidableEq, Repr

/-- A register's word. -/
def Mach.reg (m : Mach) (a : Nat) : Word := tabGet m.regs a (regReset a)

/-- The machine with a register's word set. -/
def Mach.setReg (m : Mach) (a : Nat) (w : Word) : Mach := { m with regs := tabSet m.regs a w (regReset a) }

/-- A register read as a number. -/
def Mach.regN (m : Mach) (a : Nat) : Nat := (m.reg a).toNat

/-- The machine with a register set to a number modulo 2³². -/
def Mach.setRegN (m : Mach) (a v : Nat) : Mach := m.setReg a (BitVec.ofNat 32 v)

/-- A register field. -/
def Mach.fldOf (m : Mach) (a lo n : Nat) : Nat := fld (m.reg a) lo n

/-- The machine with a register field set. -/
def Mach.setFldOf (m : Mach) (a lo n v : Nat) : Mach := m.setReg a (setFld (m.reg a) lo n v)

/-- A one-bit register field. -/
def Mach.flagOf (m : Mach) (a i : Nat) : Bool := flag (m.reg a) i

/-- The machine with a one-bit register field set. -/
def Mach.setFlagOf (m : Mach) (a i : Nat) (b : Bool) : Mach := m.setReg a (setFlag (m.reg a) i b)

/-- A register field incremented, wrapping at its width. -/
def Mach.incFld (m : Mach) (a lo n d : Nat) : Mach := m.setFldOf a lo n (m.fldOf a lo n + d)

/-- A register field incremented, saturating at its width. -/
def Mach.satFld (m : Mach) (a lo n d : Nat) : Mach := m.setFldOf a lo n (satAdd n (m.fldOf a lo n) d)

/-- A 64-bit value in two consecutive registers, low word first (R13). -/
def Mach.reg64 (m : Mach) (a : Nat) : Nat := m.regN a + 2 ^ 32 * m.regN (a + 4)

/-- Two consecutive registers set to a 64-bit value, low word first (R13). -/
def Mach.setReg64 (m : Mach) (a v : Nat) : Mach := (m.setRegN a v).setRegN (a + 4) (v / 2 ^ 32)

/-- The machine with one more thing sent out. -/
def Mach.emit (m : Mach) (o : Out) : Mach := { m with out := m.out ++ [o] }

end Sys2Proof.Machine
end

