-- ==== Sys2Proof/Machine/Ops.lean ====
section
/-!
DEFINITION. The operations every chapter shares: fault records (R700–R703), vectors and completions (R668, R672, R675), power
requests and transitions (R476–R485, R495), wakes (R490, R496), standing orders (R487–R489) and the event latch (R386–R388).
-/
namespace Sys2Proof.Machine

/-- The next free value of the counter, and the machine past it (log 1). -/
def Mach.draw (m : Mach) : Nat × Mach := (m.fresh, { m with fresh := m.fresh + 1 })

/-! ## Fault records -/

/-- COARSE: device time is timed from the AON clock (R404). -/
def coarse (m : Mach) : Bool := m.clk.refStopped

/-- Raise a fault (R700, R701). The record joins the command's list; the rings take it at the command's end, in CODE order. -/
def raiseAt (m : Mach) (code tenant : Nat) (device : Bool) (slot cycle info : Nat) : Mach :=
  let r : FaultRec := { code, tenant, device, coarse := coarse m, rept := 0, slot, time := m.clk.now, tick := m.clk.tick,
                        cycle, info := info % 2 ^ 32 }
  { m with ef := { m.ef with raised := m.ef.raised ++ [r] } }

/-- Raise a fault that a tenant caused outside a slot (R701). -/
def raiseT (m : Mach) (code tenant info : Nat) : Mach := raiseAt m code tenant false 0xFFFF 0xFFFFFFFF info

/-- Raise a fault without a tenant cause: for tenant 0 with DEVICE set (R701). -/
def raiseD (m : Mach) (code info : Nat) : Mach := raiseAt m code 0 true 0xFFFF 0xFFFFFFFF info

/-- The HOST_SEL strap selected QSPI (R653). -/
def isQspi (m : Mach) : Bool := m.flagOf rHS_MODE 0

/-- The PCIe function is in D3hot (R658). -/
def inD3 (m : Mach) : Bool := m.flagOf rHS_MODE 6

/-- Send a vector: the pending bit in QSPI mode, the MSI-X pending bit while masked, a message otherwise (R661, R675). -/
def sendVec (m : Mach) (v : Nat) : Mach :=
  if isQspi m then m.setFlagOf (rHS_IRQ_PEND (v / 32)) (v % 32) true
  else if m.flagOf (rHS_MSIX_CTRL v) 0 then m.setFlagOf (rHS_MSIX_PBA (v / 32)) (v % 32) true
  else if inD3 m then { m with hs := { m.hs with owed := m.hs.owed ++ [v] } }
  else m.emit (.msix v)

/-- The record as ring `t` holds it: fields of 0x02xx faults are hidden from a tenant other than 0 (R701). -/
def hideRec (t : Nat) (r : FaultRec) : FaultRec :=
  if t ≠ 0 ∧ r.code / 256 = 2 then { r with slot := 0, cycle := 0, info := 0 } else r

/-- Whether a raising merges into the newest record of a ring (R702). -/
def sameRec (a b : FaultRec) : Bool :=
  a.code == b.code && a.tenant == b.tenant && a.slot == b.slot && a.info == b.info

/-- What one raising does to a ring of `size` places with `unread` records: merge, drop or write (R702, R703). -/
inductive RingAct where
  | merge
  | lose
  | write
  deriving DecidableEq, Repr

/-- The action on a ring (R702, R703). -/
def ringAct (size head tail : Nat) (newest r : FaultRec) : RingAct :=
  let unread := (head + 2 ^ 16 - tail) % 2 ^ 16
  if unread ≠ 0 ∧ sameRec newest r then .merge else if unread = size then .lose else .write

/-- Write a record to the tenant's ring (R701–R703). -/
def writeTenantRing (m : Mach) (r0 : FaultRec) : Mach :=
  let t := r0.tenant
  let r := hideRec t r0
  let head := m.fldOf (rEF_HEAD t) 0 16
  let k := fun n => 64 * t + n % 64
  let newest := tabGet m.ef.rings (k (head + 2 ^ 16 - 1)) FaultRec.zero
  match ringAct 64 head (m.fldOf (rEF_TAIL t) 0 16) newest r with
  | .merge =>
    { m with ef := { m.ef with rings := tabSet m.ef.rings (k (head + 2 ^ 16 - 1)) { newest with rept := satAdd 16 newest.rept 1 } FaultRec.zero } }
  | .lose => m.satFld (rEF_LOST t) 0 16 1
  | .write =>
    let m := { m with ef := { m.ef with rings := tabSet m.ef.rings (k head) r FaultRec.zero } }
    sendVec (m.incFld (rEF_HEAD t) 0 16 1) (2 * t + 1)

/-- Write a record to the device ring (R701–R703). -/
def writeDevRing (m : Mach) (r : FaultRec) : Mach :=
  let head := m.fldOf rEF_DEV_HEAD 0 16
  let k := fun n => n % 1024
  let newest := tabGet m.ef.dev (k (head + 2 ^ 16 - 1)) FaultRec.zero
  match ringAct 1024 head (m.fldOf rEF_DEV_TAIL 0 16) newest r with
  | .merge =>
    { m with ef := { m.ef with dev := tabSet m.ef.dev (k (head + 2 ^ 16 - 1)) { newest with rept := satAdd 16 newest.rept 1 } FaultRec.zero } }
  | .lose => m.satFld rEF_DEV_LOST 0 16 1
  | .write =>
    let m := { m with ef := { m.ef with dev := tabSet m.ef.dev (k head) r FaultRec.zero } }
    m.incFld rEF_DEV_HEAD 0 16 1

/-- A domain's state: 0 on, 1 retention, 2 off (R475). -/
def domSt (m : Mach) (d : Nat) : Nat := if d = 127 then 0 else tabGet m.pm.dom d 2

/-- A domain is on. -/
def isOn (m : Mach) (d : Nat) : Bool := domSt m d == 0

/-- A domain is in transition (R476). -/
def inTrans (m : Mach) (d : Nat) : Bool := m.pm.trans.any (·.dom == d)

/-- Write one record to both rings, or hold it while HM is in retention (R701). -/
def writeRec (m : Mach) (r : FaultRec) : Mach :=
  if isOn m 26 then writeDevRing (writeTenantRing m r) r
  else if m.ef.buf.length < 8 then { m with ef := { m.ef with buf := m.ef.buf ++ [r] } }
  else (m.satFld (rEF_LOST r.tenant) 0 16 1).satFld rEF_DEV_LOST 0 16 1

/-- Insert a record into a list sorted by CODE, after its equals (R701). -/
def insertRec (r : FaultRec) : List FaultRec → List FaultRec
  | [] => [r]
  | x :: xs => if r.code < x.code then r :: x :: xs else x :: insertRec r xs

/-- Records in ascending CODE order, those of one code in the order raised (R701). -/
def sortRecs (rs : List FaultRec) : List FaultRec := rs.foldl (fun acc r => insertRec r acc) []

/-- The end of a command: its raised faults are written in ascending CODE order (R701). -/
def flushFaults (m : Mach) : Mach :=
  let rs := sortRecs m.ef.raised
  rs.foldl writeRec { m with ef := { m.ef with raised := [] } }

/-- HM is on again: the records held in AON are written (R701). -/
def flushHeldRecs (m : Mach) : Mach :=
  m.ef.buf.foldl writeRec { m with ef := { m.ef with buf := [] } }

/-! ## Queues and completions -/

/-- Depths of a queue pair (R664). -/
def sqDepth (m : Mach) (t : Nat) : Nat := m.fldOf (rHS_Q_CFG t) 4 12 + 1
def cqDepth (m : Mach) (t : Nat) : Nat := m.fldOf (rHS_Q_CFG t) 16 12 + 1

/-- What the device keeps for a queue pair. -/
def queueOf (m : Mach) (t : Nat) : Queue := tabGet m.hs.queues t Queue.init

/-- Set what the device keeps for a queue pair. -/
def setQueue (m : Mach) (t : Nat) (q : Queue) : Mach :=
  { m with hs := { m.hs with queues := tabSet m.hs.queues t q Queue.init } }

/-- The resident host serves queue pair `t` (R389). -/
def isResident (m : Mach) (t : Nat) : Bool := bit m.hs.resident t

/-- Queue pair `t` is enabled (R665). -/
def qEnabled (m : Mach) (t : Nat) : Bool := m.flagOf (rHS_Q_CFG t) 0

/-- Commands fetched from a queue and not completed (R664). -/
def outstanding (m : Mach) (t : Nat) : Nat := (m.hs.cmds.filter (·.q == t)).length

/-- Free entries of a CQ: those that hold no posted completion and that no held one will take (R658, R667). -/
def cqFree (m : Mach) (t : Nat) : Nat := cqDepth m t - (queueOf m t).used - (m.hs.held.filter (·.q == t)).length

/-- The 16 bytes of a completion entry (R672). -/
def cplBytes (c : Cpl) (sqHead : Nat) (phase : Bool) : List Byte :=
  leBytes 4 c.result ++ leBytes 4 c.detail ++ leBytes 2 sqHead ++ leBytes 2 c.cid ++ leBytes 2 c.status ++
    leBytes 1 (b2n phase + 2 * c.cls) ++ leBytes 1 c.op

/-- Count a completion towards the queue's vector, and send it when COUNT have been posted (R675). -/
def coalesce (m : Mach) (t : Nat) : Mach :=
  let q := queueOf m t
  let n := q.unsig + 1
  let cnt := max 1 (m.fldOf (rHS_Q_IRQ t) 0 8)
  if n ≥ cnt then sendVec (setQueue m t { q with unsig := 0 }) (2 * t)
  else setQueue m t { q with unsig := n, unsigAt := if q.unsig = 0 then m.clk.now else q.unsigAt }

/-- Write a completion entry at the CQ tail, advance the tail and invert PHASE at the wrap (R672, R675). -/
def writeCpl (m : Mach) (c : Cpl) : Mach :=
  let t := c.q
  let st := m.reg (rHS_Q_STATUS t)
  let tail := fld st 16 12
  let phase := flag st 28
  let bytes := cplBytes c (fld st 0 12) phase
  let base := m.reg64 (rHS_CQ_BASE_LO t)
  let addr := base + 16 * tail
  let m := if m.flagOf (rHS_Q_CFG t) 1 then { m with hs := { m.hs with sram := memWrite m.hs.sram 0 addr bytes } }
           else m.emit (.hostWrite addr bytes)
  let m := setQueue m t { queueOf m t with used := (queueOf m t).used + 1 }
  let tail' := (tail + 1) % cqDepth m t
  let m := m.setReg (rHS_Q_STATUS t) (setFlag (setFld st 16 12 tail') 28 (if tail' = 0 then !phase else phase))
  coalesce m t

/-- Post a completion: to the resident host, held in D3hot or while HOST comes on, discarded after a stop of its queue, or written
(R389, R657, R658, R672, R673, R682). -/
def postCpl (m : Mach) (c : Cpl) : Mach :=
  let q := queueOf m c.q
  if isResident m c.q then m.emit (.residentCpl c.q (cplBytes c 0 true))
  else if c.cid ≠ 0xFFFF ∧ q.dropped.contains c.cid then setQueue m c.q { q with dropped := q.dropped.erase c.cid }
  else if !m.flagOf (rHS_Q_CFG c.q) 0 ∧ c.cid = 0xFFFF then m
  else if inD3 m ∨ !isOn m 17 then { m with hs := { m.hs with held := m.hs.held ++ [c] } }
  else writeCpl m c

/-- A fetched command leaves the outstanding list (R667). -/
def dropCmd (m : Mach) (q cid : Nat) : Mach :=
  { m with hs := { m.hs with cmds := m.hs.cmds.filter (fun c => !(c.q == q && c.cid == cid)) } }

/-- Complete a command (R672): it is no longer outstanding, and its entry is posted; a refusal's CLASS is FAULT. -/
def complete (m : Mach) (q cid op status result detail : Nat) : Mach :=
  postCpl (dropCmd m q cid) ⟨q, cid, op, status, result % 2 ^ 32, detail % 2 ^ 32, if status = 0 then 0 else 1⟩

/-- Tenant `t` exists (R553). -/
def tenantExists (m : Mach) (t : Nat) : Bool := t == 0 || (decide (t < 64) && m.flagOf (rHM_TENANT_CFG t) 0)

/-- Tenant `t` is in strict mode (R592). -/
def isStrict (m : Mach) (t : Nat) : Bool := !m.flagOf (rHM_TENANT_CFG t) 1

/-- Objects that commands name, by class: 1 allocation, 2 region, 3 manifest, 4 tick program, 5 image, 6 cascade, 7 stream, 8 tenant,
9 partition, 10 task, 11 job. -/
def objKey (cls id : Nat) : Nat := cls * 2 ^ 40 + id

/-- A fetched command. -/
def findCmd (m : Mach) (q cid : Nat) : Option RunCmd := m.hs.cmds.find? (fun c => c.q == q && c.cid == cid)

/-- A command has begun and takes time: its completion waits for COMMAND_COMPLETE, or for the event the wait code names (R674). -/
def running (m : Mach) (q cid op wait : Nat) (c : Option Cpl) (objs : List Nat) (lo hi : Nat) : Mach :=
  let e : RunCmd := { q, cid, op, fence := false, begun := true, wait, cpl := c, objs, lo, hi }
  if (findCmd m q cid).isSome then
    { m with hs := { m.hs with cmds := mapIf (fun x => x.q == q && x.cid == cid) (fun x => { e with fence := x.fence }) m.hs.cmds } }
  else { m with hs := { m.hs with cmds := m.hs.cmds ++ [e] } }

/-- A running command's wait code and completion set. -/
def setCmd (m : Mach) (q cid wait : Nat) (c : Option Cpl) : Mach :=
  { m with hs := { m.hs with cmds := mapIf (fun x => x.q == q && x.cid == cid) (fun x => { x with wait, cpl := c }) m.hs.cmds } }

/-- Earlier commands of its queue that are not complete: those before it in the list, or all where it was not fetched (R674). -/
def earlierCmds (m : Mach) (q cid : Nat) : List RunCmd := (m.hs.cmds.takeWhile (fun c => !(c.q == q && c.cid == cid))).filter (·.q == q)

/-- Whether a command may begin now (R674): it has not begun, every earlier command of its queue has, its fence is reached, and nothing
that it must wait for is incomplete; `waits` says what that is. -/
def mayBegin (m : Mach) (q cid : Nat) (waits : RunCmd → Bool) : Bool :=
  let e := earlierCmds m q cid
  match findCmd m q cid with
  | some c => !c.begun && e.all (·.begun) && (!c.fence || e.isEmpty) && !e.any waits
  | none => !e.any waits

/-- Raise a fault for a command's tenant and complete the command with it. -/
def refuse (m : Mach) (q cid op code detail : Nat) : Mach :=
  complete (raiseT m code q detail) q cid op code 0 detail

/-- The device is in ROM recovery (R697). -/
def inRecovery (m : Mach) : Bool := m.flagOf rEF_START 4

/-- The opcodes that ROM recovery accepts (R697). -/
def recoveryOps : List Nat := [0x00, 0x01, 0x28, 0x29, 0x2A, 0x2B, 0x2E, 0x2F]

/-- A command begins (R674, R676, R678, R697): it changes nothing while it may not begin; it is refused where its tenant does not exist, where
ROM recovery does not accept it or where a reserved bit is set; otherwise it has its effect. -/
def beginCmd (m : Mach) (cmd : CmdCtx) (op resvFault : Nat) (waits : RunCmd → Bool) (f : Mach → Mach) : Mach :=
  let q := cmd.q.val
  if !mayBegin m q cmd.cid waits ∨ (findCmd m q cmd.cid).any (·.op != op) then m
  else
    let m := { m with hs := { m.hs with cmds := mapIf (fun x => x.q == q && x.cid == cmd.cid) (fun x => { x with begun := true }) m.hs.cmds } }
    if !tenantExists m q then refuse m q cmd.cid op 0x0D01 0
    else if inRecovery m ∧ !recoveryOps.contains op then refuse m q cmd.cid op 0x1004 0
    else if cmd.resv then refuse m q cmd.cid op resvFault 0
    else f m

/-- No earlier command holds a command back but by its fence. -/
def noWait (_ : RunCmd) : Bool := false

/-- Earlier incomplete commands that name an object (R674). -/
def naming (k : Nat) (c : RunCmd) : Bool := c.objs.contains k

/-- Post an unsolicited completion while the CQ has room; drop and count it otherwise (R668, R677). -/
def notice (m : Mach) (q op status result detail cls : Nat) : Mach :=
  if isResident m q ∨ cqFree m q > outstanding m q then
    postCpl m ⟨q, 0xFFFF, op, status, result % 2 ^ 32, detail % 2 ^ 32, cls⟩
  else
    let m := m.satFld (rHS_Q_COUNT q) 16 16 1
    let qq := queueOf m q
    if qq.noticeRaised then m else raiseT (setQueue m q { qq with noticeRaised := true }) 0x0F06 q 0

/-! ## Power requests -/

/-- A domain index that names a domain (R476). -/
def validDom (d : Nat) : Bool := decide (d < 27 ∨ (32 ≤ d ∧ d < 96))

/-- QUAY, VEC, SEQ and BERTH domains (R480). -/
def strictDom (d : Nat) : Bool := decide (d ≤ 12 ∨ (32 ≤ d ∧ d < 96))

/-- The domains a domain requires, with theirs (R478). -/
def requires (d : Nat) : List Nat :=
  match d with
  | 14 => [13, 15, 26]
  | 16 => [15]
  | 13 => [26]
  | 17 => [26]
  | 18 => [26]
  | 19 => [26]
  | 20 => [26]
  | 21 => [26]
  | _ => []

/-- The domains that require a domain (R478). -/
def requirers (d : Nat) : List Nat :=
  match d with
  | 13 => [14]
  | 15 => [14, 16]
  | 26 => [14, 13, 17, 18, 19, 20, 21]
  | _ => []

/-- The longest time of a transition in reference cycles (R476). -/
def transTime (clean : Bool) (d src tgt : Nat) : Nat :=
  let off := tgt = 2 ∨ (src = 2 ∧ tgt = 1)
  if d < 4 then (if tgt = 0 then (if src = 1 then 192 else 692) else if off then 32 else 64)
  else if d < 12 then (if tgt = 0 then (if src = 1 then 96 else 384) else if off then 32 else 64)
  else if d = 12 then (if tgt = 0 then (if src = 1 then 48 else 192) else if off then 32 else 64)
  else if d = 13 ∨ d = 14 ∨ d = 22 ∨ d = 23 then (if tgt = 0 then (if src = 1 then 96 else 384) else if off then 32 else 64)
  else if d = 15 then (if tgt = 0 then (if src = 1 then 768 else 1920000) else 192)
  else if d = 16 then (if tgt = 0 then (if src = 1 ∨ clean then 1536000 else 13440000) else 192000)
  else if d = 17 then (if tgt = 0 then (if src = 1 then 1152 else 3840) else 64)
  else if d < 22 then (if tgt = 0 then 768 else 64)
  else if d = 24 then (if tgt = 0 then (if src = 1 then 48 else 96) else if off then 32 else 64)
  else if d = 25 then (if tgt = 0 then (if src = 1 then 96 else 192) else if off then 32 else 64)
  else if d = 26 then (if tgt = 0 then 96 else 64)
  else (if tgt = 0 then (if src = 1 then 23 else 96) else 16)

/-- Reference cycles of `n` AON cycles, rounded up: an AON cycle is 12.5 reference cycles (R8). -/
def aonToRef (n : Nat) : Nat := (25 * n + 1) / 2

/-- Device time of the first AON clock edge at or after a time (R495). -/
def aonCeil (t : Nat) : Nat := (25 * ((2 * t + 24) / 25) + 1) / 2

/-- The state a domain will have once everything accepted for it is done. -/
def eventual (m : Mach) (d : Nat) : Nat :=
  match (m.pm.acts.filter (·.dom == d)).getLast? with
  | some a => a.tgt
  | none =>
    match m.pm.trans.find? (·.dom == d) with
    | some t => t.tgt
    | none => domSt m d

/-- A quadrant or cluster held offline (R176, R485). -/
def isOffline (m : Mach) (d : Nat) : Bool :=
  if d < 4 then m.flagOf rQY_OFFLINE d else if d < 12 then m.flagOf rQY_OFFLINE (d + 4) else false

/-- Whether an accepted change may begin now (R478, R480, R482). -/
def actReady (m : Mach) (a : Act) : Bool :=
  !inTrans m a.dom && !a.seam && !a.drain &&
    (if a.tgt = 0 then (requires a.dom).all (fun d => isOn m d && !inTrans m d)
     else (requirers a.dom).all (fun d => !isOn m d && !inTrans m d))

/-- Begin a transition: a lowering runs the retention handshake first, and a raise waits for a stopped crystal (R494, R495). -/
def beginTrans (m : Mach) (a : Act) : Mach :=
  let src := domSt m a.dom
  let lowering := decide (src < a.tgt)
  let begun := if lowering then aonCeil m.clk.now else m.clk.now
  let wait := m.clk.refStopped && a.tgt == 0 && a.dom != 26
  let t : Trans := { dom := a.dom, src, tgt := a.tgt, begun,
                     due := begun + (if lowering then 50 else 0) + transTime m.fl.clean a.dom src a.tgt,
                     xtal := wait, req := a.req }
  { m with pm := { m.pm with trans := m.pm.trans ++ [t] },
           clk := if wait then { m.clk with xtalStarting := true } else m.clk }

/-- One pass over the accepted changes, in order: those that may begin do, those of a blocked domain wait (R478, R483). -/
def pumpActs : List Act → List Nat → Mach → Mach
  | [], _, m => m
  | a :: as, blocked, m =>
    if blocked.contains a.dom then pumpActs as blocked { m with pm := { m.pm with acts := m.pm.acts ++ [a] } }
    else if domSt m a.dom = a.tgt ∧ !inTrans m a.dom then pumpActs as blocked m
    else if actReady m a then pumpActs as (a.dom :: blocked) (beginTrans m a)
    else pumpActs as (a.dom :: blocked) { m with pm := { m.pm with acts := m.pm.acts ++ [a] } }

/-- PM_SET_CHANGED and PM_SET_OFFLINE take the masks of a completion (R756). -/
def setMasks (m : Mach) (changed offline : Nat) : Mach :=
  let w := fun (m : Mach) (i : Nat) =>
    (m.setRegN (rPM_SET_CHANGED i) (bits changed (32 * i) 32)).setRegN (rPM_SET_OFFLINE i) (bits offline (32 * i) 32)
  w (w (w m 0) 1) 2

/-- Requests whose transitions have all ended complete (R484, R756). -/
def finishReqs (m : Mach) : Mach :=
  let open' := fun (r : PwrReq) => m.pm.acts.any (·.req == r.id) || m.pm.trans.any (·.req == r.id)
  let done := m.pm.reqs.filter (fun r => !open' r)
  done.foldl (fun m r => complete (setMasks m r.changed r.offline) r.q r.cid 0x48 0 (popCount r.changed 96) (popCount r.offline 96))
    { m with pm := { m.pm with reqs := m.pm.reqs.filter open' } }

/-- Begin every accepted change that may begin, and complete the requests that are done. -/
def pumpPower (m : Mach) : Mach :=
  finishReqs (pumpActs m.pm.acts [] { m with pm := { m.pm with acts := [] } })

/-- The domains a request changes and those it leaves off as offline (R478, R485, R756). -/
def requestSets (m : Mach) (named st : Nat) : List Nat × List Nat :=
  let ds := (bitList named 96).filter validDom
  let off := if st = 2 then [] else ds.filter (isOffline m)
  let act := ds.filter (fun d => !isOffline m d)
  let extra := if st = 0 then act.flatMap requires
               else (act.flatMap requirers).filter (fun d => eventual m d < st)
  let all := (List.range 96).filter (fun d => (act.contains d || extra.contains d) && eventual m d != st)
  (all, off)

/-- Accept a request: the changes it makes join the queue, those of the strict domain for a seam where `seam` says so, a lowering of
CRANE, TMOV, DMC or FLC until its transfers have drained (R478–R483). Answers the changed and offline masks (R756). -/
def acceptPower (m : Mach) (named st : Nat) (seam : Bool) (req : Nat) : Mach × Nat × Nat :=
  let (chg, off) := requestSets m named st
  let acts := chg.map (fun d =>
    ({ dom := d, tgt := st, seam := seam && strictDom d,
       drain := decide (eventual m d < st) && decide (13 ≤ d ∧ d ≤ 16), req } : Act))
  let m := { m with pm := { m.pm with acts := m.pm.acts ++ acts },
                    pd := { m.pd with thermDoms := m.pd.thermDoms &&& (2 ^ 96 - 1 - maskOf chg) } }
  let m := if off.isEmpty then m else raiseT m 0x0B04 0 0
  (m, maskOf chg, maskOf off)

/-- Whether a request would raise a domain (R531). -/
def wouldRaise (m : Mach) (named st : Nat) : Bool :=
  (requestSets m named st).1.any (fun d => st < eventual m d)

/-- A raise that acts at once, of domains given as a list: a wake or a cascade decision. After a thermal shutdown domains are raised only by
command (R531). -/
def raiseDomains (m : Mach) (ds : List Nat) : Mach :=
  if m.flagOf rPD_STATUS 6 then m else
  let ds := ds.filter (fun d => !isOffline m d)
  pumpPower (acceptPower m (maskOf ds) 0 false 0).1

/-- The current quay and SoC levels (PM_PERF, R499). -/
def curPl (m : Mach) : Nat := m.fldOf rPM_PERF 0 3
def curS (m : Mach) : Nat := m.fldOf rPM_PERF 4 2

/-- The parameters of a PWR_SET (R484): reserved bits clear, domain mask, state, ALLOW_LOSS and WAIT. -/
structure PwrParams where
  resv : Bool
  mask : Nat
  st : Nat
  allow : Bool
  wait : Bool
  deriving DecidableEq, Repr

/-- Read PWR_SET's parameter bytes (R484). -/
def pwrParams (p : List Byte) : PwrParams :=
  let b := fun i => byteFld p i 1
  { resv := (b 12 &&& 0xFC) != 0 || (b 13 &&& 0xFC) != 0 || !zeroAt p 14 42, mask := byteFld p 0 12, st := b 12 % 4,
    allow := bit (b 13) 0, wait := bit (b 13) 1 }

/-- The fault that refuses a PWR_SET, or none (R484, R531). -/
def pwrFault (m : Mach) (p : PwrParams) : Nat :=
  if p.resv ∨ p.st = 3 ∨ p.mask = 0 ∨ (bitList p.mask 96).any (fun d => !validDom d) ∨ (p.st = 2 ∧ bit p.mask 26) then 0x0B02
  else if p.st = 2 ∧ !p.allow ∧ (bit p.mask 12 ∨ bit p.mask 15) then 0x0B03
  else if m.flagOf rPD_STATUS 6 ∧ wouldRaise m p.mask p.st then 0x0C0A
  else 0

/-- The parameters of a PERF_SET (R486): reserved bits clear, PL, S and WAIT. -/
structure PerfParams where
  resv : Bool
  pl : Nat
  s : Nat
  wait : Bool
  deriving DecidableEq, Repr

/-- Read PERF_SET's parameter bytes (R486). -/
def perfParams (p : List Byte) : PerfParams :=
  let b := fun i => byteFld p i 1
  { resv := (b 2 &&& 0xFE) != 0 || !zeroAt p 3 53, pl := b 0, s := b 1, wait := bit (b 2) 0 }

/-- PL_MIN of a table's header (R24). -/
def tablePlMin (t : Tab Word) : Nat := fld (tabGet t 0 0) 0 3

/-- The lowest PL that R33 allows: PL_MIN of the active table and of an accepted submission. -/
def plFloor (m : Mach) : Nat :=
  max (tablePlMin m.tk.active) (match m.tk.accepted with | some s => tablePlMin s.table | none => 0)

/-- The fault that refuses a PERF_SET, or none (R33, R486). -/
def perfFault (m : Mach) (p : PerfParams) : Nat :=
  if p.resv ∨ (8 ≤ p.pl ∧ p.pl < 0xFF) ∨ (4 ≤ p.s ∧ p.s < 0xFF) then 0x0B02
  else if p.pl < plFloor m then 0x0104
  else 0

/-- Accept a PERF_SET: the pending level of each rail whose byte is not 0xFF is replaced (R486). -/
def acceptPerf (m : Mach) (p : PerfParams) : Mach :=
  if p.pl = 0xFF ∧ p.s = 0xFF then m else
  let m := { m with pm := { m.pm with pendPl := if p.pl = 0xFF then m.pm.pendPl else some p.pl,
                                      pendS := if p.s = 0xFF then m.pm.pendS else some p.s } }
  m.setFlagOf rPM_PERF 8 true

/-! ## Wakes, standing orders and events -/

/-- A lowering has begun and is not complete (R482, R496): it is in transition, or waits for its transfers or for the domains that need its own. -/
def lowering (m : Mach) : Bool :=
  m.pm.trans.any (fun t => decide (t.src < t.tgt)) || m.pm.acts.any (fun a => !a.seam && decide (domSt m a.dom < a.tgt))

/-- PM_WAKE_DOMAINS as one mask (R498). -/
def wakeMask (m : Mach) : Nat := m.regN (rPM_WAKE_DOMAINS 0) + 2 ^ 32 * m.regN (rPM_WAKE_DOMAINS 1) + 2 ^ 64 * m.regN (rPM_WAKE_DOMAINS 2)

/-- The domains a wake's source implies (R490). -/
def impliedDomains (w : Wake) : List Nat :=
  if w.cascade then [] else if w.cls = 0x0B then [17] else if w.cls = 0x08 then [18 + w.index % 4] else []

/-- Answer a wake (R490): raise the wake domains and the implied ones, and record it. -/
def doWake (m : Mach) (w : Wake) (replayed : Bool) : Mach :=
  let m := raiseDomains m ((bitList (wakeMask m) 96).filter validDom ++ impliedDomains w)
  let v := w.index % 256 + 256 * (w.cls % 128) + 32768 * b2n replayed + 65536 * b2n w.cascade
  (m.setRegN rPM_LAST_WAKE v).setRegN rPM_WAKE_COUNT (m.regN rPM_WAKE_COUNT + 1)

/-- A wake reaches the power controller: it is latched while a lowering is under way (R496). -/
def wake (m : Mach) (w : Wake) : Mach :=
  if lowering m then { m with pm := { m.pm with latched := m.pm.latched ++ [w] } } else doWake m w false

/-- The wakes latched during a lowering begin at an entry completion (R496). -/
def replayWakes (m : Mach) : Mach :=
  m.pm.latched.foldl (fun m w => doWake m w true) { m with pm := { m.pm with latched := [] } }

/-- A standing order that fires is counted, and removed unless it has REPEAT (R488). -/
def orderCounted (m : Mach) (k : Nat) (rept : Bool) : Mach :=
  let m := m.setRegN (rPM_SO_FIRED k) (m.regN (rPM_SO_FIRED k) + 1)
  if rept then m else ({ m with pm := { m.pm with orders := tabSet m.pm.orders k none none } } : Mach).setReg (rPM_SO k) 0

/-- A standing order acts as its command would, and answers the fault that refused it, or 0 (R488). -/
def orderAct (m : Mach) (k : Nat) (o : SOrder) : Mach × Nat :=
  if o.action = 1 then
    let p := pwrParams o.params
    let f := pwrFault m p
    if f ≠ 0 then (raiseT m f 0 k, f)
    else
      let r := acceptPower m p.mask p.st true 0
      (pumpPower (setMasks r.1 r.2.1 r.2.2), 0)
  else
    let p := perfParams o.params
    let f := perfFault m p
    if f ≠ 0 then (raiseT m f 0 k, f) else (acceptPerf m p, 0)

/-- Fire a standing order for an event (R488): count it, act as its command would, and notify. -/
def fireOrder (m : Mach) (k : Nat) (o : SOrder) (code : Nat) : Mach :=
  let r := orderAct (orderCounted m k o.rept) k o
  if o.notify then notice r.1 0 0x4A r.2 code k 3 else r.1

/-- A standing order matches an event code; bit 15 is always compared (R487, R488). -/
def orderMatches (o : SOrder) (code : Nat) : Bool :=
  let mk := o.mask ||| 0x8000
  (code &&& mk) == (o.event &&& mk)

/-- Every matching order fires, in ascending INDEX order (R489). -/
def fireOrders (m : Mach) (code : Nat) : Mach :=
  m.pm.orders.foldl (fun m' e =>
    match e.2 with
    | some o => if orderMatches o code then fireOrder m' e.1 o code else m'
    | none => m') m

/-- The class bit of an event code in LH_EVT_PENDING and LH_WAKE_EN (R387). -/
def classBit (code : Nat) : Nat := if code < 0x8000 then 15 else bits code 8 7

/-- Insert an entry into the latch (R387): after every entry, but among those of its AON cycle in ascending order of code. -/
def insertEvent (e : Nat) : List Nat → List Nat
  | [] => [e]
  | x :: xs =>
    if xs.all (fun y => bits y 24 40 * 2 / 25 == bits e 24 40 * 2 / 25) ∧ bits x 24 40 * 2 / 25 = bits e 24 40 * 2 / 25 ∧ bits e 0 16 < bits x 0 16
    then e :: x :: xs
    else x :: insertEvent e xs

/-- The bank of an event's input is powered (R386, R723): touch, buttons, sensor buses and wheels lie on VIO_A, the sideband and QSPI on VIO_H. -/
def bankOn (m : Mach) (code : Nat) : Bool :=
  let c := bits code 8 7
  if code < 0x8000 then true
  else if c = 2 ∨ c = 3 ∨ c = 4 ∨ c = 5 ∨ c = 9 ∨ c = 10 then m.pd.vioA
  else if c = 11 then m.pd.vioH else true

/-- The entry of an event (R387): code, tenant, COARSE and device time. -/
def eventEntry (m : Mach) (code tenant : Nat) : Nat :=
  code % 65536 + 65536 * (tenant % 64) + 2 ^ 22 * b2n (coarse m) + 2 ^ 24 * (m.clk.now % 2 ^ 40)

/-- What an event does beside its entry: the class summary (R387), standing orders (R488) and a wake (R388). -/
def eventPosted (m : Mach) (code : Nat) : Mach :=
  let m := fireOrders (m.setFlagOf rLH_EVT_PENDING (classBit code) true) code
  if m.flagOf rLH_WAKE_EN (classBit code) then
    wake m { cls := bits code 8 7, index := code % 256, cascade := decide (code < 0x8000) }
  else m

/-- Post an event (R387): store its entry or count it lost, set the class summary, fire standing orders (R488), wake (R388). -/
def postEvent (m : Mach) (code tenant : Nat) : Mach :=
  if !bankOn m code then m else
  eventPosted
    (if m.latch.length < 64 then { m with latch := insertEvent (eventEntry m code tenant) m.latch }
     else raiseD (m.satFld rLH_EVT_LOST 0 32 1) 0x0807 0) code

end Sys2Proof.Machine
end

