-- ==== Sys2Proof/Machine/Init.lean ====
section
/-!
DEFINITION. The machine right after a brown-out reset: every register at the reset value of its table (R14), every part empty.
-/
namespace Sys2Proof.Machine

/-- The tick at reset (R16, R54): an empty table, no owner of any resource. -/
def Tick.init : Tick :=
  { shadow := [], active := [], validating := none, accepted := none, bound := [], seam := 960, timing := none, strict := false, halted := 0,
    haltNext := 0, outcomes := [], owner := [], pendScrub := 0, offNext := 0, testNamed := 0, testLeft := none, testAt := 0, testFail := none,
    stretched := 0, lastStretch := none }

/-- The lighthouse at reset: the mute's settling, the VAD and the scanner rest (R696). -/
def Light.init (rtc : Rtc) : Light :=
  { sram := [], blk := [], clearing := 0, tasks := [], frameStart := 0, muteAt := some 0, mutedPart := true, restart := false, settle := 0,
    muteCount := 0, capOn := 0, mirRaised := 0,
    vad := { hop := false, frames := 0, h := 10, mics := 0, xs := [], prev := 0, first := true, floor := 0, pend := none },
    commit := none, xfade := none, starved := 0, undRaised := 0, haps := [],
    touch := { left := [], running := false, queued := false, abort := false, began := 0, frames := 0, due := false, chans := [] },
    btns := [], chgCount := 0, chgDeb := 0, rtc }

/-- The clock of real time at zero (R690). -/
def Rtc.init : Rtc := ⟨0, 0, false, 0, 0⟩

/-- The power controller in brown-out reset (R499, R691): HM is on and every other domain off; a start of this KIND is to run. -/
def Power.init (kind : Nat) : Power :=
  { dom := [(26, 0)], trans := [], acts := [], reqs := [], nextReq := 0, onTick := 2 ^ 26, latched := [], orders := [], pendPl := none, pendS := none,
    perfWait := [], start := some kind }

/-- Power delivery at reset, with the banks as their supplies stand (R723, R724). -/
def Deliv.init (vioA vioH vioHHigh : Bool) : Deliv :=
  { tj := Monitor.init, skin := Monitor.init, thermDoms := 0, ntcValid := 0, coolCount := 0, profileNext := none, spent := false,
    undockSpent := false, vresMin := false, regained := false, blocked := false, vioA, vioH, vioHHigh }

/-- The fusion engine while it has never run. -/
def Fusion.init : Fusion :=
  { ents := [], q := [], v := [], p := [], bg := [], ba := [], kf := 0, still := 0, accSum := [], magSum := [], nextK := 0, lastStep := 0,
    hold := 0, lastOdo := 0, odoSpeed := 0, count := 0, owesReset := false, late := false, missRaised := false, ringGen := 0 }

/-- The fabric at reset (R620, R624): a node alone, whose fabric time is its device time. -/
def Fab.init : Fab :=
  { ports := List.replicate 4 ChPort.init, asm := [], inbox := [], topos := [], topoSeq := 0, topoAt := 0, leader := 0, assign := none, pend := none,
    lastGen := 0, lastDigest := [], lastAssignLeader := 0, oldUntil := none, causes := 0, oFrom := 0, oTo := 0, oAt := 0, rate := 0, bad := 0,
    good := 0, stepNext := false, align := none, jobs := [], recs := [], parts := [], outs := [], digests := [], verdicts := [], lost := [],
    oNext := none, topoNow := [], topoTick := 0, full := false, early := [] }

/-- The flash as manufactured: mounted never, with nothing in it (log 70). -/
def Flash.init : Flash :=
  { writes := [], images := [], ingest := none, reads := [], backlog := [], limit := 60000, selector := none, records := [], clean := true, boots := 0,
    unclean := 0, relocs := 0, bad := 0, readOnly := false, wear := 0 }

/-- The harbourmaster at reset (R555, R571, R588): no rule, no tenant but tenant 0, no challenge. -/
def Harbour.init : Harbour :=
  { rules := [], fence := none, ten := [], fw := none, mb := List.replicate 48 0, challenge := false, unlocking := false, extest := false }

/-- Clocks at reset: device time and the tick counter are 0 (R17, R403). -/
def Clk.init : Clk :=
  { now := 0, tick := 0, tickStart := 0, refStopped := false, coarse13 := false, restartAt := 0, coarseTick := false, coarsePast := [], stopAt := 0,
    inSeam := false, xtalStarting := false }

/-- The machine in brown-out reset, but for what outlives it (R536): a start of this KIND is to run. -/
def Mach.inReset (kind fresh : Nat) (rtc : Rtc) (latch : List Nat) (fl : Flash) (pd : Deliv) : Mach :=
  { regs := [], shadow := [], held := [], clk := Clk.init,
    ef := { rings := [], dev := [], buf := [], raised := [] },
    hs := { queues := [], cmds := [], held := [], sram := [], stage := [], regions := [], qspiBuf := [], frameErr := false, notify := [], owed := [],
            resident := 0 },
    pm := Power.init kind, pd, latch, tk := Tick.init,
    st := { s := [], p := [], d := [], v := [], berth := [], runs := [] },
    sto := { progs := [], loading := [], unloadTenants := 0 }, cas := [], lh := Light.init rtc,
    mem := { allocs := [], gens := [], mans := [], lists := [], xfers := [], nextUid := 0, nextId := 0, decay := 512, promote := 24, demote := 4, ceCount := 0 },
    fl, hm := Harbour.init, sn := { ctx := [], ring := [], vc := [], seqs := [], wheels := [], lanes := [] }, fu := Fusion.init, ch := Fab.init,
    out := [], fresh }

/-- The machine when it is powered for the first time: a power-on start is to run (R690). -/
def Mach.first : Mach := Mach.inReset 0 0 Rtc.init [] Flash.init (Deliv.init true false false)

end Sys2Proof.Machine
end

