-- ==== Sys2Proof/Machine/State.lean ====
section
/-!
DEFINITION. The state of the device as one piece of plain data, the reasons a step can stop, and the machine after reset.
-/
namespace Sys2Proof.Machine

/-- The faults of the model itself. Every fault of the device is a record of its fault log (R700) and stops nothing. -/
inductive Fault where
  /-- Raised by no command of this model: the spec gives every command of the table an effect. Safe. -/
  | noEffectGiven (mnemonic : String)
  deriving DecidableEq, Repr

/-- The refusals of the model itself. -/
inductive Refusal where
  /-- Raised by the dispatch for a command whose meaning is not written yet. Safe. -/
  | notModelled (mnemonic : String)
  deriving DecidableEq, Repr

/-- The state: the commands that wait, first in first out; what is fused; and the machine. -/
structure State where
  pending : List Instr
  fuses : Fuses
  mach : Mach
  deriving DecidableEq, Repr

/-- The machine right after reset: powered for the first time, with nothing enrolled, no command waiting and its start still to run. -/
def State.reset : State := { pending := [], fuses := ⟨none, 0⟩, mach := Mach.first }

end Sys2Proof.Machine
end

