-- ==== Sys2Proof/Machine/Effect.lean ====
section
/-!
DEFINITION. How a command's effect on the machine becomes the outcome of a step.
-/
namespace Sys2Proof.Machine

/-- A completion that falls due while the link is in L1.2 raises HOST (R682). -/
def wakeHost (m : Mach) : Mach :=
  if !m.hs.held.isEmpty && !inD3 m && eventual m 17 == 1 then raiseDomains m [17] else m

/-- Carry out an effect on the machine: what the last command sent is forgotten, and the faults raised in the command are written to the
rings at its end, in ascending CODE order (R701). -/
def runEffect (f : Mach → Mach) (m : Mach) : Mach := flushFaults (wakeHost (f { m with out := [] }))

/-- The outcome of a command that acts on the machine only: a next state. -/
def State.effect (s : State) (f : Mach → Mach) : Host.Outcome State Fault Refusal := .next { s with mach := runEffect f s.mach }

/-- The outcome of a command that reads the fuses. -/
def State.effectF (s : State) (f : Fuses → Mach → Mach) : Host.Outcome State Fault Refusal :=
  .next { s with mach := runEffect (f s.fuses) s.mach }

end Sys2Proof.Machine
end

