-- ==== Sys2Proof/Config.lean ====
section
/-!
DEFINITION. What the spec leaves open, as constants without a body: nothing can be proved of their values.
-/
namespace Sys2Proof.Config

/-- Free values drawn one after another from the counter of the machine (log 1): nonces (R554), challenges (R585), keys. -/
opaque freeValue : Nat → Nat

/-- Which NaN encoding max and min pooling write for an FP8 element: R170 names the canonical NaN of FP32, FP64, FP16 and BF16 only
(log 34). -/
opaque fp8NaN : Nat → Nat

/-- The 128-bit unique ID of the part (R558). -/
opaque uid : Nat

/-- The DER device certificate and the DER device-CA certificate of the part (R578). -/
opaque devCert : List Byte
opaque caCert : List Byte

/-- The vendor key hash fused at manufacture (R570). -/
opaque vendorKeyHash : List Byte

/-- The 8 bytes of the ROM identifier (R571). -/
opaque romId : List Byte

/-- The public key, x ∥ y, of a key hash: the device keeps the hash of a key, and the spec does not say where an unlock finds the key (R585). -/
opaque keyOfHash : List Byte → List Byte

/-- The identity public key, x ∥ y, of the part (R558). -/
opaque identityKey : List Byte

/-- A signature made with the identity key, r ∥ s as a number, over a message, with a fresh value (R580). -/
opaque identitySign : Nat → List Byte → Nat

/-- Whether the certificate chain of a CERT report verifies against the Plomir root certificate in the boot ROM, with the device
certificate issued by the device-CA certificate (R616): the root key is not disclosed. -/
opaque chainVerifies : List Byte → Bool

/-- The serialNumber of the device certificate of a CERT report (R578, R616). -/
opaque certSerial : List Byte → Nat

/-! The filter of R450 and the alignment of R451: the spec names the filter and not its arithmetic (log 50). A filter's covariance is a
number that only these functions read. -/

/-- The initial covariance, from the configuration. -/
opaque kfInit : List Nat → Nat

/-- The prediction over the grid intervals of a step, from the covariance and the strapdown's data. -/
opaque kfPredict : Nat → List Nat → Nat

/-- The innovation, the innovation covariance (FP32 words) of a measurement. -/
opaque kfInnov : Nat → List Nat → Nat × Nat

/-- The covariance after a measurement update. -/
opaque kfUpdate : Nat → List Nat → Nat

/-- Element i of the error estimate of a measurement update, as an FP32 word: attitude, velocity, position, gyro bias, accel bias. -/
opaque kfError : Nat → List Nat → Nat → Nat

/-- The attitude with an error estimate added: element i of the quaternion, as an FP64 word. -/
opaque kfAttitude : List Nat → List Nat → Nat → Nat

/-- Standard deviations read from the covariance, as FP32 words: 0 attitude, 1 heading, 2 horizontal position. -/
opaque kfSd : Nat → Nat → Nat

/-- Every element of the covariance is finite. -/
opaque kfFinite : Nat → Bool

/-- The covariance with velocity reset to a standard deviation of 1 m/s (R462). -/
opaque kfResetVel : Nat → Nat

/-- The attitude that initialisation sets from the averages of ACCEL and MAG (R451): element i, as an FP64 word. -/
opaque fuAlign : List Nat → List Nat → Nat → Nat

end Sys2Proof.Config
end

