-- ==== Sys2Proof/Machine/Slots.lean ====
section
/-!
DEFINITION. Slot tables and their entries (R23–R25), quay cycles in reference time (R16, R21, R521), and the slots that name a
resource.
-/
namespace Sys2Proof.Machine

/-- A slot entry (R25). -/
structure Entry where
  start : Nat
  length : Nat
  tenant : Nat
  quad : Nat
  seq : Nat
  vec : Nat
  valid : Bool
  cascade : Bool
  stage : Nat
  program : Nat
  manifest : Nat
  berths : Nat
  deriving DecidableEq, Repr

/-- Word `i` of entry `n` of a table (R24, R25): the header is eight words, an entry eight words. -/
def tabWord (t : Tab Word) (n i : Nat) : Word := tabGet t (8 + 8 * n + i) 0

/-- Entry `n` of a table (R25). -/
def entryOf (t : Tab Word) (n : Nat) : Entry :=
  let w2 := tabWord t n 2
  let w3 := tabWord t n 3
  { start := (tabWord t n 0).toNat, length := (tabWord t n 1).toNat, tenant := fld w2 0 6, quad := fld w2 8 4, seq := fld w2 12 4,
    vec := fld w2 16 8, valid := flag w2 24, cascade := flag w2 25, stage := fld w2 26 3, program := fld w3 0 16,
    manifest := fld w3 16 16, berths := (tabWord t n 4).toNat + 2 ^ 32 * (tabWord t n 5).toNat }

/-- The valid entries of a table with their slot numbers. -/
def validEntries (t : Tab Word) : List (Nat × Entry) :=
  ((List.range 255).map (fun n => (n, entryOf t n))).filter (fun e => e.2.valid)

/-- The tables that count as naming something: the active table, a submission being validated and one waiting for its seam (R103). -/
def namingTables (m : Mach) : List (Tab Word) :=
  m.tk.active :: (m.tk.validating.toList.map (·.table) ++ m.tk.accepted.toList.map (·.table))

/-- A valid entry of the active table or of a pending submission satisfies a test. -/
def anyNaming (m : Mach) (p : Entry → Bool) : Bool :=
  (namingTables m).any (fun t => (validEntries t).any (fun e => p e.2))

/-- The power domains a slot entry names, by index (R475). -/
def entryDomains (e : Entry) : List Nat :=
  bitList e.quad 4 ++ (bitList e.vec 8).map (· + 4) ++ (if e.seq = 0 then [] else [12]) ++ (bitList e.berths 64).map (· + 32)

/-- Quay cycles in 48 reference cycles at a performance level (R16): its frequency is this number times 0.8 MHz. -/
def plQuay (pl : Nat) : Nat :=
  match pl with
  | 0 => 125
  | 1 => 250
  | 2 => 375
  | 3 => 500
  | 4 => 750
  | 5 => 1000
  | 6 => 1250
  | _ => 1500

/-- Reference cycles, rounded up, that `c` quay-clock periods take at a level. -/
def quayToRef (pl c : Nat) : Nat := ceilDiv (c * 48) (plQuay pl)

/-- Device time of quay cycle `c` of the tick, with the cycles stretched so far (R19, R521). -/
def quayTime (m : Mach) (c : Nat) : Nat := m.clk.tickStart + quayToRef (curPl m) (c + m.tk.stretched)

/-- The quay cycle of the tick at the current device time (R19, R521). -/
def quayNow (m : Mach) : Nat := (m.clk.now - m.clk.tickStart) * plQuay (curPl m) / 48 - m.tk.stretched

/-- Device time goes forward to a time, and never back. -/
def advanceTo (m : Mach) (t : Nat) : Mach := { m with clk := { m.clk with now := max m.clk.now t } }

/-- A running slot or task by its identifier. -/
def findRun (m : Mach) (id : Nat) : Option SlotRun := m.st.runs.find? (·.id == id)

/-- The run with the same identifier replaced. -/
def putRun (m : Mach) (r : SlotRun) : Mach :=
  { m with st := { m.st with runs := m.st.runs.map (fun x => if x.id == r.id then r else x) } }

/-- The run is a lighthouse task (R354). -/
def SlotRun.isTask (r : SlotRun) : Bool := decide (256 ≤ r.id)

/-- The first quay cycle after its last: START + LENGTH (R37). -/
def SlotRun.endCycle (r : SlotRun) : Nat := r.start + r.length

/-- SQ_FAULT_WHERE for an instruction of a run (R105). -/
def faultWhere (r : SlotRun) (i : Ins) : Nat := r.id % 256 + 256 * (i.stream % 4) + 1024 * (i.word % 2 ^ 19)

/-- Raise a run-time fault of an instruction (R112, R154): for the slot's tenant, with its place and issue cycle (R105, R700). A fault
of a lighthouse task is raised for its tenant, as 255 in the SLOT field of SQ_FAULT_WHERE. -/
def raiseIns (m : Mach) (code : Nat) (r : SlotRun) (i : Ins) : Mach :=
  let w := if r.isTask then faultWhere { r with id := 255 } i else faultWhere r i
  let m := (m.setRegN rSQ_FAULT_WHERE w).setRegN rSQ_FAULT_CYCLE i.iss
  raiseAt m code r.tenant false (if r.isTask then 0xFFFF else r.id) (if r.isTask then 0xFFFFFFFF else i.iss) w

/-- Halt a tenant at the next seam (R42). -/
def haltAtSeam (m : Mach) (t : Nat) : Mach := { m with tk := { m.tk with haltNext := m.tk.haltNext ||| 2 ^ t } }

/-- Take a quadrant (0–3) or cluster (4–11) offline at the next seam (R176), as a bit of QY_OFFLINE. -/
def offlineAtSeam (m : Mach) (d : Nat) : Mach :=
  { m with tk := { m.tk with offNext := m.tk.offNext ||| 2 ^ (if d < 4 then d else d + 4) } }

/-- Count a timing-dependent choice (R52): cause 0 LATE_SKIP, cause 1 ARRIVAL. -/
def countChoice (m : Mach) (t cause : Nat) : Mach :=
  (m.setRegN (rTK_CHOICE t) (m.regN (rTK_CHOICE t) + 1)).satFld (rTK_CHOICE_CAUSE t) (16 * cause) 16 1

/-- The outcome of a slot's run of this tick. Unlisted slots are IDLE (R46). -/
def setOutcome (m : Mach) (n v : Nat) : Mach := { m with tk := { m.tk with outcomes := tabPut m.tk.outcomes n v } }

/-- A run stops where it stands: its slot keeps its place in the tick and does nothing more in it. -/
def SlotRun.stopped (r : SlotRun) : SlotRun := { r with streams := [], lands := [], accs := [], holds := [], records := [], pilots := [] }

/-- The tick under way runs no slot from here on (R18, R628): running slots stop and are IDLE, and their lists are released at their ends (R247). -/
def idleRuns (m : Mach) : Mach :=
  let m := ((m.st.runs.filter (fun r => !r.isTask)).map (·.id)).foldl (fun m n => setOutcome m n 1) m
  { m with st := { m.st with runs := mapIf (fun r => !r.isTask) SlotRun.stopped m.st.runs } }

end Sys2Proof.Machine
end

