-- ==== Sys2Proof/Machine/Cascade.lean ====
section
/-!
DEFINITION. Wake cascades and the bond (R312–R347): classification of a confidence, decisions, power-up and the enable boundary,
bonds, their commit and their drop, and hand-off to a peer.
-/
namespace Sys2Proof.Machine

/-- A tenant's cascade. -/
def cascOf (m : Mach) (t : Nat) : Option Casc := m.cas.find? (·.tenant == t)

/-- The cascade of the same tenant replaced. -/
def putCasc (m : Mach) (c : Casc) : Mach := { m with cas := m.cas.map (fun x => if x.tenant == c.tenant then c else x) }

/-- A stage that a cascade does not have. -/
def CStage.absent : CStage := ⟨0, 0, 0, 0, false, false, 0, none, false⟩

/-- Stage `k` of a cascade. -/
def Casc.stage (c : Casc) (k : Nat) : CStage := c.stages.getD k CStage.absent

/-- The cascade with stage `k` replaced. -/
def Casc.setStage (c : Casc) (k : Nat) (s : CStage) : Casc := { c with stages := c.stages.set k s }

/-- The bond of stage `k` that exists: open, or with its commit decided or under way. -/
def Casc.bond (c : Casc) (k : Nat) : Option Bond := c.bonds.find? (fun b => b.stage == k && decide (b.st < 3))

/-- The cascade with the existing bond of a stage replaced. -/
def Casc.putBond (c : Casc) (b : Bond) : Casc :=
  { c with bonds := c.bonds.map (fun x => if x.stage == b.stage && decide (x.st < 3) then b else x) }

/-- Berths that a cascade holds bonded now (R339). -/
def Casc.bonded (c : Casc) : Nat := (c.bonds.filter (fun b => decide (b.st < 3))).foldl (fun a b => a ||| b.berths) 0

/-- The decision of a published value (R319): 1 CONFIRM, 0 PREWAKE, 2 DISMISS, as the kinds of R327. -/
def classify (s : CStage) (v : Nat) : Option Nat :=
  if s.con ≤ v then some 1 else if s.pre ≤ v then some 0 else if v ≤ s.dis then some 2 else none

/-- The code of a cascade event (R327). -/
def casEvent (t stage kind : Nat) : Nat := t % 64 + 256 * (stage % 8) + 4096 * (kind % 8)

/-- Post a cascade event, or hold it in the bond of the SPEC stage it concerns, or of the SPEC stage that causes it (R327). -/
def postCas (m : Mach) (t stage kind : Nat) (cause : Option Nat) : Mach :=
  match cascOf m t with
  | none => postEvent m (casEvent t stage kind) t
  | some c =>
    let hold (k : Nat) : Option Bond := if (c.stage k).st = 1 then c.bond k else none
    match hold stage, cause.bind hold with
    | some b, _ => putCasc m (c.putBond { b with events := b.events ++ [casEvent t stage kind] })
    | none, some b => putCasc m (c.putBond { b with events := b.events ++ [casEvent t stage kind] })
    | none, none => postEvent m (casEvent t stage kind) t

/-- The power domains that the active table's slots of a stage name (R324). -/
def stageDomains (m : Mach) (t j : Nat) : List Nat :=
  ((validEntries m.tk.active).filter (fun e => e.2.tenant == t && e.2.cascade && e.2.stage == j)).flatMap (fun e => entryDomains e.2)

/-- Stage `j` leaves DORMANT at device time `d` (R324): its domains power up and its enable boundary is fixed. -/
def enableStage (m : Mach) (c : Casc) (j st d : Nat) : Mach :=
  let s := c.stage j
  let m := putCasc m (c.setStage j { s with st, bound := some (d + c.lead), enabled := false })
  raiseDomains m (stageDomains m c.tenant j)

/-- Stage `j` becomes SPEC: its bond opens, empty (R321, R328). -/
def becomeSpec (m : Mach) (t j d : Nat) (cause : Option Nat) : Mach :=
  match cascOf m t with
  | none => m
  | some c =>
    let b : Bond := { stage := j, berths := 0, tick := m.clk.tick, st := 0, flip := none, conf := none, events := [], flags := 0,
                      heat := [], commits := [], notes := [] }
    postCas (enableStage m { c with bonds := c.bonds ++ [b] } j 1 d) t j 3 cause

/-- Stage `j` becomes LIVE from DORMANT (R321, R362). A MICRO stage runs from the next audio frame boundary and names no domain. -/
def becomeLive (m : Mach) (t j d : Nat) (cause : Option Nat) : Mach :=
  match cascOf m t with
  | none => m
  | some c => postCas (enableStage m c j 2 d) t j 4 cause

/-- Whether no slot of the tenant that names a berth of the bond runs in cycles f to f + 15 (R330): a slot that is running, or a later
slot of the active table whose stage, if it has one, is enabled. -/
def flipFree (m : Mach) (c : Casc) (berths f : Nat) : Bool :=
  m.st.runs.all (fun r => r.isTask || r.streams.isEmpty || r.tenant != c.tenant || (r.berths &&& berths) == 0 || decide (r.endCycle ≤ f)) &&
  (validEntries m.tk.active).all (fun e =>
    e.2.tenant != c.tenant || (e.2.berths &&& berths) == 0 || decide (f + 16 ≤ e.2.start) || decide (e.2.start + e.2.length ≤ f) ||
      (e.2.cascade && !(c.stage e.2.stage).enabled) || (tabFind m.tk.outcomes e.1).any (· != 0))

/-- The first cycle after `d` at which a flip may begin: `d + 1`, or an end cycle of a slot (R330). -/
def flipCycle (m : Mach) (c : Casc) (berths d : Nat) : Option Nat :=
  let cands := (d + 1) :: ((validEntries m.tk.active).map (fun e => e.2.start + e.2.length)).filter (d < ·)
  match cands.filter (flipFree m c berths) with
  | [] => none
  | f :: fs => if m.clk.inSeam then none else some (fs.foldl min f)

/-- Decide the commit of stage `j`'s bond, its flip beginning at `flip`; the earlier flip stands (R330, R344). -/
def commitAt (m : Mach) (t j : Nat) (flip : Option Nat) : Mach :=
  match cascOf m t with
  | none => m
  | some c =>
    match c.bond j with
    | none => m
    | some b =>
      if b.st = 2 then m else
      let f := if b.st = 1 then (match b.flip, flip with | some x, some y => some (min x y) | none, y => y | x, none => x) else flip
      putCasc m (c.putBond { b with st := 1, flip := f })

/-- Drop the existing bond of one stage (R331): the stage returns to DORMANT, what the bond holds is discarded, and its berths wait for
the scrub of the next seam. A flip under way is not disturbed (R149). -/
def dropOne (expired : Bool) (cause : Option Nat) (m : Mach) (t j e : Nat) : Mach :=
  match cascOf m t with
  | none => m
  | some c =>
    match c.bond j with
    | none => m
    | some b =>
      if b.st = 2 ∨ (b.st = 1 ∧ b.flip.any (· < e)) then m else
      let c := c.putBond { b with st := 3, flip := none, conf := none, events := [], flags := 0, heat := [], commits := [], notes := [] }
      let s := c.stage j
      let c := c.setStage j { s with st := 0, bound := none, enabled := false }
      let m := (putCasc m c).satFld (rBR_CAS_DROPS t) (if expired then 16 else 0) 16 1
      postCas m t j 6 cause

/-- Drop the bond of stage `j` and of every higher stage that is SPEC, with effect from quay cycle `e` (R331). -/
def dropBond (m : Mach) (t j e : Nat) (expired : Bool) (cause : Option Nat) : Mach :=
  match (cascOf m t).bind (·.bond j) with
  | none => m
  | some b =>
    if b.st = 2 ∨ (b.st = 1 ∧ b.flip.any (· < e)) then m
    else
      ((List.range 6).filter (j < ·)).foldl (fun m k =>
        if ((cascOf m t).map (fun c => (c.stage k).st)).getD 0 = 1 then dropOne expired cause m t k e else m)
        (dropOne expired cause m t j e)

/-- The quay cycle at which a decision at device time `d` falls. -/
def cycleOf (m : Mach) (d : Nat) : Nat := (d - m.clk.tickStart) * plQuay (curPl m) / 48 - m.tk.stretched

/-- A decision of kind `dec` acts on stage `j` of KIND SLOT (R321). Answers whether it took effect. -/
def actOnSlot (m : Mach) (t j dec d : Nat) (cause : Option Nat) : Mach × Bool :=
  match cascOf m t with
  | none => (m, false)
  | some c =>
    match (c.stage j).st, dec with
    | 0, 0 => (becomeSpec m t j d cause, true)
    | 0, 1 => (becomeLive m t j d cause, true)
    | 1, 1 =>
      match c.bond j with
      | some b => (commitAt m t j (flipCycle m c b.berths (cycleOf m d)), true)
      | none => (m, false)
    | 1, 2 => (dropBond m t j (cycleOf m d + 1) false cause, true)
    | _, _ => (m, false)

/-- A decision of stage `k` acts on its successor (R321, R336, R362). Answers whether it took effect. -/
def actOnNext (m : Mach) (t k dec v d : Nat) (cause : Option Nat) : Mach × Bool :=
  match cascOf m t with
  | none => (m, false)
  | some c =>
    match (c.stage (k + 1)).kind with
    | 2 => if dec = 1 ∧ (c.stage 1).st = 0 then (becomeLive m t 1 d cause, true) else (m, false)
    | 3 => actOnSlot m t (k + 1) dec d cause
    | 4 => (putCasc m { c with sends := c.sends ++ [{ stage := k, dec, value := v, tick := m.clk.tick }] }, true)
    | _ => (m, false)

/-- A LIVE stage retires on its own DISMISS, or on its own CONFIRM where it is set to (R322, R362). -/
def retire (m : Mach) (t k dec : Nat) : Mach × Bool :=
  match cascOf m t with
  | none => (m, false)
  | some c =>
    let s := c.stage k
    let alwaysLive := k == 1 && (c.stage 0).kind == 0
    if 1 ≤ k ∧ s.st = 2 ∧ !alwaysLive ∧ (dec = 2 ∨ (dec = 1 ∧ s.retire)) then
      (postCas (putCasc m (c.setStage k { s with st := 0, bound := none, enabled := false })) t k 7 none, true)
    else (m, false)

/-- A decision of a stage that is not SPEC: it acts on the successor, then the stage may retire; its event is posted where it took
effect (R321, R322, R327). -/
def decideLive (m : Mach) (t k dec v d : Nat) : Mach :=
  let (m1, a) := actOnNext m t k dec v d none
  let (m2, b) := retire m1 t k dec
  if a || b then postCas m2 t k dec none else m2

/-- A decision of a SPEC stage: PREWAKE and CONFIRM act at once as PREWAKE on a SLOT successor, the rest is held (R323). -/
def decideSpec (m : Mach) (t k dec d : Nat) : Mach :=
  match cascOf m t with
  | none => m
  | some c =>
    if dec ≠ 2 ∧ (c.stage (k + 1)).kind = 3 then
      let (m, a) := actOnSlot m t (k + 1) 0 d (some k)
      if a then postCas m t k 0 (some k) else m
    else m

/-- The register that holds a stage's last confidence (R338), with its half. -/
def confReg (t k : Nat) : Nat :=
  if k < 2 then rBR_CAS_CONF01 t else if k < 4 then rBR_CAS_CONF23 t else rBR_CAS_CONF45 t

/-- A stage publishes a confidence at device time `d` (R318, R319, R321, R323). Cascades evaluate decisions only while armed (R312). -/
def publish (m : Mach) (t k v d : Nat) : Mach :=
  match cascOf m t with
  | none => m
  | some c =>
    if !c.armed ∨ (c.stage k).kind = 0 ∨ (c.stage k).kind = 4 then m else
    let m := m.setFldOf (confReg t k) (16 * (k % 2)) 16 v
    if 2 ≤ k ∧ (c.stage k).st = 1 then
      let m := match c.bond k with
        | some b => putCasc m (c.putBond { b with conf := some v })
        | none => m
      match classify (c.stage k) v with
      | some dec => decideSpec m t k dec d
      | none => m
    else
      match classify (c.stage k) v with
      | some dec => decideLive m t k dec v d
      | none => m

/-- The flip of a bond begins: its stage is LIVE from that cycle (R330). -/
def beginFlip (m : Mach) (t j : Nat) : Mach :=
  match cascOf m t with
  | none => m
  | some c =>
    match c.bond j with
    | none => m
    | some b =>
      if b.st ≠ 1 then m else
      let s := c.stage j
      postCas (putCasc m ((c.putBond { b with st := 2 }).setStage j { s with st := 2 })) t j 4 none

/-- Every flip that begins at or before a quay cycle of the tick begins. -/
def beginFlips (m : Mach) (cyc : Nat) : Mach :=
  (m.cas.flatMap (fun c => (c.bonds.filter (fun b => b.st == 1 && b.flip.any (· ≤ cyc))).map (fun b => (c.tenant, b.stage)))).foldl
    (fun m p => beginFlip m p.1 p.2) m

/-- Disarm at once (R315): every bond is dropped and every stage returns to DORMANT. -/
def disarmNow (m : Mach) (t : Nat) : Mach :=
  let m := ((List.range 6).filter (2 ≤ ·)).foldl (fun m k => dropBond m t k (quayNow m + 1) false none) m
  match cascOf m t with
  | none => m
  | some c =>
    putCasc m { c with armed := false, disarming := false, sends := [],
                       stages := c.stages.map (fun s => { s with st := 0, bound := none, enabled := false }) }

/-- Credit the heat of a list of allocations and bytes (R236): HEAT of each touched page grows by one for each credit. -/
def creditHeatList (m : Mach) (hs : List (Nat × Nat)) (credit : Mach → Nat → Nat → Mach) : Mach :=
  hs.foldl (fun m h => credit m h.1 h.2) m

/-- A flip's last cycle (R330): the berths are ordinary, held heat, flags and events take effect, the held commits and the held
confidence act (R323, R345), run notices are posted (R677), and a waiting disarm takes effect (R315). `credit` credits one entry of deferred heat,
`note` posts one notice. -/
def endFlip (credit : Mach → Nat → Nat → Mach) (note : Mach → Nat × Nat × Nat × Nat → Mach) (m : Mach) (t j d : Nat) : Mach :=
  match cascOf m t with
  | none => m
  | some c =>
    match c.bond j with
    | none => m
    | some b =>
      if b.st ≠ 2 then m else
      let m := putCasc m { c with bonds := c.bonds.filter (fun x => x != b) }
      let m := creditHeatList m b.heat credit
      let m := m.setReg (rQY_FLAGS t) (m.reg (rQY_FLAGS t) ||| BitVec.ofNat 32 b.flags)
      let m := b.notes.foldl note (b.events.foldl (fun m e => postEvent m e t) m)
      let m := m.setRegN (rBR_CAS_COMMITS t) (m.regN (rBR_CAS_COMMITS t) + 1)
      let m := postCas m t j 5 none
      let m := b.commits.foldl (fun m k =>
        match (cascOf m t).bind (fun c => (c.bond k).map (fun x => (c, x))) with
        | some (c, x) => commitAt m t k (flipCycle m c x.berths (cycleOf m d))
        | none => m) m
      let m := match b.conf, cascOf m t with
        | some v, some c =>
          match classify (c.stage j) v with
          | some dec => decideLive m t j dec v d
          | none => m
        | _, _ => m
      match cascOf m t with
      | some c => if c.disarming ∧ !c.bonds.any (fun x => x.st == 2) then disarmNow m t else m
      | none => m

/-- Whether a run may touch a berth (R81, R329, R333): the berth is in its slot, and a bonded berth only by speculative runs of its
stage (to write) or of that stage and higher ones (to read); a speculative run writes no other berth. -/
def mayTouch (m : Mach) (r : SlotRun) (b : Nat) (write : Bool) : Bool :=
  bit r.berths b &&
  (match (m.cas.flatMap (fun c => (c.bonds.filter (fun x => bit x.berths b)).map (fun x => (c.tenant, x)))).head? with
   | none => !(write && r.spec)
   | some (t, x) => r.spec && r.tenant == t && x.st != 2 && (if write then r.stage == x.stage else decide (x.stage ≤ r.stage)))

/-- Where the effects of a speculative run are held: the bond of its stage, still existing. -/
def runBond (m : Mach) (r : SlotRun) : Option (Casc × Bond) :=
  (cascOf m r.tenant).bind (fun c => (c.bond r.stage).map (fun b => (c, b)))

/-- Numeric flags of a landing (R175): into QY_FLAGS_t, or the bond of a speculative run, where one still exists. -/
def setNumFlags (m : Mach) (r : SlotRun) (mask : Nat) : Mach :=
  if mask = 0 then m
  else if r.spec then
    match runBond m r with
    | some (c, b) => putCasc m (c.putBond { b with flags := b.flags ||| mask })
    | none => m
  else m.setReg (rQY_FLAGS r.tenant) (m.reg (rQY_FLAGS r.tenant) ||| BitVec.ofNat 32 mask)

end Sys2Proof.Machine
end

