-- ==== Sys2Proof/Machine/Flags.lean ====
section
/-!
DEFINITION. The numeric flags of R179, and the flags of one elementary operation (R175).
-/
namespace Sys2Proof.Machine

/-- INVALID: an elementary operation produced a NaN from inputs none of which was NaN (R179). -/
def fINVALID : Nat := 1

/-- NAN_IN: an elementary operation received a NaN input, or a product used an MX scale of 255 (R179). -/
def fNANIN : Nat := 2

/-- OVERFLOW: a rounding turned a finite result into infinity (R179). -/
def fOVERFLOW : Nat := 4

/-- INT_SAT: an integer addition saturated (R168, R179). -/
def fINTSAT : Nat := 8

/-- CVT_SAT: a VCVT saturated or converted NaN to an integer (R179). -/
def fCVTSAT : Nat := 16

/-- INVALID or NAN_IN of one elementary operation, from whether an input and whether the result is NaN (R179). -/
def opFlags (nanIn nanOut : Bool) : Nat := if nanIn then fNANIN else if nanOut then fINVALID else 0

/-- The INT32 sum of R168 with INT_SAT where it saturates. -/
def satAddI32 (a b : Int) : Int × Nat :=
  let s := a + b
  if s < -2147483648 then (-2147483648, fINTSAT) else if 2147483647 < s then (2147483647, fINTSAT) else (s, 0)

end Sys2Proof.Machine
end

