-- ==== Sys2Proof/Machine/Float.lean ====
section
/-!
DEFINITION. Exact values of the number formats (R157), rounding (R168), special values (R169, R170) and the numeric flags (R175, R179).
A finite value is a sign, a magnitude and a binary exponent, so that sums and products are exact before the one rounding.
-/
namespace Sys2Proof.Machine

/-- The exact value of an element: NaN, an infinity, or ±m·2^e (R157, R169). -/
inductive Fl where
  | nan
  | inf (neg : Bool)
  | fin (neg : Bool) (m : Nat) (e : Int)
  deriving DecidableEq, Repr

/-- A binary format: exponent bits, mantissa bits, bias, and whether its top exponent holds infinity and NaN as IEEE 754 does (R157). -/
structure FFmt where
  ebits : Nat
  mbits : Nat
  bias : Nat
  ieee : Bool
  deriving DecidableEq, Repr

def fmtFP32 : FFmt := ⟨8, 23, 127, true⟩
def fmtFP64 : FFmt := ⟨11, 52, 1023, true⟩
def fmtFP16 : FFmt := ⟨5, 10, 15, true⟩
def fmtBF16 : FFmt := ⟨8, 7, 127, true⟩
def fmtE4M3 : FFmt := ⟨4, 3, 7, false⟩
def fmtE5M2 : FFmt := ⟨5, 2, 15, true⟩
def fmtE2M3 : FFmt := ⟨2, 3, 1, false⟩
def fmtE3M2 : FFmt := ⟨3, 2, 3, false⟩
def fmtE2M1 : FFmt := ⟨2, 1, 1, false⟩

/-- The width of a format in bits. -/
def FFmt.width (f : FFmt) : Nat := 1 + f.ebits + f.mbits

/-- The exponent of the least subnormal's unit. -/
def FFmt.qmin (f : FFmt) : Int := 1 - (f.bias : Int) - (f.mbits : Int)

/-- The magnitude code of infinity in a format that has one. -/
def FFmt.infCode (f : FFmt) : Nat := (2 ^ f.ebits - 1) * 2 ^ f.mbits

/-- The magnitude code of the canonical quiet NaN (R170). -/
def FFmt.nanCode (f : FFmt) : Nat := f.infCode + 2 ^ (f.mbits - 1)

/-- The value an encoding stands for (R157): E4M3 has NaN at S.1111.111 only, and the MX element formats have neither NaN nor infinity. -/
def FFmt.decode (f : FFmt) (b : Nat) : Fl :=
  let neg := b.testBit (f.ebits + f.mbits)
  let ex := bits b f.mbits f.ebits
  let ma := bits b 0 f.mbits
  if f.ieee ∧ ex = 2 ^ f.ebits - 1 then (if ma = 0 then .inf neg else .nan)
  else if f = fmtE4M3 ∧ ex = 15 ∧ ma = 7 then .nan
  else if ex = 0 then .fin neg ma f.qmin
  else .fin neg (2 ^ f.mbits + ma) (f.qmin + (ex : Int) - 1)

/-- m / 2^s rounded to the nearest integer, ties to even (R168). -/
def rneShift (m s : Nat) : Nat :=
  let q := m >>> s
  let r := m % 2 ^ s
  if 2 * r < 2 ^ s then q else if 2 ^ s < 2 * r then q + 1 else q + q % 2

/-- The magnitude code of m·2^e rounded to nearest, ties to even, subnormals honoured; it may reach or pass the code of infinity (R168). -/
def FFmt.roundMag (f : FFmt) (m : Nat) (e : Int) : Nat :=
  if m = 0 then 0 else
  let top : Int := e + (Nat.log2 m : Int)
  let q : Int := max (top - (f.mbits : Int)) f.qmin
  let k := if q ≤ e then m <<< (e - q).toNat else rneShift m (q - e).toNat
  (q - f.qmin).toNat * 2 ^ f.mbits + k

/-- A value rounded to an IEEE format, with the OVERFLOW flag where a finite value became infinity (R168, R179). -/
def FFmt.round (f : FFmt) : Fl → Fl × Nat
  | .nan => (.nan, 0)
  | .inf n => (.inf n, 0)
  | .fin n m e =>
    let c := f.roundMag m e
    if f.infCode ≤ c then (.inf n, fOVERFLOW)
    else
      match f.decode c with
      | .fin _ m' e' => (.fin n m' e', 0)
      | v => (v, 0)

/-- The encoding of a value of an IEEE format; NaN is the canonical one (R170). -/
def FFmt.encode (f : FFmt) : Fl → Nat
  | .nan => f.nanCode
  | .inf n => b2n n * 2 ^ (f.ebits + f.mbits) + f.infCode
  | .fin n m e => b2n n * 2 ^ (f.ebits + f.mbits) + f.roundMag m e

/-- Whether a value is NaN. -/
def Fl.isNaN : Fl → Bool
  | .nan => true
  | _ => false

/-- The sign of a value. -/
def Fl.neg : Fl → Bool
  | .nan => false
  | .inf n => n
  | .fin n _ _ => n

/-- The value with its sign changed. -/
def Fl.negate : Fl → Fl
  | .nan => .nan
  | .inf n => .inf (!n)
  | .fin n m e => .fin (!n) m e

/-- A finite value as an integer multiple of 2^e0, for e0 at or below its exponent. -/
def scaled (n : Bool) (m : Nat) (e e0 : Int) : Int :=
  let k : Int := ((m <<< (e - e0).toNat : Nat) : Int)
  if n then -k else k

/-- The exact sum of two values (R162, R168, R169). -/
def Fl.add : Fl → Fl → Fl
  | .nan, _ => .nan
  | _, .nan => .nan
  | .inf a, .inf b => if a = b then .inf a else .nan
  | .inf a, .fin _ _ _ => .inf a
  | .fin _ _ _, .inf b => .inf b
  | .fin n m e, .fin n' m' e' =>
    if m = 0 ∧ m' = 0 then .fin (n && n') 0 0
    else
      let e0 := min e e'
      let s := scaled n m e e0 + scaled n' m' e' e0
      .fin (decide (s < 0)) s.natAbs e0

/-- The exact product of two values (R161, R168, R169). -/
def Fl.mul : Fl → Fl → Fl
  | .nan, _ => .nan
  | _, .nan => .nan
  | .inf a, .inf b => .inf (a != b)
  | .inf a, .fin n m _ => if m = 0 then .nan else .inf (a != n)
  | .fin n m _, .inf b => if m = 0 then .nan else .inf (n != b)
  | .fin n m e, .fin n' m' e' => .fin (n != n') (m * m') (e + e')

/-- A result with the flags that its elementary operations raised. -/
abbrev FR := Fl × Nat

/-- One elementary operation: the exact result rounded once to the format, with its flags (R168, R171, R179). -/
def rounded (f : FFmt) (ins : List Fl) (r : Fl) : FR :=
  let (v, o) := f.round r
  (v, opFlags (ins.any Fl.isNaN) r.isNaN ||| o)

/-- An add rounded once to a format (R162, R171). -/
def fAdd (f : FFmt) (a b : Fl) : FR := rounded f [a, b] (a.add b)

/-- A multiplication rounded once to a format (R171). -/
def fMul (f : FFmt) (a b : Fl) : FR := rounded f [a, b] (a.mul b)

/-- a × b + c with a single rounding (R171). -/
def fFma (f : FFmt) (a b c : Fl) : FR := rounded f [a, b, c] ((a.mul b).add c)

/-- m / d · 2^e to at least `p` significant bits, with a sticky bit below them, as a magnitude and an exponent. -/
def quotSticky (p m d : Nat) (e : Int) : Nat × Int :=
  let s := p + Nat.log2 d + 1 - Nat.log2 m
  let q := (m <<< s) / d
  let r := (m <<< s) % d
  (2 * q + (if r = 0 then 0 else 1), e - (s : Int) - 1)

/-- The quotient, exact or with enough bits and a sticky bit for one rounding (R171). -/
def Fl.div (p : Nat) : Fl → Fl → Fl
  | .nan, _ => .nan
  | _, .nan => .nan
  | .inf _, .inf _ => .nan
  | .inf a, .fin n _ _ => .inf (a != n)
  | .fin n _ _, .inf b => .fin (n != b) 0 0
  | .fin n m e, .fin n' m' e' =>
    if m' = 0 then (if m = 0 then .nan else .inf (n != n'))
    else if m = 0 then .fin (n != n') 0 0
    else
      let (q, x) := quotSticky p m m' (e - e')
      .fin (n != n') q x

/-- A division rounded once to a format (R171). -/
def fDiv (f : FFmt) (a b : Fl) : FR := rounded f [a, b] (a.div (f.mbits + 4) b)

/-- The integer square root, by bits from the top. -/
def isqrtGo (m : Nat) : Nat → Nat → Nat
  | 0, r => r
  | k + 1, r =>
    let c := r + 2 ^ k
    if c * c ≤ m then isqrtGo m k c else isqrtGo m k r

/-- ⌊√m⌋. -/
def isqrt (m : Nat) : Nat := isqrtGo m (Nat.log2 m / 2 + 1) 0

/-- √(m·2^e) with enough bits and a sticky bit for one rounding. -/
def sqrtSticky (p m : Nat) (e : Int) : Nat × Int :=
  let s0 := 2 * p + 4
  let s := if (e - (s0 : Int)) % 2 = 0 then s0 else s0 + 1
  let n := m <<< s
  let r := isqrt n
  (2 * r + (if r * r = n then 0 else 1), (e - (s : Int)) / 2 - 1)

/-- The square root (R171): of −0 it is −0, of a value below −0 it is NaN. -/
def Fl.sqrt (p : Nat) : Fl → Fl
  | .nan => .nan
  | .inf n => if n then .nan else .inf false
  | .fin n m e =>
    if m = 0 then .fin n 0 0
    else if n then .nan
    else
      let (r, x) := sqrtSticky p m e
      .fin false r x

/-- A square root rounded once to a format (R171). -/
def fSqrt (f : FFmt) (a : Fl) : FR := rounded f [a] (a.sqrt (f.mbits + 4))

/-- The sign of a − b for values that are not NaN, −0 and +0 equal. -/
def Fl.cmp : Fl → Fl → Int
  | .nan, _ => 0
  | _, .nan => 0
  | .inf a, .inf b => (if a then -1 else 1) - (if b then -1 else 1)
  | .inf a, .fin _ _ _ => if a then -1 else 1
  | .fin _ _ _, .inf b => if b then 1 else -1
  | .fin n m e, .fin n' m' e' =>
    let e0 := min e e'
    scaled n m e e0 - scaled n' m' e' e0

/-- Whether a value is a zero. -/
def Fl.isZero : Fl → Bool
  | .fin _ 0 _ => true
  | _ => false

/-- a is below b, with −0 below +0 (R172, R200). -/
def Fl.below (a b : Fl) : Bool :=
  decide (a.cmp b < 0) || (a.isZero && b.isZero && a.neg && !b.neg)

/-- Minimum, or NaN where either is (R172). -/
def Fl.minF (a b : Fl) : Fl := if a.isNaN || b.isNaN then .nan else if b.below a then b else a

/-- Maximum, or NaN where either is (R172). -/
def Fl.maxF (a b : Fl) : Fl := if a.isNaN || b.isNaN then .nan else if a.below b then b else a

/-- The nearest integer to a finite magnitude m·2^e, ties to even. -/
def rneInt (m : Nat) (e : Int) : Nat :=
  if 0 ≤ e then m <<< e.toNat else rneShift m (-e).toNat

/-- Element formats of a descriptor's FMT that are floating (R79, R157), MX formats by their element format. -/
def fmtOf : Nat → Option FFmt
  | 2 => some fmtE4M3
  | 3 => some fmtE5M2
  | 4 => some fmtFP16
  | 5 => some fmtBF16
  | 6 => some fmtE4M3
  | 7 => some fmtE5M2
  | 8 => some fmtE2M3
  | 9 => some fmtE3M2
  | 10 => some fmtE2M1
  | 13 => some fmtFP32
  | 14 => some fmtFP64
  | _ => none

/-- The element width of a descriptor's FMT in bits (R157, R159). -/
def fmtBits : Nat → Nat
  | 0 => 4
  | 8 => 6
  | 9 => 6
  | 10 => 4
  | 4 => 16
  | 5 => 16
  | 12 => 32
  | 13 => 32
  | 14 => 64
  | _ => 8

/-- FMT is a Microscaling format (R79). -/
def isMX (f : Nat) : Bool := decide (6 ≤ f ∧ f ≤ 11)

/-- An integer as an exact value; zero is +0. -/
def Fl.ofInt (i : Int) (e : Int) : Fl := .fin (decide (i < 0)) i.natAbs e

/-- The exact value of an element's bits in a descriptor's FMT (R157). -/
def fmtDecode (f b : Nat) : Fl :=
  match fmtOf f with
  | some ff => ff.decode b
  | none => if f = 11 then Fl.ofInt (signedOf 8 b) (-6) else Fl.ofInt (signedOf (fmtBits f) b) 0

/-- The class of a quay operand format: 0 integer, 1 floating, 2 microscaling; none where the quay array does not take it (R158). -/
def fmtClass (f : Nat) : Option Nat :=
  if f ≤ 1 then some 0 else if f ≤ 5 then some 1 else if f ≤ 11 then some 2 else none

end Sys2Proof.Machine
end

