-- ==== Sys2Proof/Machine/Operands.lean ====
section
/-!
DEFINITION. Operand forms: the registers a stream reads (R74), operand 2 (R115), tensor descriptors (R78–R80), the layout of elements
(R159, R160), window parameters (R190), and which bytes of berth space an instruction may reach (R81).
-/
namespace Sys2Proof.Machine

/-- The register bank of a stream: sequencers 0–3, and one bank per lighthouse task (R74, R358). -/
def bankOf (r : SlotRun) (st : Stream) : Nat := if r.isTask then r.id else st.seq

/-- A scalar register. -/
def readS (m : Mach) (bank r : Nat) : BitVec 64 := tabGet m.st.s (64 * bank + r) 0

/-- A predicate; p0 always reads 1 (R74). -/
def readP (m : Mach) (bank p : Nat) : Bool := p = 0 || tabGet m.st.p (8 * bank + p) false

/-- A descriptor register. -/
def readD (m : Mach) (bank r : Nat) : BitVec 512 := tabGet m.st.d (16 * bank + r) 0

/-- A vector register of a cluster. -/
def readV (m : Mach) (cl r : Nat) : BitVec 2048 := tabGet m.st.v (32 * cl + r) 0

/-- A scalar register set. -/
def writeS (m : Mach) (bank r : Nat) (v : BitVec 64) : Mach := { m with st := { m.st with s := tabSet m.st.s (64 * bank + r) v 0 } }

/-- A predicate set; a write to p0 is discarded (R74). -/
def writeP (m : Mach) (bank p : Nat) (v : Bool) : Mach :=
  if p = 0 then m else { m with st := { m.st with p := tabSet m.st.p (8 * bank + p) v false } }

/-- A descriptor register set. -/
def writeD (m : Mach) (bank r : Nat) (v : BitVec 512) : Mach := { m with st := { m.st with d := tabSet m.st.d (16 * bank + r) v 0 } }

/-- A vector register of a cluster set. -/
def writeV (m : Mach) (cl r : Nat) (v : BitVec 2048) : Mach := { m with st := { m.st with v := tabSet m.st.v (32 * cl + r) v 0 } }

/-- A 32-bit immediate sign-extended to 64 bits. -/
def sext64 (v : BitVec 32) : BitVec 64 := v.signExtend 64

/-- Operand 2 of R115. -/
def readOp2 (m : Mach) (bank : Nat) : Op2 → BitVec 64
  | .reg r => readS m bank r.val
  | .imm v => sext64 v

/-- A count read at issue: an immediate, or the low 32 bits of a scalar register (R94, R118). -/
def readCount (m : Mach) (bank : Nat) : Op2 → Nat
  | .reg r => (readS m bank r.val).toNat % 2 ^ 32
  | .imm v => v.toNat

/-! ## Berth space -/

/-- The berth of an address of berth space (R78). -/
def berthOf (a : Nat) : Nat := a / 2 ^ 19

/-- A byte of berth space. -/
def berthByte (m : Mach) (a : Nat) : Byte := tabGet m.st.berth a 0

/-- A byte of berth space set. -/
def setBerthByte (m : Mach) (a : Nat) (b : Byte) : Mach := { m with st := { m.st with berth := tabSet m.st.berth a b 0 } }

/-- A byte at an exact address may be accessed (R81): it lies in berth space, at or below LIMIT, in a berth the run may touch. -/
def byteOk (m : Mach) (r : SlotRun) (lim : Nat) (write : Bool) (a : Int) : Bool :=
  decide (0 ≤ a) && decide (a ≤ (lim : Int)) && decide (a < 33554432) && mayTouch m r (berthOf a.toNat) write

/-- The highest byte address of berth space, the limit of an access without a descriptor (R140). -/
def spaceTop : Nat := 33554431

/-! ## Tensor descriptors -/

/-- A tensor descriptor (R78). -/
structure TDesc where
  base : Nat
  fmt : Nat
  rank : Nat
  cmp : Nat
  shard : Nat
  scaleBase : Nat
  size : List Nat
  stride : List Int
  limit : Nat
  cstride : Int
  deriving DecidableEq, Repr

/-- The fields of a descriptor register (R78). -/
def tdesc (d : BitVec 512) : TDesc :=
  let f := fun w lo n => bits d.toNat (64 * w + lo) n
  { base := f 0 0 25, fmt := f 0 32 4, rank := f 0 36 2, cmp := f 0 38 2, shard := f 0 40 6, scaleBase := f 1 0 25,
    size := [f 2 0 16, f 3 0 16, f 4 0 16, f 5 0 16],
    stride := [signedOf 32 (f 2 32 32), signedOf 32 (f 3 32 32), signedOf 32 (f 4 32 32), signedOf 32 (f 5 32 32)],
    limit := f 6 0 25, cstride := signedOf 32 (f 6 32 32) }

/-- SIZE_k. -/
def TDesc.sz (t : TDesc) (k : Nat) : Nat := t.size.getD k 1

/-- STRIDE_k. -/
def TDesc.str (t : TDesc) (k : Nat) : Int := t.stride.getD k 0

/-- The formats that compress, with their element width (R201). -/
def cmpWidth (fmt : Nat) : Option Nat :=
  if fmt = 1 ∨ fmt = 2 ∨ fmt = 3 then some 8 else if fmt = 4 ∨ fmt = 5 then some 16 else none

/-- A descriptor register is valid: its reserved bits are zero and its fields have valid values (R78, R79, R201). -/
def tdescValid (d : BitVec 512) : Bool :=
  let f := fun w lo n => bits d.toNat (64 * w + lo) n
  let t := tdesc d
  f 0 25 7 == 0 && f 0 46 18 == 0 && f 1 25 39 == 0 && f 2 16 16 == 0 && f 3 16 16 == 0 && f 4 16 16 == 0 && f 5 16 16 == 0 &&
    f 6 25 7 == 0 && f 7 0 64 == 0 &&
    t.fmt != 15 && t.cmp != 3 && (isMX t.fmt || t.scaleBase == 0) && t.str 0 == 0 &&
    (List.range 4).all (fun k => t.sz k != 0 && (decide (k ≤ t.rank) || t.sz k == 1)) &&
    (t.cmp == 0 ||
      ((cmpWidth t.fmt).isSome && t.sz 0 % 8 == 0 && t.sz 1 % 8 == 0 && t.base % 16 == 0 && t.str 1 % 16 == 0 &&
        t.str 2 % 16 == 0 && t.str 3 % 16 == 0))

/-- The bytes of one row of dimension 0 (R159). -/
def TDesc.rowBytes (t : TDesc) : Nat := (t.sz 0 * fmtBits t.fmt + 7) / 8

/-- The address of row (i₁, i₂, i₃) in the cluster of a rank (R80). -/
def TDesc.rowAddr (t : TDesc) (rank i1 i2 i3 : Nat) : Int :=
  (t.base : Int) + (rank : Int) * t.cstride + (i1 : Int) * t.str 1 + (i2 : Int) * t.str 2 + (i3 : Int) * t.str 3

/-- BB: the bytes of a compressed block (R203). -/
def blockBytes (w cmp : Nat) : Nat := 8 * w / (if cmp = 1 then 2 else 4)

/-- The address of the first block of block row `by'` of a plane (R202). -/
def TDesc.blockRow (t : TDesc) (rank by' i2 i3 : Nat) : Int :=
  (t.base : Int) + (rank : Int) * t.cstride + (by' : Int) * t.str 1 + (i2 : Int) * t.str 2 + (i3 : Int) * t.str 3

/-- The address of the scale of block `j` in a row (R160). -/
def TDesc.scaleAddr (t : TDesc) (j i1 i2 i3 : Nat) : Nat :=
  t.scaleBase + (i1 + t.sz 1 * (i2 + t.sz 2 * i3)) * (t.sz 0 / 32) + j

/-- The rows of a tensor in move order: dimension 1 fastest (R142). -/
def TDesc.rows (t : TDesc) : List (Nat × Nat × Nat) :=
  (List.range (t.sz 3)).flatMap (fun i3 => (List.range (t.sz 2)).flatMap (fun i2 => (List.range (t.sz 1)).map (fun i1 => (i1, i2, i3))))

/-- The rows of blocks of a compressed tensor. -/
def TDesc.blockRows (t : TDesc) : List (Nat × Nat × Nat) :=
  (List.range (t.sz 3)).flatMap (fun i3 =>
    (List.range (t.sz 2)).flatMap (fun i2 => (List.range (t.sz 1 / 8)).map (fun b => (b, i2, i3))))

/-- The berths that a byte range touches, as a mask; addresses outside berth space name none. -/
def rangeBerths (a : Int) (n : Nat) : Nat :=
  if n = 0 then 0 else
  let lo := max a 0
  let hi := min (a + (n : Int) - 1) (spaceTop : Int)
  if hi < lo then 0 else
  let b0 := berthOf lo.toNat
  maskOf ((List.range (berthOf hi.toNat + 1 - b0)).map (· + b0))

/-- The berths that a descriptor addresses in a cluster, scales included (R80, R132, R202). -/
def TDesc.berths (t : TDesc) (rank : Nat) : Nat :=
  let data :=
    if t.cmp = 0 then t.rows.foldl (fun a x => a ||| rangeBerths (t.rowAddr rank x.1 x.2.1 x.2.2) t.rowBytes) 0
    else t.blockRows.foldl (fun a x =>
      a ||| rangeBerths (t.blockRow rank x.1 x.2.1 x.2.2) (t.sz 0 / 8 * blockBytes (fmtBits t.fmt) t.cmp)) 0
  if isMX t.fmt then data ||| rangeBerths (t.scaleBase : Int) (t.sz 1 * t.sz 2 * t.sz 3 * (t.sz 0 / 32)) else data

/-- Of a mask of berths, those a run may touch at all: it holds the port of no other (log 32). -/
def reachable (m : Mach) (r : SlotRun) (mask : Nat) : Nat :=
  maskOf ((bitList mask 64).filter (fun b => mayTouch m r b false || mayTouch m r b true))

/-! ## Elements within a row -/

/-- The bits of byte `j` of a row that belong to elements whose every byte is permitted (R81, R159); for writing (`pad`), also the
padding bits of a permitted byte. Elements are `w` bits wide and `n` in number. -/
def eltMask (w n : Nat) (ok : Nat → Bool) (pad : Bool) (j : Nat) : Nat :=
  if 8 ≤ w then (if ok j then 255 else 0)
  else
    maskOf ((List.range 8).filter (fun t =>
      let p := 8 * j + t
      let e := p / w
      if e < n then (List.range ((e * w + w - 1) / 8 + 1 - e * w / 8)).all (fun x => ok (e * w / 8 + x))
      else pad && ok j))

/-- The bits of element `i` of a row of bytes read with `rd`, zero where a byte it needs is not permitted; 8-bit and wider elements
are suppressed byte by byte (R81, R159). -/
def readEltBits (w : Nat) (rd : Nat → Option Byte) (i : Nat) : Nat :=
  if 8 ≤ w then leNat ((List.range (w / 8)).map (fun k => (rd (i * (w / 8) + k)).getD 0))
  else
    let b0 := i * w / 8
    let b1 := (i * w + w - 1) / 8
    let bytes := (List.range (b1 + 1 - b0)).map (fun k => rd (b0 + k))
    if bytes.all Option.isSome then bits (leNat (bytes.map (·.getD 0))) (i * w % 8) w else 0

/-! ## Window parameters -/

/-- The window parameters of CONV and POOL (R190). -/
structure Window where
  kw : Nat
  kh : Nat
  sx : Nat
  sy : Nat
  dx : Nat
  dy : Nat
  padL : Nat
  padR : Nat
  padT : Nat
  padB : Nat
  mode : Nat
  depthwise : Bool
  const : Nat
  deriving DecidableEq, Repr

/-- Read a window-parameter register (R190). -/
def window (d : BitVec 512) : Window :=
  let f := fun w lo n => bits d.toNat (64 * w + lo) n
  { kw := f 0 0 7 + 1, kh := f 0 8 7 + 1, sx := f 0 16 4 + 1, sy := f 0 20 4 + 1, dx := f 0 24 6 + 1, dy := f 0 32 6 + 1,
    padL := f 0 40 6, padR := f 0 46 6, padT := f 0 52 6, padB := f 0 58 6, mode := f 1 0 2, depthwise := f 1 2 1 == 1,
    const := f 1 32 32 }

/-- A window-parameter register is valid for an input format: reserved bits zero, PAD_CONST within the format's width (R190, R191). -/
def windowValid (d : BitVec 512) (fmt : Nat) : Bool :=
  let f := fun w lo n => bits d.toNat (64 * w + lo) n
  f 0 7 1 == 0 && f 0 15 1 == 0 && f 0 30 2 == 0 && f 0 38 2 == 0 && f 1 3 29 == 0 &&
    (List.range 6).all (fun k => f (k + 2) 0 64 == 0) &&
    (let w := if fmtBits fmt ≤ 8 then 8 else if fmtBits fmt = 16 then 16 else 32
     decide (f 1 32 32 < 2 ^ w))

end Sys2Proof.Machine
end

