-- ==== Sys2Proof/Machine/Codec.lean ====
section
/-!
DEFINITION. Feature-map compression: the parameters of R203, the encoder of R205–R207 and the decoder of R208.
-/
namespace Sys2Proof.Machine

/-- The parameters of a coding variant (R203). -/
structure CodecParams where
  b : Nat
  quad : Nat
  avg : Nat
  det : Nat
  baseA : Nat
  baseD : Nat
  bytes : Nat
  deriving DecidableEq, Repr

/-- The parameters of an element width and a rate (R203). -/
def codecParams (b cmp : Nat) : CodecParams :=
  if b = 8 then (if cmp = 1 then ⟨8, 15, 6, 3, 1, 0, 32⟩ else ⟨8, 7, 4, 1, 3, 2, 16⟩)
  else (if cmp = 1 then ⟨16, 31, 13, 6, 2, 5, 64⟩ else ⟨16, 15, 9, 2, 6, 9, 32⟩)

/-- x / 2^s rounded to the nearest integer, ties to even. -/
def rheShift (x : Int) (s : Nat) : Int := if x < 0 then -((rneShift x.natAbs s : Nat) : Int) else ((rneShift x.natAbs s : Nat) : Int)

/-- Saturate to n-bit two's complement. -/
def satInt (n : Nat) (x : Int) : Int := max (-((2 ^ (n - 1) : Nat) : Int)) (min (((2 ^ (n - 1) : Nat) : Int) - 1) x)

/-- The largest finite magnitude code of a compressible floating format. -/
def maxCode (f : FFmt) : Nat := if f = fmtE4M3 then 0x7E else f.infCode - 1

/-- The element bits of v·2^(e − b + 2) (R208): rounded, a magnitude beyond the largest finite value gives that value, zero gives +0. -/
def codecFloat (f : FFmt) (b : Nat) (e v : Int) : Nat :=
  let c := min (f.roundMag v.natAbs (e - (b : Int) + 2)) (maxCode f)
  if c = 0 then 0 else c + b2n (decide (v < 0)) * 2 ^ (f.ebits + f.mbits)

/-- The four values of a quad (R208), from Ŝ and twice the details. -/
def quadValues (b : Nat) (s h v d : Int) : List Int :=
  let r := fun x => satInt b (rheShift x 3)
  [r (2 * s + h + v + d), r (2 * s - h + v - d), r (2 * s + h - v - d), r (2 * s - h - v + d)]

/-- The decoded values of quad `i` of a block's bit string (R204, R208). -/
def decodeQuad (p : CodecParams) (n i : Nat) : List Int :=
  let dsh := bits n 0 3
  let ash := bits n 3 2
  let flat := bits n 5 3 == 1
  let o := 16 + i * p.quad
  let s := signedOf p.avg (bits n o p.avg) * ((2 ^ (p.baseA + ash) : Nat) : Int)
  let det := fun k : Nat => if flat then (0 : Int) else
    (2 * ((bits n (o + p.avg + k * p.det) p.det : Nat) : Int) - ((2 ^ p.det - 1 : Nat) : Int)) * ((2 ^ (p.baseD + dsh) : Nat) : Int)
  quadValues p.b s (det 0) (det 1) (det 2)

/-- Decode a block (R208): its 64 elements in rows of eight, and whether QY_BLOCK_MODE is raised. -/
def decodeBlock (fmt cmp : Nat) (bs : List Byte) : List Nat × Bool :=
  let b := fmtBits fmt
  let p := codecParams b cmp
  let n := leNat bs
  let ex := bits n 8 8
  let zeros := List.replicate 64 0
  if 2 ≤ bits n 5 3 ∨ (fmt = 1 ∧ ex ≠ 0) then (zeros, true)
  else if fmt ≠ 1 ∧ ex = 0 then (zeros, false)
  else
    let quads := (List.range 16).map (decodeQuad p n)
    let el := fun i : Nat =>
      let x := i % 8
      let y := i / 8
      let v := (quads.getD (4 * (y / 2) + x / 2) []).getD (2 * (y % 2) + x % 2) 0
      match (if fmt = 1 then none else fmtOf fmt) with
      | some f => codecFloat f b ((ex : Int) - 127) v
      | none => wrapInt 8 v
    ((List.range 64).map el, false)

/-- The magnitude and sign of a floating element as the encoder takes it (R205): NaN as +0, infinities as the largest finite value. -/
def codecInput (f : FFmt) (w : Nat) : Bool × Nat × Int :=
  match f.decode w with
  | .nan => (false, 0, 0)
  | .inf n =>
    match f.decode (maxCode f) with
    | .fin _ m e => (n, m, e)
    | _ => (n, 0, 0)
  | .fin n m e => if m = 0 then (false, 0, 0) else (n, m, e)

/-- The signed block values of R205, with EXP. -/
def blockValues (fmt : Nat) (els : List Nat) : List Int × Nat :=
  match (if fmt = 1 then none else fmtOf fmt) with
  | none => (els.map (signedOf 8), 0)
  | some f =>
    let xs := els.map (codecInput f)
    let top := fun (x : Bool × Nat × Int) => x.2.2 + (Nat.log2 x.2.1 : Int)
    match xs.filter (fun x => x.2.1 != 0) with
    | [] => (els.map (fun _ => 0), 0)
    | y :: ys =>
      let e := max (ys.foldl (fun a x => max a (top x)) (top y)) (-126)
      let b := fmtBits fmt
      (xs.map (fun x =>
        let k := rneInt x.2.1 (x.2.2 + (b : Int) - 2 - e)
        satInt b (if x.1 then -((k : Nat) : Int) else ((k : Nat) : Int))), (e + 127).toNat)

/-- The sums and details of quad `i` of a block (R206). -/
def quadOf (vs : List Int) (i : Nat) : Int × Int × Int × Int :=
  let at' := fun dx dy => vs.getD (8 * (2 * (i / 4) + dy) + 2 * (i % 4) + dx) 0
  let a := at' 0 0
  let b := at' 1 0
  let c := at' 0 1
  let d := at' 1 1
  (a + b + c + d, a - b + c - d, a + b - c - d, a - b - c + d)

/-- The first of 0 … n that satisfies a test, or n. -/
def firstFit (n : Nat) (p : Nat → Bool) : Nat := ((List.range n).find? p).getD n

/-- The detail code before saturation (R207). -/
def detailCode (p : CodecParams) (dsh : Nat) (x : Int) : Int :=
  rheShift (2 * x + ((2 ^ p.det - 1 : Nat) : Int) * ((2 ^ (p.baseD + dsh) : Nat) : Int)) (p.baseD + dsh + 1)

/-- Encode a block (R205–R207): its BB bytes. -/
def encodeBlock (fmt cmp : Nat) (els : List Nat) : List Byte :=
  let p := codecParams (fmtBits fmt) cmp
  let (vs, ex) := blockValues fmt els
  let qs := (List.range 16).map (quadOf vs)
  let avg := fun ash (s : Int) => rheShift s (p.baseA + ash)
  let aOk := fun ash => qs.all (fun q => satInt p.avg (avg ash q.1) == avg ash q.1)
  let ash := firstFit 3 aOk
  let dets := qs.flatMap (fun q => [q.2.1, q.2.2.1, q.2.2.2])
  let flat := dets.all (· == 0)
  let top : Int := ((2 ^ p.det - 1 : Nat) : Int)
  let dOk := fun dsh => dets.all (fun x => decide (0 ≤ detailCode p dsh x) && decide (detailCode p dsh x ≤ top))
  let dsh := if flat then 0 else firstFit 7 dOk
  let dcode := fun x => if flat then 0 else (max 0 (min top (detailCode p dsh x))).toNat
  let quad := fun (q : Int × Int × Int × Int) =>
    wrapInt p.avg (satInt p.avg (avg ash q.1)) +
      2 ^ p.avg * (dcode q.2.1 + 2 ^ p.det * (dcode q.2.2.1 + 2 ^ p.det * dcode q.2.2.2))
  let body := ((List.range 16).map (fun i => quad (qs.getD i (0, 0, 0, 0)) * 2 ^ (i * p.quad))).foldl (· + ·) 0
  leBytes p.bytes (dsh + 8 * ash + 32 * b2n flat + 256 * ex + 2 ^ 16 * body)

end Sys2Proof.Machine
end

