-- ==== Sys2Proof/Machine/Micro.lean ====
section
/-!
DEFINITION. What a lighthouse task reaches (R355): the SRAM partitions of its tenant, the micro-array (R360) and the stage-1
publication port (R361).
-/
namespace Sys2Proof.Machine

/-- A partition that a tenant may access: it owns it, it is not the firmware's, and it is not being cleared (R353). -/
def partOk (m : Mach) (t p : Nat) : Bool :=
  decide (8 ≤ p ∧ p < 64) && m.fldOf (rLH_PART_OWNER p) 0 6 == t && !bit m.lh.clearing p

/-- A byte range of the lighthouse SRAM lies in partitions a tenant may access (R355). -/
def lhRangeOk (m : Mach) (t a n : Nat) : Bool :=
  decide (a + n ≤ 0x100000) && (n == 0 || ((List.range ((a + n - 1) / 0x4000 + 1 - a / 0x4000)).all (fun k => partOk m t (a / 0x4000 + k))))

/-- Bytes of the lighthouse SRAM. -/
def lhRead (m : Mach) (a n : Nat) : List Byte := memRead m.lh.sram 0 a n

/-- Bytes stored into the lighthouse SRAM. -/
def lhWrite (m : Mach) (a : Nat) (bs : List Byte) : Mach := { m with lh := { m.lh with sram := memWrite m.lh.sram 0 a bs } }

/-- Device time of a lighthouse cycle of the frame: a lighthouse cycle is 25/16 reference cycles (R8). -/
def lhTime (m : Mach) (c : Nat) : Nat := m.lh.frameStart + ceilDiv (c * 25) 16

/-- The task of a run. -/
def taskOf (m : Mach) (r : SlotRun) : Option LhTask := m.lh.tasks.find? (fun t => 256 + t.h == r.id)

/-- The command block of the micro-array (R360). -/
structure MicroCmd where
  a : Nat
  b : Nat
  c : Nat
  m : Nat
  n : Nat
  k : Nat
  acc : Bool
  requant : Bool
  shift : Nat
  deriving DecidableEq, Repr

/-- Read the command block (R360). -/
def microCmd (m : Mach) : MicroCmd :=
  let f := fun o lo n => bits (memNat m.lh.blk o 8) lo n
  { a := f 8 0 32, b := f 16 0 32, c := f 24 0 32, m := f 32 0 16, n := f 32 16 16, k := f 32 32 16, acc := f 40 0 1 == 1,
    requant := f 40 1 1 == 1, shift := f 40 8 5 }

/-- Bytes of an element of C (R360). -/
def MicroCmd.width (q : MicroCmd) : Nat := if q.requant then 1 else 4

/-- Element (i, j) of the micro-array's result (R360): an exact sum, saturated where it accumulates, requantised where asked. -/
def microElt (m : Mach) (q : MicroCmd) (i j : Nat) : Int :=
  let a := (lhRead m (q.a + i * q.k) q.k).map (fun b => b.toInt)
  let b := (lhRead m (q.b + j * q.k) q.k).map (fun b => b.toInt)
  let s := (a.zip b).foldl (fun t p => t + p.1 * p.2) 0
  let old := signedOf (8 * q.width) (leNat (lhRead m (q.c + q.width * (i * q.n + j)) q.width))
  let s := if q.acc then (satAddI32 old s).1 else s
  if q.requant then satInt 8 (rheShift s q.shift) else s

/-- The result bytes, N fastest (R360). -/
def microBytes (m : Mach) (q : MicroCmd) : List Byte :=
  (List.range q.m).flatMap (fun i => (List.range q.n).flatMap (fun j => leBytes q.width (wrapInt (8 * q.width) (microElt m q i j))))

/-- O of R360. -/
def MicroCmd.occupancy (q : MicroCmd) : Nat := ceilDiv q.n 16 * ceilDiv q.k 16 * (16 + q.m)

/-- A start of the micro-array by a task at a cycle of its share (R360). Sizes outside 1–4,096 start nothing (log 33). -/
def microStart (m : Mach) (r : SlotRun) (i : Ins) (c : Nat) : Mach × SlotRun :=
  let q := microCmd m
  let sizeOk := [q.m, q.n, q.k].all (fun x => decide (1 ≤ x ∧ x ≤ 4096))
  if c < r.maBusy then (raiseIns m 0x0803 r i, r)
  else if !sizeOk then (m, r)
  else if !(lhRangeOk m r.tenant q.a (q.m * q.k) && lhRangeOk m r.tenant q.b (q.k * q.n) &&
            lhRangeOk m r.tenant q.c (q.width * q.m * q.n)) then (raiseIns m 0x0802 r i, r)
  else
    let acc : BAcc := { cyc := c + q.occupancy + 8, ins := i, rank := 0, act := .micro q.c (microBytes m q) }
    (m, { r with maBusy := c + q.occupancy, accs := r.accs ++ [acc] })

/-- A store to the stage-1 publication port at a lighthouse cycle (R361): discarded from a GENERAL task, or where the tenant's armed
cascade has no MICRO stage 1. -/
def portPublish (m : Mach) (r : SlotRun) (c v : Nat) : Mach :=
  match taskOf m r, cascOf m r.tenant with
  | some t, some q =>
    if t.role = 0 ∧ q.armed ∧ (q.stage 1).kind = 2 then publish m r.tenant 1 (v % 2 ^ 16) (lhTime m (r.start + c)) else m
  | _, _ => m

end Sys2Proof.Machine
end

