-- ==== Sys2Proof/Machine/Memory.lean ====
section
/-!
DEFINITION. The memory tiers (R223–R241): allocations and their pages, reads and writes of their bytes, flash writes and their order
(R273–R276), buffer references (R671), and heat (R235–R237).
-/
namespace Sys2Proof.Machine

/-! ## Allocations -/

/-- Bytes of a page. -/
abbrev pageSize : Nat := 65536

/-- Home tier of a flag word (R229): 0 DRAM, 1 flash, 2 host memory. -/
def homeTier (flags : Nat) : Nat :=
  if bits flags 4 2 = 1 then 0 else if bit flags 1 then 1 else if bit flags 2 then 2 else 0

/-- Flags of an allocation (R227). -/
def Alloc.home (a : Alloc) : Nat := homeTier a.flags
def Alloc.persist (a : Alloc) : Bool := bit a.flags 3
def Alloc.sharedRo (a : Alloc) : Bool := bit a.flags 6
def Alloc.zeroOnFree (a : Alloc) : Bool := bit a.flags 7
def Alloc.compressOk (a : Alloc) : Bool := bit a.flags 8
def Alloc.noSpec (a : Alloc) : Bool := bit a.flags 9

/-- Bytes of an allocation: whole pages (R226). -/
def Alloc.size (a : Alloc) : Nat := a.pages * pageSize

/-- A page of an allocation. -/
def Alloc.page (a : Alloc) (p : Nat) : Pg := tabGet a.pg p Pg.init

/-- The allocation with a page's state set. -/
def Alloc.setPage (a : Alloc) (p : Nat) (g : Pg) : Alloc := { a with pg := tabSet a.pg p g Pg.init }

/-- Pages of a promotable allocation that are in DRAM, are being copied there, or are still read there (R229, R240). -/
def Alloc.promoted (a : Alloc) : Nat :=
  if a.home = 0 then 0 else (a.pg.filter (fun e => e.2.dram || e.2.old || e.2.copy != 0)).length

/-- DRAM pages of an allocation (R229). -/
def Alloc.dramPages (a : Alloc) : Nat := if a.home = 0 then a.pages else a.promoted

/-- Flash pages of an allocation: its home, or the copy that PERSIST keeps (R230). -/
def Alloc.flashPages (a : Alloc) : Nat := if a.home = 1 ∨ a.persist then a.pages else 0

/-- DRAM pages of a tenant (TM_DRAM_USED_t, R229). -/
def dramUsedBy (m : Mach) (t : Nat) : Nat := ((m.mem.allocs.filter (·.owner == t)).map Alloc.dramPages).foldl (· + ·) 0

/-- DRAM pages of all tenants. -/
def dramUsed (m : Mach) : Nat := (m.mem.allocs.map Alloc.dramPages).foldl (· + ·) 0

/-- Flash pages of all allocations. -/
def flashUsed (m : Mach) : Nat := (m.mem.allocs.map Alloc.flashPages).foldl (· + ·) 0

/-- The allocation of a handle; one that is being freed has ceased to exist (R674). -/
def findAlloc (m : Mach) (h : Nat) : Option Alloc := m.mem.allocs.find? (fun a => a.h == h && a.zeroing.isNone)

/-- The allocation of a handle and a generation. -/
def findGen (m : Mach) (h gen : Nat) : Option Alloc := m.mem.allocs.find? (fun a => a.h == h && a.gen == gen && a.zeroing.isNone)

/-- The allocation with the same handle replaced. -/
def putAlloc (m : Mach) (a : Alloc) : Mach :=
  { m with mem := { m.mem with allocs := m.mem.allocs.map (fun x => if x.h == a.h then a else x) } }

/-- An allocation that a tenant's command may name: its own (R676). -/
def ownAlloc (m : Mach) (t h : Nat) : Option Alloc := (findAlloc m h).filter (·.owner == t)

/-- Pages of a region of host memory that no allocation takes (R679). -/
def regionFree (m : Mach) (r : HostRegion) : Nat :=
  r.pages.length - ((m.mem.allocs.flatMap (·.host)).filter (·.1 == r.id)).foldl (fun n e => n + e.2) 0

/-- Take `n` pages from regions in ascending order of their identifier. -/
def takeHost (m : Mach) : List HostRegion → Nat → List (Nat × Nat)
  | [], _ => []
  | r :: rs, n =>
    let k := min n (regionFree m r)
    if k = 0 then takeHost m rs n else (r.id, k) :: takeHost m rs (n - k)

/-- The flag word breaks R228. -/
def badFlags (m : Mach) (t flags : Nat) : Bool :=
  bits flags 10 6 != 0 || bits flags 4 2 == 3 || bits flags 0 3 == 0 || (bit flags 1 && bit flags 2) || (bit flags 3 && !bit flags 1) ||
  (bits flags 4 2 == 1 && !bit flags 0) || (bits flags 4 2 == 2 && isStrict m t) || (bit flags 2 && isQspi m)

/-- The flash is mounted. -/
def mounted (m : Mach) : Bool := m.flagOf rFL_STATUS 0

/-- Room for the pages of an allocation (R226, R229, R296). -/
def hasRoom (m : Mach) (t flags pages : Nat) : Bool :=
  let home := homeTier flags
  (home != 0 || decide (dramUsed m + pages ≤ 258048)) &&
  (!(home == 1 || bit flags 3) || decide (flashUsed m + pages ≤ 3670016)) && (!bit flags 1 || mounted m) &&
  (home != 2 || decide (pages ≤ ((m.hs.regions.filter (·.owner == t)).map (regionFree m)).foldl (· + ·) 0))

/-- The lowest natural number that a list lacks. -/
def lowestFree (used : List Nat) : Nat := ((List.range (used.length + 1)).find? (fun k => !used.contains k)).getD 0

/-- Create an allocation (R226, R559): the lowest free handle, every byte zero. -/
def createAlloc (m : Mach) (t flags pages : Nat) : Mach × Nat :=
  let h := lowestFree (m.mem.allocs.map (·.h))
  let g := tabGet m.mem.gens h 0 + 1
  let host := if homeTier flags = 2 then takeHost m (m.hs.regions.filter (·.owner == t)) pages else []
  let a : Alloc := { h, owner := t, gen := g, flags, pages, data := [], pg := [], host, zeroing := none }
  ({ m with mem := { m.mem with allocs := m.mem.allocs ++ [a], gens := tabSet m.mem.gens h g 0 } }, h)

/-! ## Bytes -/

/-- A flash write whose bytes a read sees (R276): durable, or held by the write inhibit. -/
def FWrite.seen (w : FWrite) : Bool := (w.done || w.held) && !w.unmapped

/-- Bytes of an allocation as a read sees them (R276). -/
def readAlloc (m : Mach) (a : Alloc) (off n : Nat) : List Byte :=
  let ws := m.fl.writes.filterMap (fun w =>
    match w.act with
    | .page h g o bs => if h = a.h ∧ g = a.gen ∧ w.seen then some (o, bs) else none
    | _ => none)
  memRead (ws.foldl (fun d w => memWrite d 0 w.1 w.2) a.data) 0 off n

/-- Cut bytes at page boundaries: offsets and bytes. -/
def cutPages : Nat → Nat → List Byte → List (Nat × List Byte)
  | 0, _, _ => []
  | fuel + 1, off, bs =>
    if bs.isEmpty then [] else
    let n := pageSize - off % pageSize
    (off, bs.take n) :: cutPages fuel (off + n) (bs.drop n)

/-- The write inhibit is in force (R297). -/
def inhibited (m : Mach) : Bool := m.flagOf rFL_STATUS 2

/-- A flash write joins those that are not durable (R273); the inhibit holds it (R298). -/
def addWrite (m : Mach) (act : WAct) (q cid : Nat) (xf : Option (Nat × Nat × Nat × Nat)) : Mach :=
  let w : FWrite := { id := m.mem.nextId, act, q, cid, xf, held := inhibited m, unmapped := false, done := false }
  { m with fl := { m.fl with writes := m.fl.writes ++ [w] }, mem := { m.mem with nextId := m.mem.nextId + 1 } }

/-- A page of an allocation is kept in flash, so that a write to it becomes durable there (R230). -/
def inFlash (a : Alloc) (p : Nat) : Bool := a.persist || (a.home == 1 && !(a.page p).dram)

/-- A piece of one page was written: its copy under way is abandoned (R241), and a page rewritten whole is no longer poisoned (R266). -/
def touchPage (m : Mach) (h gen off n : Nat) : Mach :=
  match findGen m h gen with
  | none => m
  | some a =>
    let p := off / pageSize
    let g := a.page p
    putAlloc m (a.setPage p { g with copy := 0, poison := g.poison && n != pageSize })

/-- Bytes stored into an allocation's memory. -/
def storeAlloc (m : Mach) (h gen off : Nat) (bs : List Byte) : Mach :=
  match findGen m h gen with
  | none => m
  | some a => touchPage (putAlloc m { a with data := memWrite a.data 0 off bs }) h gen off bs.length

/-- Write bytes to an allocation for a command or a write-back transfer: what lies in DRAM or host memory at once, what is kept in flash
by flash writes, page by page (R230, R273, R275). -/
def writeAlloc (m : Mach) (a : Alloc) (off : Nat) (bs : List Byte) (q cid : Nat) (xf : Option (Nat × Nat × Nat × Nat)) : Mach :=
  (cutPages (bs.length / pageSize + 2) off bs).foldl (fun m p =>
    if inFlash a (p.1 / pageSize) then addWrite m (.page a.h a.gen p.1 p.2) q cid xf else storeAlloc m a.h a.gen p.1 p.2) m

/-- A command still has flash writes that are not durable. -/
def writesOf (m : Mach) (q cid : Nat) : Bool := m.fl.writes.any (fun w => w.q == q && w.cid == cid && !w.done)

/-- The wait code of a command whose flash writes are not durable. -/
abbrev waitWrites : Nat := 1

/-- A command has done its work (R273, R672): it completes now, or once its flash writes are durable. -/
def finish (m : Mach) (q cid op result detail : Nat) (objs : List Nat) : Mach :=
  if writesOf m q cid then running m q cid op waitWrites (some ⟨q, cid, op, 0, result % 2 ^ 32, detail % 2 ^ 32, 0⟩) objs 0 0
  else complete m q cid op 0 result detail

/-- A command that takes time (R674): COMMAND_COMPLETE posts its completion once its flash writes are durable. -/
def taking (m : Mach) (q cid op result : Nat) (objs : List Nat) (lo hi : Nat) : Mach :=
  running m q cid op (if writesOf m q cid then waitWrites else 0) (some ⟨q, cid, op, 0, result % 2 ^ 32, 0, 0⟩) objs lo hi

/-- A page of a byte range of an allocation is poisoned (R266, R282). -/
def poisoned (a : Alloc) (off n : Nat) : Bool :=
  n != 0 && a.pg.any (fun e => decide (off / pageSize ≤ e.1 ∧ e.1 ≤ (off + n - 1) / pageSize) && e.2.poison)

/-- The fault of a read of a poisoned page, by the tier it lies in (R266, R282). -/
def poisonFault (a : Alloc) (p : Nat) : Nat := if a.home = 1 ∧ !(a.page p).dram then 0x0602 else 0x0509

/-! ## Buffer references -/

/-- Bytes of a buffer reference (R671). -/
def refLen (r : BufRef) : Nat := if r.len = 0 then 2 ^ 24 else r.len

/-- Handle and byte offset of a KIND 1 reference (R671). -/
def refHandle (r : BufRef) : Nat := bits r.addr 0 32
def refOff (r : BufRef) : Nat := bits r.addr 32 32 * 64

/-- A reference that R671 allows to a tenant; `beat` asks for a multiple of 64 bytes. -/
def refOk (m : Mach) (t : Nat) (r : BufRef) (beat : Bool) : Bool :=
  let n := refLen r
  !r.resv && decide (r.kind < 4) && (!beat || n % 64 == 0) &&
  (match r.kind with
   | 0 => !isQspi m
   | 1 => (ownAlloc m t (refHandle r)).any (fun a => decide (refOff r + n ≤ a.size))
   | 2 => decide (r.addr < 2 ^ 20) && lhRangeOk m t r.addr n
   | _ => decide (r.addr + n ≤ 8192))

/-- The bytes a reference delivers, or the fault of the access (R266, R671, R673). -/
def readRef (m : Mach) (t : Nat) (r : BufRef) : Except Nat (List Byte) :=
  let n := refLen r
  match r.kind with
  | 0 => match r.dma with
    | some bs => .ok (slice bs 0 n)
    | none => .error 0x0F04
  | 1 => match ownAlloc m t (refHandle r) with
    | some a => if poisoned a (refOff r) n then .error (poisonFault a (refOff r / pageSize)) else .ok (readAlloc m a (refOff r) n)
    | none => .error 0x0F03
  | 2 => .ok (lhRead m r.addr n)
  | _ => .ok (memRead m.hs.stage 0 (8192 * t + r.addr) n)

/-- Deliver bytes to a reference (R671). -/
def writeRef (m : Mach) (t cid : Nat) (r : BufRef) (bs : List Byte) : Mach :=
  match r.kind with
  | 0 => m.emit (.hostData r.addr bs)
  | 1 => match ownAlloc m t (refHandle r) with
    | some a => writeAlloc m a (refOff r) bs t cid none
    | none => m
  | 2 => lhWrite m r.addr bs
  | _ => { m with hs := { m.hs with stage := memWrite m.hs.stage 0 (8192 * t + r.addr) bs } }

/-- A command whose parameters hold a source reference: it is refused where R671 forbids the reference or the access fails. -/
def withRef (m : Mach) (cmd : CmdCtx) (op : Nat) (r : BufRef) (beat : Bool) (f : List Byte → Mach) : Mach :=
  let q := cmd.q.val
  if !refOk m q r beat then refuse m q cmd.cid op 0x0F03 0
  else match readRef m q r with
    | .ok bs => f bs
    | .error e => refuse m q cmd.cid op e 0

/-! ## Heat -/

/-- A page as the heat lists number it: handle, generation and page. -/
def pageKey (h gen p : Nat) : Nat := (gen * 2 ^ 32 + h) * 2 ^ 26 + p

/-- Credit a read of n bytes to a page (R235). -/
def creditHeat (m : Mach) (key n : Nat) : Mach :=
  match findGen m (bits key 26 32) (key / 2 ^ 58) with
  | none => m
  | some a =>
    let p := key % 2 ^ 26
    let g := a.page p
    let s := g.acc + n
    putAlloc m (a.setPage p { g with acc := s % 65536, heat := satAdd 8 g.heat (s / 65536) })

/-- Halve the heat of every page (R237). -/
def decayHeat (m : Mach) : Mach :=
  { m with mem := { m.mem with allocs := m.mem.allocs.map (fun a =>
      a.pg.foldl (fun (b : Alloc) e => b.setPage e.1 { e.2 with heat := e.2.heat / 2 }) a) } }

/-! ## Transfers and lists -/

/-- Raise a fault of a list's run: for its tenant, with its slot. -/
def raiseSlot (m : Mach) (code tenant slot info : Nat) : Mach := raiseAt m code tenant false slot 0xFFFFFFFF info

/-- A fault that keeps a run from its manifest, or ends its write-back (R262, R263): it is raised, and a strict tenant is halted at the next seam. -/
def failRun (m : Mach) (code tenant slot : Nat) : Mach :=
  let m := raiseSlot m code tenant slot 0
  if isStrict m tenant then haltAtSeam m tenant else m

/-- A list, and the list with the same number replaced. -/
def findList (m : Mach) (id : Nat) : Option CList := m.mem.lists.find? (·.id == id)
def putList (m : Mach) (l : CList) : Mach :=
  { m with mem := { m.mem with lists := m.mem.lists.map (fun x => if x.id == l.id then l else x) } }

/-- The input list that the next run of a slot takes: the latest that was not abandoned (R250). -/
def feedList (m : Mach) (slot : Nat) : Option CList := (m.mem.lists.filter (fun l => l.kind == 0 && l.slot == slot && !l.abandoned)).getLast?

/-- A list still has transfers or flash writes that are not complete. -/
def listBusy (m : Mach) (id : Nat) : Bool :=
  m.mem.xfers.any (·.list == id) || m.fl.writes.any (fun w => w.xf.any (·.2.1 == id) && !w.done)

/-- The status of a run's notice: 0 RAN, the fault otherwise; CLASS follows (R677). -/
def runNotice (m : Mach) (slot tenant tick status cls : Nat) : Mach :=
  if tabGet m.hs.notify (64 * slot + tenant) 0 = 0 then m else notice m tenant 0x40 status tick slot cls

/-- A list may have come to its end (R250, R677): an input list whose entries have all landed sets the manifest-complete bit of its slot,
a write-back list posts its run's notice and goes. -/
def listEnd (m : Mach) (id : Nat) : Mach :=
  match findList m id with
  | none => m
  | some l =>
    if listBusy m id then m
    else if l.kind = 0 then
      if l.abandoned then { m with mem := { m.mem with lists := m.mem.lists.filter (·.id != id) } }
      else if l.failed = 0 ∧ !l.withheld ∧ l.fabric = 0 ∧ (feedList m l.slot).any (·.id == id) then m.setFlagOf (rCR_MAN_STATE l.slot) 0 true
      else m
    else
      let m := { m with mem := { m.mem with lists := m.mem.lists.filter (·.id != id) } }
      match l.notice with
      | some (tick, _) => runNotice m l.slot l.tenant tick 0 0
      | none => m

/-- A transfer leaves; its list may have come to its end. -/
def dropXfer (m : Mach) (x : Xfer) : Mach :=
  listEnd { m with mem := { m.mem with xfers := m.mem.xfers.filter (·.id != x.id) } } x.list

/-- A list's run is without its manifest because of a fault (R262). -/
def failList (m : Mach) (id code : Nat) : Mach :=
  match findList m id with
  | some l => putList m { l with failed := if l.failed = 0 then code else l.failed }
  | none => m

/-- Bytes stored into berth space. -/
def writeBerths (m : Mach) (addr : Nat) (bs : List Byte) : Mach := { m with st := { m.st with berth := memWrite m.st.berth 0 addr bs } }

/-- Bytes of berth space. -/
def readBerths (m : Mach) (addr n : Nat) : List Byte := memRead m.st.berth 0 addr n

/-- The first bytes of a transfer move: an input lands them, a write-back stores them where no flash program is needed (R275). -/
def moveBytes (m : Mach) (x : Xfer) (n : Nat) : Mach :=
  match findGen m x.h x.gen with
  | none => m
  | some a =>
    if x.kind = 0 then (if x.noLand then m else writeBerths m x.berth (readAlloc m a x.off n))
    else if inFlash a (x.off / pageSize) then m else storeAlloc m x.h x.gen x.off (readBerths m x.berth n)

/-- An issued transfer is aborted (R262–R264): the beats it has written by then stay written. How many there are is a matter of timing that
the spec does not state: a free value (log 1). -/
def abortOne (st : Nat) (m : Mach) (x : Xfer) : Mach :=
  let (k, m) := m.draw
  let m := moveBytes m x (64 * (Config.freeValue k % (x.len / 64 + 1)))
  { m with mem := { m.mem with xfers := mapIf (·.id == x.id) (fun x => { x with st }) m.mem.xfers } }

/-- End every transfer that satisfies a test, with a state (R262, R263, R564): one that was not issued goes at once, an issued one is aborted
and completes later. States: 2 revoked, 3 its object ceased to exist, 4 overtaken, 5 its list was abandoned. -/
def abortXfers (m : Mach) (p : Xfer → Bool) (st : Nat) : Mach :=
  let hit := m.mem.xfers.filter (fun x => p x && decide (x.st < 2))
  let m := hit.foldl (fun m x => if x.kind = 0 ∧ st ≠ 5 then failList m x.list 0x0507 else m) m
  let m := (hit.filter (·.st == 1)).foldl (abortOne st) m
  (hit.filter (·.st == 0)).foldl dropXfer m

/-- End every flash write that satisfies a test: a held one goes, a begun one ends in an unmapped page (R564). -/
def abortWrites (m : Mach) (p : FWrite → Bool) : Mach :=
  let live := m.fl.writes.filter (fun w => !(p w && w.held && !w.done))
  { m with fl := { m.fl with writes := mapIf (fun w => p w && !w.done) (fun w => { w with unmapped := true }) live } }

/-- Commands that run on an object that ceased to exist complete with HS_BAD_COMMAND (R674, R678). -/
def endCmdsOn (m : Mach) (k : Nat) : Mach :=
  let f := fun (c : RunCmd) => { c with wait := 0, cpl := some ⟨c.q, c.cid, c.op, 0x0F02, 0, 0, 1⟩ }
  { m with hs := { m.hs with cmds := mapIf (fun c => c.begun && c.objs.contains k) f m.hs.cmds } }

/-- An allocation ceases to exist (R225, R232, R262, R674). -/
def dropAlloc (m : Mach) (h : Nat) : Mach :=
  match m.mem.allocs.find? (·.h == h) with
  | none => m
  | some a =>
    let m := endCmdsOn m (objKey 1 h)
    let m := abortXfers m (fun x => x.h == h && x.gen == a.gen) 3
    let m := abortWrites m (fun w => match w.act with | .page wh g _ _ => wh == h && g == a.gen | _ => false)
    { m with mem := { m.mem with allocs := m.mem.allocs.filter (·.h != h) },
             hm := { m.hm with ten := m.hm.ten.map (fun e =>
               (e.1, { e.2 with weights := e.2.weights.filter (fun w => !(w.2.2.2.1 == h && w.2.2.2.2 == a.gen)) })) } }

end Sys2Proof.Machine
end

