-- ==== Sys2Proof/Machine/CasCmds.lean ====
section
/-!
DEFINITION. The cascade commands (R312–R316), the end of a commit flip (R330) and the expiry of a bond (R332).
-/
namespace Sys2Proof.Machine

/-- Stage `s` of a cascade descriptor (R313). -/
def descStage (d : List Byte) (s : Nat) : CStage :=
  { kind := byteFld d (22 + 8 * s) 1, pre := byteFld d (16 + 8 * s) 2, con := byteFld d (18 + 8 * s) 2, dis := byteFld d (20 + 8 * s) 2,
    retire := bit (byteFld d (23 + 8 * s) 1) 0, fromPeer := bit (byteFld d (23 + 8 * s) 1) 1, st := 0, bound := none, enabled := false }

/-- The reason for which R314 rejects a descriptor of a tenant, or 0. -/
def cascadeReason (m : Mach) (t : Nat) (d : List Byte) : Nat :=
  let idx := List.range 6
  let st := descStage d
  let kind := fun s => (st s).kind
  let present := idx.filter (fun s => kind s != 0)
  let peers := present.filter (fun s => kind s == 4)
  let froms := idx.filter (fun s => (st s).fromPeer)
  let lead := byteFld d 8 2
  if d.length ≠ 64 ∨ byteFld d 0 4 ≠ 0x4B4C4353 ∨ byteFld d 4 2 ≠ 1 ∨ 64 ≤ byteFld d 10 1 ∨ 64 ≤ byteFld d 11 1 ∨ 8 ≤ byteFld d 12 1 ∨
      !zeroAt d 13 3 ∨ idx.any (fun s => decide (4 ≤ byteFld d (23 + 8 * s) 1)) then 1
  else if idx.any (fun s => decide (4 < kind s) || (kind s == 1 && s != 0) || (kind s == 2 && s != 1) ||
      ((kind s == 3 || kind s == 4) && decide (s < 2))) then 2
  else if present.any (fun s => decide (s < present.getLastD 0) && kind (s + 1) == 0) ∨ decide (1 < peers.length) ∨
      peers.any (fun s => decide (s < 5) && kind (s + 1) != 0) then 3
  else if present.any (fun s => decide ((st s).pre ≤ (st s).dis ∨ (st s).con < (st s).pre)) then 4
  else if byteFld d 6 1 = 0 ∨ 8 < byteFld d 7 1 ∨ lead < 692 ∨ 38400 < lead then 5
  else if froms.any (fun s => decide (s < 2) || kind (s - 1) != 0 || !peers.isEmpty) then 6
  else if (!peers.isEmpty ∨ !froms.isEmpty) ∧ !(2 ≤ byteFld d 12 1 ∧ byteFld d 12 1 ≤ 5) then 7
  else if (cascOf m t).isSome ∨ 8 ≤ m.cas.length then 8
  else 0

/-- The cascade that a descriptor describes. -/
def descCascade (t : Nat) (d : List Byte) : Casc :=
  { tenant := t, ttl := byteFld d 6 1, max := byteFld d 7 1, lead := byteFld d 8 2, peerNode := byteFld d 10 1, peerTenant := byteFld d 11 1,
    peerStage := byteFld d 12 1, armed := false, disarming := false, stages := (List.range 6).map (descStage d), bonds := [], sends := [] }

/-- The sum of BOND_MAX over the armed cascades (BR_BOND_ARMED). -/
def bondArmed (m : Mach) : Nat := ((m.cas.filter (·.armed)).map (·.max)).foldl (· + ·) 0

/-- Arm a cascade (R315, R362): stages from 2 upward are DORMANT, and a MICRO stage 1 without a stage 0 is LIVE. -/
def armNow (m : Mach) (c : Casc) : Mach :=
  let c := { c with armed := true, disarming := false,
                    stages := c.stages.map (fun s => { s with st := 0, bound := none, enabled := false }) }
  if (c.stage 0).kind = 0 ∧ (c.stage 1).kind = 2 then
    postCas (putCasc m (c.setStage 1 { c.stage 1 with st := 2 })) c.tenant 1 4 none
  else putCasc m c

/-- CAS_CREATE (R312–R314): the issuing tenant owns it; its counts restart. -/
def execCasCreate (cmd : CmdCtx) (r : BufRef) (s : State) : Host.Outcome State Fault Refusal :=
  s.effect (fun m => beginCmd m cmd 0x30 0x0F02 noWait (fun m => withRef m cmd 0x30 r false (fun d =>
    let t := cmd.q.val
    let k := cascadeReason m t d
    if k ≠ 0 then refuse m t cmd.cid 0x30 0x0701 k
    else
      let m := { m with cas := m.cas ++ [descCascade t d] }
      let m := (((m.setRegN (rBR_CAS_COMMITS t) 0).setRegN (rBR_CAS_DROPS t) 0).setRegN (rBR_CAS_CONF01 t) 0)
      let m := (m.setRegN (rBR_CAS_CONF23 t) 0).setRegN (rBR_CAS_CONF45 t) 0
      complete m t cmd.cid 0x30 0 0 0)))

/-- A cascade command on tenant `t`'s cascade (R312, R551, R676): only its owner or tenant 0 may issue it. -/
def casCommand (m : Mach) (cmd : CmdCtx) (op t : Nat) (f : Casc → Mach) : Mach :=
  if cmd.q.val ≠ 0 ∧ cmd.q.val ≠ t then refuse m cmd.q.val cmd.cid op 0x0D01 0
  else match cascOf m t with
    | none => refuse m cmd.q.val cmd.cid op 0x0F02 0
    | some c => f c

/-- CAS_ARM (R315): arming an armed cascade changes nothing. -/
def execCasArm (cmd : CmdCtx) (t : Fin 64) (s : State) : Host.Outcome State Fault Refusal :=
  s.effect (fun m => beginCmd m cmd 0x31 0x0F02 noWait (fun m => casCommand m cmd 0x31 t.val (fun c =>
    if c.armed then complete m cmd.q.val cmd.cid 0x31 0 0 0
    else if 16 < bondArmed m + c.max then refuse m cmd.q.val cmd.cid 0x31 0x0702 0
    else complete (armNow m c) cmd.q.val cmd.cid 0x31 0 0 0)))

/-- CAS_DISARM (R315, R674): during a commit flip it waits for the flip's end. -/
def execCasDisarm (cmd : CmdCtx) (t : Fin 64) (s : State) : Host.Outcome State Fault Refusal :=
  s.effect (fun m => beginCmd m cmd 0x32 0x0F02 (naming (objKey 6 t.val)) (fun m => casCommand m cmd 0x32 t.val (fun c =>
    if !c.armed then complete m cmd.q.val cmd.cid 0x32 0 0 0
    else if c.bonds.any (·.st == 2) then
      running (putCasc m { c with disarming := true }) cmd.q.val cmd.cid 0x32 3 (some ⟨cmd.q.val, cmd.cid, 0x32, 0, 0, 0, 0⟩) [objKey 6 t.val] 0 0
    else complete (disarmNow m t.val) cmd.q.val cmd.cid 0x32 0 0 0)))

/-- A valid entry of the active table or of a pending submission names a stage of a tenant's cascade (R316). -/
def cascadeNamed (m : Mach) (t : Nat) : Bool := anyNaming m (fun e => e.tenant == t && e.cascade)

/-- CAS_DESTROY (R316). -/
def execCasDestroy (cmd : CmdCtx) (t : Fin 64) (s : State) : Host.Outcome State Fault Refusal :=
  s.effect (fun m => beginCmd m cmd 0x33 0x0F02 (naming (objKey 6 t.val)) (fun m => casCommand m cmd 0x33 t.val (fun c =>
    if c.armed ∨ cascadeNamed m t.val then refuse m cmd.q.val cmd.cid 0x33 0x0703 0
    else complete { m with cas := m.cas.filter (·.tenant != t.val) } cmd.q.val cmd.cid 0x33 0 0 0)))

/-- A CAS_DISARM that waited for a flip may complete once the cascade is disarmed. -/
def endDisarm (m : Mach) (t : Nat) : Mach :=
  if (cascOf m t).any (·.disarming) then m
  else
    (m.hs.cmds.filter (fun c => c.op == 0x32 && c.wait == 3 && c.objs.contains (objKey 6 t))).foldl (fun m c => setCmd m c.q c.cid 0 c.cpl) m

/-- COMMIT_FLIP_END (R330): 16 quay cycles after a flip began, or after the start of the seam. -/
def flipEnd (m : Mach) (t j : Nat) : Mach :=
  match (cascOf m t).bind (·.bond j) with
  | none => m
  | some b =>
    let m := match b.flip with
      | some f => advanceTo m (quayTime m (f + 16))
      | none => m
    if b.st = 0 ∨ (b.st = 1 ∧ b.flip.isNone ∧ !m.clk.inSeam) then m
    else
      let m := beginFlip m t j
      let m := if b.flip.isNone then advanceTo m (m.clk.now + quayToRef (curPl m) 16) else m
      endDisarm (endFlip creditHeat (fun m n => runNotice m n.1 t n.2.1 n.2.2.1 n.2.2.2) m t j m.clk.now) t

/-- COMMIT_FLIP_END (R330). -/
def execCommitFlipEnd (t : Fin 64) (j : Fin 8) (s : State) : Host.Outcome State Fault Refusal := s.effect (fun m => flipEnd m t.val j.val)

/-- Device time at which the seam of the tick under way begins: its reference cycle P − S (R35). -/
def seamStart (m : Mach) : Nat := m.clk.tickStart + (m.regN rTK_PERIOD - m.tk.seam)

/-- A bond that has not begun its flip by the seam of tick t + BOND_TTL expires (R332). -/
def bondDue (m : Mach) (c : Casc) (b : Bond) : Bool := decide (b.st < 2 ∧ b.tick + c.ttl ≤ m.clk.tick)

/-- Every bond that is due is dropped (R332, R341). -/
def expireBonds (m : Mach) : Mach :=
  (m.cas.flatMap (fun c => (c.bonds.filter (bondDue m c)).map (fun b => (c.tenant, b.stage)))).foldl (fun m p => dropBond m p.1 p.2 0 true none) m

/-- BOND_EXPIRY (R332): at the start of the seam. -/
def execBondExpiry (t : Fin 64) (j : Fin 8) (s : State) : Host.Outcome State Fault Refusal :=
  s.effect (fun m =>
    match cascOf m t.val with
    | none => m
    | some c =>
      match c.bond j.val with
      | none => m
      | some b =>
        if !bondDue m c b then m
        else
          let m := beginFlips (advanceTo m (seamStart m)) (quayNow (advanceTo m (seamStart m)))
          dropBond m t.val j.val 0 true none)

end Sys2Proof.Machine
end

