-- ==== Sys2Proof/Machine/Seq.lean ====
section
/-!
DEFINITION. Streams, bundles and landing: the order of landings and berth accesses within a run (R86–R92, R132, R143, R210), the issue of
one instruction word (R82–R85, R92, R93, R113), the end of a bundle with its control instruction (R94–R98, R118), and the end of a run
(R39, R148).
-/
namespace Sys2Proof.Machine

/-! ## Landing in registers -/

/-- A landing changes its register, or sets the numeric flags (R87, R175). -/
def applyLand (m : Mach) (r : SlotRun) (a : LandAct) : Mach :=
  match a with
  | .s b x v => writeS m b x v
  | .p b x v => writeP m b x v
  | .d b x v => writeD m b x v
  | .v c x v => writeV m c x v
  | .flags k => setNumFlags m r k

/-- The rank of a landing among those of one cycle: the later-issued instruction, then the higher unit class, is applied last (R89). -/
def landKey (l : Land) : Nat := (l.ins.iss * 4 + l.ins.unit) * 4 + l.ins.stream

/-- Insert into a list by a key, after equal keys. -/
def insertBy {α : Type} (key : α → Nat) (x : α) : List α → List α
  | [] => [x]
  | y :: ys => if key x < key y then x :: y :: ys else y :: insertBy key x ys

/-- Sort by a key, equal keys in their order. -/
def sortBy {α : Type} (key : α → Nat) (l : List α) : List α := l.foldl (fun acc x => insertBy key x acc) []

/-! ## Ports -/

/-- The rank of an access among those that meet at a port: earliest issue first, then the stream (log 31), then the higher unit class,
then the lower cluster rank (R91, R138, R141). -/
def portKey (i : Ins) (rank : Nat) : Nat := ((i.iss * 4 + i.stream) * 4 + (3 - i.unit)) * 16 + rank

/-- A claim on ports in one cycle: its rank, its instruction and cluster, and the berths. -/
structure Claim where
  key : Nat
  ins : Ins
  rank : Nat
  berths : Nat
  deriving DecidableEq, Repr

/-- The bytes an access of its own port addresses, from its first address, its limit and whether it writes; an access under a hold
addresses through the hold. -/
def accRange : AccAct → Option (Int × Nat × Nat × Bool)
  | .load _ a n lim => some (a, n, lim, false)
  | .store a bs lim => some (a, bs.length, lim, true)
  | .beatR b _ => some (b.srow + (b.off : Int), b.len, b.slim, false)
  | .rowR b _ => some (b.srow + (b.off : Int), b.len, b.slim, false)
  | .beatW b _ => some (b.drow + (b.off : Int), b.len, b.dlim, true)
  | _ => none

/-- The berths of the permitted bytes of a range (R81, R91). -/
def okBerths (m : Mach) (r : SlotRun) (a : Int) (n lim : Nat) (write : Bool) : Nat :=
  maskOf ((bitList (rangeBerths a n) 64).filter (fun b =>
    mayTouch m r b write && decide (max a ((b * 2 ^ 19 : Nat) : Int) ≤ (lim : Int))))

/-- The claims of a cycle: every access with a port of its own, and every hold in force. -/
def claimsAt (m : Mach) (r : SlotRun) (k : Nat) : List Claim :=
  (r.accs.filter (·.cyc == k)).filterMap (fun a =>
    (accRange a.act).map (fun (x, n, lim, w) => ⟨portKey a.ins a.rank, a.ins, a.rank, okBerths m r x n lim w⟩)) ++
  (r.holds.filter (fun h => decide (h.frm ≤ k ∧ k ≤ h.til))).map (fun h => ⟨portKey h.ins h.rank, h.ins, h.rank, h.berths⟩)

/-- The berths whose port a claim loses to an earlier-ranked claim of another access (R91). -/
def lostBerths (cs : List Claim) (i : Ins) (rank berths : Nat) : Nat :=
  (cs.filter (fun c => decide (c.key < portKey i rank) && !(c.ins == i && c.rank == rank))).foldl
    (fun acc c => acc ||| (c.berths &&& berths)) 0

/-- SQ_BERTH_RANGE or SQ_PORT_CONFLICT, once per instruction (R111). -/
def raiseRange (m : Mach) (r : SlotRun) (i : Ins) : Mach × SlotRun :=
  if r.ranged.contains i then (m, r) else (raiseIns m 0x0210 r i, { r with ranged := i :: r.ranged })
def raisePort (m : Mach) (r : SlotRun) (i : Ins) : Mach × SlotRun :=
  if r.ported.contains i then (m, r) else (raiseIns m 0x0211 r i, { r with ported := i :: r.ported })

/-- Raise what an access met, range before port (R111). -/
def raiseMet (m : Mach) (r : SlotRun) (i : Ins) (range port : Bool) : Mach × SlotRun :=
  let (m, r) := if range then raiseRange m r i else (m, r)
  if port then raisePort m r i else (m, r)

/-! ## Accesses -/

/-- Whether an address is served: permitted, and its berth's port not lost (R81, R91). -/
def served (m : Mach) (r : SlotRun) (lim : Nat) (write : Bool) (lost : Nat) (a : Int) : Bool :=
  byteOk m r lim write a && !bit lost (berthOf a.toNat)

/-- Whether some byte of a range is not permitted. -/
def rangeBad (m : Mach) (r : SlotRun) (lim : Nat) (write : Bool) (a : Int) (n : Nat) : Bool :=
  (List.range n).any (fun (j : Nat) => !byteOk m r lim write (a + (j : Int)))

/-- A range of bytes as read: a suppressed byte is zero (R81). -/
def readBytes (m : Mach) (r : SlotRun) (lim lost : Nat) (a : Int) (n : Nat) : List Byte :=
  (List.range n).map (fun (j : Nat) => if served m r lim false lost (a + (j : Int)) then berthByte m (a + (j : Int)).toNat else 0)

/-- A range of bytes written where served (R81). -/
def writeBytes (r : SlotRun) (lim lost : Nat) : Mach → Int → List Byte → Mach
  | m, _, [] => m
  | m, a, b :: bs => writeBytes r lim lost (if served m r lim true lost a then setBerthByte m a.toNat b else m) (a + 1) bs

/-- The bytes of a beat as read: bits of suppressed elements and padding bits are zero (R81, R143, R159). -/
def readBeat (m : Mach) (r : SlotRun) (lost : Nat) (b : Beat) : List Byte :=
  let ok := fun j : Nat => served m r b.slim false lost (b.srow + (j : Int))
  (List.range b.len).map (fun j =>
    berthByte m (b.srow + ((b.off + j : Nat) : Int)).toNat &&& BitVec.ofNat 8 (eltMask b.w b.n ok false (b.off + j)))

/-- The bytes of a beat written, bit by bit where elements are suppressed (R81). -/
def writeBeat (m : Mach) (r : SlotRun) (lost : Nat) (b : Beat) (bs : List Byte) : Mach :=
  let ok := fun j : Nat => served m r b.dlim true lost (b.drow + (j : Int))
  ((List.range b.len).zip bs).foldl (fun m' (p : Nat × Byte) =>
    let mask := eltMask b.w b.n ok true (b.off + p.1)
    if mask = 0 then m' else
    let a := (b.drow + ((b.off + p.1 : Nat) : Int)).toNat
    setBerthByte m' a ((berthByte m' a &&& ~~~(BitVec.ofNat 8 mask)) ||| (p.2 &&& BitVec.ofNat 8 mask))) m

/-- The part of a berth mask that a hold has lost in this cycle. -/
def holdOf (r : SlotRun) (h : Nat) : Option Hold := r.holds.find? (·.id == h)

/-- A hold's bytes of its buffer set. -/
def putHold (r : SlotRun) (h : Hold) : SlotRun := { r with holds := r.holds.map (fun x => if x.id == h.id then h else x) }

/-- The element bits of eight rows of an uncompressed tensor, as blocks of 64 in block order (R202). -/
def blocksOf (w blocks rowBytes : Nat) (buf : List Byte) : List (List Nat) :=
  let b := w / 8
  (List.range blocks).map (fun bx => (List.range 64).map (fun i => byteFld buf (i / 8 * rowBytes + (8 * bx + i % 8) * b) b))

/-- The bytes of row `y` of a block row of decoded blocks. -/
def rowOf (w : Nat) (blocks : List (List Nat)) (y : Nat) : List Byte :=
  blocks.flatMap (fun e => (List.range 8).flatMap (fun x => leBytes (w / 8) (e.getD (8 * y + x) 0)))

/-- The address space of a task's load and store: LD.S and ST.S reach the partitions of the task's tenant and the two ports (R355). -/
def taskOk (m : Mach) (r : SlotRun) (a n : Nat) : Bool :=
  lhRangeOk m r.tenant a n || decide (0x100000 ≤ a ∧ a + n ≤ 0x100108)

/-- Bytes a task loads: the command block, the port (which holds nothing), or its partitions. -/
def taskRead (m : Mach) (a n : Nat) : List Byte :=
  if a < 0x100000 then lhRead m a n else if a < 0x100100 then memRead m.lh.blk 0 (a - 0x100000) n else List.replicate n 0

/-- A task's store lands (R355, R360, R361). -/
def taskStore (m : Mach) (r : SlotRun) (i : Ins) (c a : Nat) (bs : List Byte) : Mach × SlotRun :=
  if a < 0x100000 then (lhWrite m a bs, r)
  else if a < 0x100100 then
    let m := { m with lh := { m.lh with blk := memWrite m.lh.blk 0 (a - 0x100000) bs } }
    if a = 0x100000 then microStart m r i c else (m, r)
  else (portPublish m r c (leNat bs), r)

/-- One access carries out its writes at its cycle, with the ports it lost (R90). -/
def serveWrite (cs : List Claim) (k : Nat) (m : Mach) (r : SlotRun) (a : BAcc) : Mach × SlotRun :=
  match a.act with
  | .store x bs lim =>
    if r.isTask then
      if taskOk m r x.toNat bs.length then taskStore m r a.ins k x.toNat bs else (raiseIns m 0x0802 r a.ins, r)
    else
      let lost := lostBerths cs a.ins a.rank (okBerths m r x bs.length lim true)
      let bad := rangeBad m r lim true x bs.length
      raiseMet (writeBytes r lim lost m x bs) r a.ins bad (lost != 0)
  | .beatW b bs =>
    let x := b.drow + (b.off : Int)
    let lost := lostBerths cs a.ins a.rank (okBerths m r x b.len b.dlim true)
    let bad := rangeBad m r b.dlim true x b.len
    raiseMet (writeBeat m r lost b bs) r a.ins bad (lost != 0)
  | .rowEnc h fmt cmp blocks from' x rowBytes lim =>
    match holdOf r h with
    | none => (m, r)
    | some hd =>
      let els := blocksOf (fmtBits fmt) blocks rowBytes (hd.buf.drop from')
      let bs := els.flatMap (encodeBlock fmt cmp)
      let touched := okBerths m r x bs.length lim true
      let lost := lostBerths cs a.ins a.rank touched
      let bad := rangeBad m r lim true x bs.length
      raiseMet (if lost = 0 then writeBytes r lim 0 m x bs else m) r a.ins bad (lost != 0)
  | .tensor h cells fl =>
    match holdOf r h with
    | none => (m, r)
    | some hd =>
      if hd.lost then (m, r)
      else (setNumFlags (cells.foldl (fun m c => setBerthByte m c.1 c.2) m) r fl, r)
  | .scatter h cells =>
    match holdOf r h with
    | none => (m, r)
    | some hd =>
      if hd.lost then (m, r)
      else (cells.foldl (fun m c => (leBytes 4 c.2).zipIdx.foldl (fun m p => setBerthByte m (c.1 + p.2) p.1) m) m, r)
  | .micro x bs => (lhWrite m x bs, r)
  | _ => (m, r)

/-- Where a load's bytes land (R139). -/
def loadLand (d : LoadDest) (bs : List Byte) : LandAct :=
  match d with
  | .s b x => .s b x (BitVec.ofNat 64 (leNat bs))
  | .d b x => .d b x (BitVec.ofNat 512 (leNat bs))
  | .v c x => .v c x (BitVec.ofNat 2048 (leNat bs))

/-- One access carries out its reads at its cycle (R90): a load lands two cycles after its access (R139), a beat's write follows at its
own cycle (R143), a decompressed block row's beats at theirs (R210), a gather four cycles after its last held one (R138). -/
def serveRead (cs : List Claim) (k : Nat) (m : Mach) (r : SlotRun) (a : BAcc) : Mach × SlotRun :=
  match a.act with
  | .load d x n lim =>
    if r.isTask then
      let ok := taskOk m r x.toNat n
      let bs := if ok then taskRead m x.toNat n else List.replicate n 0
      let r' := { r with lands := r.lands ++ [{ cyc := k + 2, ins := a.ins, act := loadLand d bs }] }
      (if ok then m else raiseIns m 0x0802 r a.ins, r')
    else
      let lost := lostBerths cs a.ins a.rank (okBerths m r x n lim false)
      let bs := readBytes m r lim lost x n
      let bad := rangeBad m r lim false x n
      raiseMet m { r with lands := r.lands ++ [{ cyc := k + 2, ins := a.ins, act := loadLand d bs }] } a.ins bad (lost != 0)
  | .beatR b w =>
    let x := b.srow + (b.off : Int)
    let lost := lostBerths cs a.ins a.rank (okBerths m r x b.len b.slim false)
    let bs := readBeat m r lost b
    let bad := rangeBad m r b.slim false x b.len
    raiseMet m { r with accs := r.accs ++ [{ cyc := w, ins := a.ins, rank := a.rank, act := .beatW b bs }] } a.ins bad (lost != 0)
  | .rowR b h =>
    let x := b.srow + (b.off : Int)
    let lost := lostBerths cs a.ins a.rank (okBerths m r x b.len b.slim false)
    let bs := readBeat m r lost b
    let bad := rangeBad m r b.slim false x b.len
    let r' := match holdOf r h with | some hd => putHold r { hd with buf := hd.buf ++ bs } | none => r
    raiseMet m r' a.ins bad (lost != 0)
  | .rowDec _ fmt cmp blocks x lim beats =>
    let bb := blockBytes (fmtBits fmt) cmp
    let touched := okBerths m r x (blocks * bb) lim false
    let lost := lostBerths cs a.ins a.rank touched
    let dec := (List.range blocks).map (fun i => decodeBlock fmt cmp (readBytes m r lim 0 (x + ((i * bb : Nat) : Int)) bb))
    let els := if lost = 0 then dec.map (·.1) else List.replicate blocks (List.replicate 64 0)
    let bad := rangeBad m r lim false x (blocks * bb)
    let m := if lost = 0 ∧ dec.any (·.2) then raiseIns m 0x0401 r a.ins else m
    let per := if blocks = 0 then 1 else beats.length / 8
    let ws := beats.zipIdx.map (fun (p : (Nat × Beat) × Nat) =>
      ({ cyc := p.1.1, ins := a.ins, rank := a.rank,
         act := .beatW p.1.2 (slice (rowOf (fmtBits fmt) els (p.2 / max 1 per)) p.1.2.off p.1.2.len) } : BAcc))
    raiseMet m { r with accs := r.accs ++ ws } a.ins bad (lost != 0)
  | .gather h c x addrs =>
    let lost := (holdOf r h).any (·.lost)
    let v := addrs.map (fun o => match o with
      | some ad => if lost then 0 else leNat ((List.range 4).map (fun j => berthByte m (ad + j)))
      | none => 0)
    let bs := v.flatMap (leBytes 4)
    (m, { r with lands := r.lands ++ [{ cyc := k + 4, ins := a.ins, act := .v c x (BitVec.ofNat 2048 (leNat bs)) }] })
  | _ => (m, r)

/-- A hold that loses a port to an earlier-ranked access keeps the mark, and SQ_PORT_CONFLICT is raised; a compressing move's hold
matters in its block-row cycles only (R132, R138, R210). -/
def markHolds (cs : List Claim) (k : Nat) (m : Mach) (r : SlotRun) : Mach × SlotRun :=
  r.holds.foldl (fun (p : Mach × SlotRun) h =>
    if h.frm ≤ k ∧ k ≤ h.til ∧ !h.rows ∧ !h.lost ∧ lostBerths cs h.ins h.rank h.berths ≠ 0 then
      raisePort p.1 (putHold p.2 { h with lost := true }) h.ins
    else p) (m, r)

/-- Everything that happens in a run at cycle `k`: landings, then the writes and the reads of the accesses that keep their ports. -/
def runCycle (m : Mach) (r : SlotRun) (k : Nat) : Mach × SlotRun :=
  let now := sortBy landKey (r.lands.filter (·.cyc == k))
  let r := { r with lands := r.lands.filter (·.cyc != k) }
  let m := now.foldl (fun m l => applyLand m r l.act) m
  let cs := claimsAt m r k
  let accs := sortBy (fun a => portKey a.ins a.rank) (r.accs.filter (·.cyc == k))
  let r := { r with accs := r.accs.filter (·.cyc != k) }
  let (m, r) := markHolds cs k m r
  let (m, r) := accs.foldl (fun (p : Mach × SlotRun) a => serveWrite cs k p.1 p.2 a) (m, r)
  let (m, r) := accs.foldl (fun (p : Mach × SlotRun) a => serveRead cs k p.1 p.2 a) (m, r)
  (m, { r with holds := r.holds.filter (fun h => decide (k < h.til)) })

/-- The cycles at which something of a run is pending. -/
def pendingCycles (r : SlotRun) : List Nat :=
  r.lands.map (·.cyc) ++ r.accs.map (·.cyc)

/-- The earliest pending cycle, also a cycle at which two holds meet. -/
def nextCycle (r : SlotRun) : Option Nat :=
  let holds := r.holds.filter (fun h => !h.rows && !h.lost)
  let meet := holds.filterMap (fun h =>
    if holds.any (fun g => !(g.id == h.id) && decide (g.frm ≤ h.frm ∧ h.frm ≤ g.til) && (g.berths &&& h.berths) != 0) then some h.frm else none)
  match pendingCycles r ++ meet with
  | [] => none
  | c :: cs => some (cs.foldl min c)

/-- Run a run's pending cycles up to and including `til`, at most `fuel` of them. -/
def runTo : Nat → Mach → SlotRun → Nat → Mach × SlotRun
  | 0, m, r, _ => (m, r)
  | fuel + 1, m, r, til =>
    match nextCycle r with
    | none => (m, r)
    | some k => if til < k then (m, r) else
      let (m, r) := runCycle m r k
      runTo fuel m r til

/-- Every pending cycle up to `til`, where the run's length bounds how many there are (R37). -/
def catchUp (m : Mach) (r : SlotRun) (til : Nat) : Mach × SlotRun := runTo (r.length + 1) m r (min til (r.length - 1))

/-! ## Issue -/

/-- What an instruction that executes contributes: landings and accesses at their cycles, holds, faults raised at issue, the control it
asks for, its unit's occupancy and the records and notices it posts. -/
structure Issued where
  lands : List (Nat × LandAct) := []
  accs : List (Nat × Nat × AccAct) := []
  holds : List Hold := []
  ctl : Ctl := .none
  occ : Nat := 1
  records : List FabRec := []
  pilots : List PilotNote := []
  /-- The fault that squashes it, or 0 (R113). -/
  squash : Nat := 0
  /-- An access that is suppressed at issue raised a fault of its own (R81, R138, R140); 0 for none. -/
  faults : List Nat := []
  deriving DecidableEq, Repr

/-- What an instruction sees when it issues: its run and stream, the stream's number and register bank, and the issue cycle (R86). -/
structure Ctx where
  run : SlotRun
  st : Stream
  i : Nat
  bank : Nat
  cyc : Nat
  ins : Ins
  deriving DecidableEq, Repr

/-- The run an instruction names (R354): a slot, or a lighthouse task. -/
def runKey : RunId → Nat
  | .slot s => s.val
  | .task h => 256 + h.val

/-- The length of the bundle at an address of a stream's code: up to the word with LAST (R84). -/
def bundleWords (code : List Nat) (pc : Nat) : Nat :=
  match ((code.drop pc).take 4).findIdx? (fun w => bit w 37) with
  | some i => i + 1
  | none => 1

/-- The address of the bundle `n` bundles after the one at `pc`. -/
def bundleAfter (code : List Nat) (pc : Nat) : Nat → Nat
  | 0 => pc
  | n + 1 => bundleAfter code (pc + bundleWords code pc) n

/-- The end of loop bodies at an address: an inner loop repeats before an outer one (R94, R95). -/
def loopBack : List LoopFrame → Nat → Nat × List LoopFrame
  | [], pc => (pc, [])
  | f :: fs, pc =>
    if pc = f.stop then
      if f.left = 0 then loopBack fs pc else (f.start, { f with left := f.left - 1 } :: fs)
    else (pc, f :: fs)

/-- The stream after its bundle of `n` words has issued (R94–R98, R118): the next bundle's address and cycle. -/
def endBundle (st : Stream) (n : Nat) : Stream :=
  let after := st.pc + n
  let st' := { st with done := 0, ctl := .none }
  match st.ctl, st.delay with
  | .stop, _ => { st' with ended := true, cyc := st.cyc + 1 }
  | .loop body count, _ =>
    let stop := bundleAfter st.code after body
    if count = 0 then
      let (pc, fs) := loopBack st.loops stop
      { st' with pc, loops := fs, cyc := st.cyc + 1 }
    else { st' with pc := after, loops := { start := after, stop, left := count - 1 } :: st.loops, cyc := st.cyc + 1 }
  | .branch off, _ => { st' with pc := after, delay := some (2, ((st.pc : Int) + off).toNat), cyc := st.cyc + 1 }
  | .wait w, _ =>
    let (pc, fs) := loopBack st.loops after
    { st' with pc, loops := fs, cyc := st.cyc + w + 1 }
  | .none, some (2, t) => { st' with pc := after, delay := some (1, t), cyc := st.cyc + 1 }
  | .none, some (_, t) => { st' with pc := t, delay := none, cyc := st.cyc + 1 }
  | .none, none =>
    let (pc, fs) := loopBack st.loops after
    { st' with pc, loops := fs, cyc := st.cyc + 1 }

/-- The first cycle at which a unit takes an instruction again (R92). -/
def Stream.busy (st : Stream) (unit : Nat) : Nat := if unit = 1 then st.busyT else if unit = 2 then st.busyV else if unit = 3 then st.busyM else 0

/-- The stream with a unit's occupancy set (R92). -/
def Stream.setBusy (st : Stream) (unit c : Nat) : Stream :=
  if unit = 1 then { st with busyT := c } else if unit = 2 then { st with busyV := c } else if unit = 3 then { st with busyM := c } else st

/-- The run with stream `i` replaced. -/
def SlotRun.setStream (r : SlotRun) (i : Nat) (st : Stream) : SlotRun := { r with streams := r.streams.set i st }

/-- The run and the context of an instruction that can issue: its run is under way, its stream has not ended and its cycle lies in the
run. The run has been caught up with the issue cycle, and device time with it. -/
def issueCtx (m : Mach) (iss : Issue) : Option (Mach × Ctx) :=
  match findRun m (runKey iss.run) with
  | none => none
  | some r =>
    match r.streams[iss.stream.val]? with
    | none => none
    | some st =>
      if st.ended ∨ r.length ≤ st.cyc then none else
      let (m, r) := catchUp m r st.cyc
      let m := if r.isTask then advanceTo m (lhTime m (r.start + st.cyc)) else advanceTo m (quayTime m (r.start + st.cyc))
      some (m, { run := r, st, i := iss.stream.val, bank := bankOf r st, cyc := st.cyc,
                 ins := { iss := st.cyc, unit := 0, stream := iss.stream.val, word := st.pc } })

/-- The guard of R93: the predicate, inverted by NEG. -/
def guardOk (m : Mach) (bank : Nat) (iss : Issue) : Bool := readP m bank iss.pred.val != iss.neg

/-- The run after an instruction word: the control it asked for is noted, the word counted, and at the LAST word the bundle ends. -/
def wordDone (r : SlotRun) (i : Nat) (st : Stream) (last : Bool) : SlotRun :=
  let st := { st with done := st.done + 1 }
  r.setStream i (if last then endBundle st st.done else st)

/-- The run with what an instruction contributes. -/
def contribute (r : SlotRun) (c : Ctx) (i : Ins) (o : Issued) : SlotRun :=
  { r with lands := r.lands ++ o.lands.map (fun (p : Nat × LandAct) => { cyc := c.cyc + p.1, ins := i, act := p.2 }),
           accs := r.accs ++ o.accs.map (fun (p : Nat × Nat × AccAct) => { cyc := c.cyc + p.1, ins := i, rank := p.2.1, act := p.2.2 }),
           holds := r.holds ++ o.holds, nextHold := r.nextHold + o.holds.length,
           records := r.records ++ o.records, pilots := r.pilots ++ o.pilots }

/-- Issue one instruction word of a unit (R82–R93, R113): its guard and its unit's occupancy are checked, `f` gives what it contributes
and its effect on the device outside the run, and the word is counted. A stream's word that cannot issue changes nothing (log 3). -/
def issue (m0 : Mach) (iss : Issue) (unit : Nat) (f : Mach → Ctx → Issued × Mach) : Mach :=
  match issueCtx m0 iss with
  | none => m0
  | some (m, c) =>
    let c := { c with ins := { c.ins with unit := unit } }
    let finish := fun (m : Mach) (r : SlotRun) (st : Stream) => putRun m (wordDone r c.i st iss.last)
    if !guardOk m c.bank iss then finish m c.run c.st
    else if c.cyc < c.st.busy unit then finish (raiseIns m 0x0212 c.run c.ins) c.run c.st
    else
      let (o, m') := f m c
      if o.squash ≠ 0 then finish (raiseIns m o.squash c.run c.ins) c.run c.st
      else
        let (m', r) := o.faults.foldl (fun (p : Mach × SlotRun) code =>
          if code = 0x0210 then raiseRange p.1 p.2 c.ins else if code = 0x0211 then raisePort p.1 p.2 c.ins
          else (raiseIns p.1 code p.2 c.ins, p.2)) (m', contribute c.run c c.ins o)
        let ctl := if o.ctl = Ctl.none then c.st.ctl else o.ctl
        finish m' r (Stream.setBusy { c.st with ctl := ctl } unit (c.cyc + o.occ))

/-- An instruction that only contributes to its run. -/
def issuePure (m : Mach) (iss : Issue) (unit : Nat) (f : Mach → Ctx → Issued) : Mach := issue m iss unit (fun m c => (f m c, m))

/-- RESULT_LAND (R87): the earliest pending cycle of a run takes place; nothing does at or after the run's end (R39). -/
def resultLand (m : Mach) (id : Nat) : Mach :=
  match findRun m id with
  | none => m
  | some r =>
    match nextCycle r with
    | none => m
    | some k =>
      if r.length ≤ k then m else
      let m := if r.isTask then advanceTo m (lhTime m (r.start + k)) else advanceTo m (quayTime m (r.start + k))
      let (m, r) := runCycle m r k
      putRun m r

/-- The end of a run (R39, R148): what is due before the end cycle takes place, the rest is discarded, and the run is over. -/
def closeRun (m : Mach) (r : SlotRun) : Mach × SlotRun :=
  let (m, r) := catchUp m r (r.length - 1)
  ({ m with st := { m.st with runs := m.st.runs.filter (fun x => x.id != r.id) } },
   { r with lands := [], accs := [], holds := [], pilots := [] })

/-- Whether every stream of a run has issued END (R98). -/
def SlotRun.reachedEnd (r : SlotRun) : Bool := r.streams.all (·.ended)

end Sys2Proof.Machine
end

