-- ==== Sys2Proof/Machine/Tensor.lean ====
section
/-!
DEFINITION. The T unit: operand fetch (R80, R81, R159, R160), the exact sum (R161–R166), MMA (R128, R129), CONV (R130, R188–R199) and
POOL (R131, R200), with their occupancy, holds and faults (R132, R185).
-/
namespace Sys2Proof.Machine

/-! ## Operand fetch -/

/-- A fetched tensor: its element bits in index order, the scale byte of each block, and what the fetch met. -/
structure Ten where
  els : Array Nat
  scales : Array Nat
  /-- A byte was suppressed (R81). -/
  bad : Bool
  /-- A compressed block had a bad mode (R208). -/
  mode : Bool

/-- Whether a byte at an exact address may be accessed, from the berths the run may touch as a mask (R81). -/
def okIn (mask lim : Nat) (a : Int) : Bool :=
  decide (0 ≤ a) && decide (a ≤ (lim : Int)) && decide (a < 33554432) && bit mask (berthOf a.toNat)

/-- The berths a run may touch, as a mask (R81, R329). -/
def touchMask (m : Mach) (r : SlotRun) (write : Bool) : Nat := maskOf ((List.range 64).filter (fun b => mayTouch m r b write))

/-- The elements of an uncompressed row. -/
def fetchRow (m : Mach) (mask : Nat) (t : TDesc) (a : Int) : List Nat :=
  let rd := fun j : Nat => if okIn mask t.limit (a + (j : Int)) then some (berthByte m (a + (j : Int)).toNat) else none
  (List.range (t.sz 0)).map (readEltBits (fmtBits t.fmt) rd)

/-- The elements of the eight rows of a compressed block row, row by row, and whether a block had a bad mode (R202, R208, R211). -/
def fetchBlocks (m : Mach) (mask : Nat) (t : TDesc) (a : Int) : List (List Nat) × Bool :=
  let bb := blockBytes (fmtBits t.fmt) t.cmp
  let blocks := (List.range (t.sz 0 / 8)).map (fun i =>
    decodeBlock t.fmt t.cmp ((List.range bb).map (fun (j : Nat) =>
      let x := a + ((i * bb + j : Nat) : Int)
      if okIn mask t.limit x then berthByte m x.toNat else 0)))
  ((List.range 8).map (fun y => blocks.flatMap (fun b => (b.1.drop (8 * y)).take 8)), blocks.any (·.2))

/-- Fetch a whole tensor (R80, R81, R160, R211). -/
def fetchTen (m : Mach) (r : SlotRun) (t : TDesc) : Ten :=
  let mask := touchMask m r false
  let badAt := fun (a : Int) (n : Nat) => (List.range n).any (fun (j : Nat) => !okIn mask t.limit (a + (j : Int)))
  if t.cmp = 0 then
    let rows := t.rows
    let addr := fun (x : Nat × Nat × Nat) => t.rowAddr 0 x.1 x.2.1 x.2.2
    let nsc := if isMX t.fmt then t.sz 0 / 32 else 0
    let sc := rows.flatMap (fun x => (List.range nsc).map (fun j => t.scaleAddr j x.1 x.2.1 x.2.2))
    { els := (rows.flatMap (fun x => fetchRow m mask t (addr x))).toArray,
      scales := (sc.map (fun (a : Nat) => if okIn mask t.limit (a : Int) then (berthByte m a).toNat else 0)).toArray,
      bad := rows.any (fun x => badAt (addr x) t.rowBytes) || sc.any (fun (a : Nat) => !okIn mask t.limit (a : Int)),
      mode := false }
  else
    let rows := t.blockRows
    let addr := fun (x : Nat × Nat × Nat) => t.blockRow 0 x.1 x.2.1 x.2.2
    let got := rows.map (fun x => fetchBlocks m mask t (addr x))
    { els := (got.flatMap (fun g => g.1.flatMap id)).toArray, scales := #[],
      bad := rows.any (fun x => badAt (addr x) (t.sz 0 / 8 * blockBytes (fmtBits t.fmt) t.cmp)),
      mode := got.any (·.2) }

/-- The place of element (i₀, i₁, i₂, i₃) in index order. -/
def TDesc.index (t : TDesc) (i0 i1 i2 i3 : Nat) : Nat := i0 + t.sz 0 * (i1 + t.sz 1 * (i2 + t.sz 2 * i3))

/-- The exact value of a fetched element, its MX scale included; a scale of 255 makes it NaN (R160, R161, R169). -/
def Ten.value (x : Ten) (t : TDesc) (i : Nat) : Fl :=
  let v := fmtDecode t.fmt (x.els.getD i 0)
  if isMX t.fmt then
    let s := x.scales.getD (i / 32) 0
    if s = 255 then .nan else v.mul (.fin false 1 ((s : Int) - 127))
  else v

/-- The integer value of a fetched element of an integer format. -/
def Ten.intValue (x : Ten) (t : TDesc) (i : Nat) : Int := signedOf (fmtBits t.fmt) (x.els.getD i 0)

/-! ## The exact sum -/

/-- An add of the tree, with the flags of both sides (R162). -/
def addFR (a b : FR) : FR :=
  let (v, f) := fAdd fmtFP32 a.1 b.1
  (v, f ||| a.2 ||| b.2)

/-- One level of the canonical tree: entries 2i and 2i + 1 are added, an entry without a partner passes up (R163). -/
def treeLevel {α : Type} (add : α → α → α) : List α → List α
  | a :: b :: rest => add a b :: treeLevel add rest
  | l => l

/-- The canonical reduction tree (R163), for at most 2^fuel entries. -/
def canonTree {α : Type} (add : α → α → α) (zero : α) : Nat → List α → α
  | 0, l => l.headD zero
  | _ + 1, [] => zero
  | _ + 1, [a] => a
  | fuel + 1, l => canonTree add zero fuel (treeLevel add l)

/-- +0 without flags: an absent position of a chunk (R162). -/
def zeroFR : FR := (.fin false 0 0, 0)

/-- The sum of one chunk of at most 128 products (R162). -/
def chunkSum (ps : List FR) : FR :=
  let q := ps ++ List.replicate (128 - ps.length) zeroFR
  let g := (List.range 8).map (fun j => canonTree addFR zeroFR 8 ((q.drop (16 * j)).take 16))
  (g.drop 1).foldl addFR (g.headD zeroFR)

/-- Consecutive pieces of n elements. -/
def chunks {α : Type} (n : Nat) : Nat → List α → List (List α)
  | 0, _ => []
  | fuel + 1, l => if l.isEmpty then [] else l.take n :: chunks n fuel (l.drop n)

/-- The sum of products over K-chunks and the canonical tree (R162, R163). -/
def sumFR (ps : List FR) : FR := canonTree addFR zeroFR 32 ((chunks 128 (ps.length + 1) ps).map chunkSum)

/-- An exact product with its flags (R161, R169, R179). -/
def prodFR (a b : Fl) : FR :=
  let p := a.mul b
  (p, opFlags (a.isNaN || b.isNaN) p.isNaN)

/-- An output element of a reduction: for the integer class an INT32, else an FP32 value. -/
inductive Acc' where
  | int (v : Int)
  | fl (v : Fl)
  deriving DecidableEq, Repr

/-- The reduction of one output element's product pairs in its class (R162–R164). -/
def reduceElt (int : Bool) (ps : List (Nat × Nat)) (a b : Ten) (ta tb : TDesc) : Acc' × Nat :=
  if int then (.int (ps.foldl (fun s p => s + a.intValue ta p.1 * b.intValue tb p.2) 0), 0)
  else
    let (v, f) := sumFR (ps.map (fun p => prodFR (a.value ta p.1) (b.value tb p.2)))
    (.fl v, f)

/-- An addition outside the tree: saturating for integers, rounded once to FP32 otherwise (R165, R195). -/
def accAdd (x y : Acc' × Nat) : Acc' × Nat :=
  match x.1, y.1 with
  | .int a, .int b =>
    let (s, f) := satAddI32 a b
    (.int s, f ||| x.2 ||| y.2)
  | .fl a, .fl b =>
    let (v, f) := fAdd fmtFP32 a b
    (.fl v, f ||| x.2 ||| y.2)
  | _, _ => x

/-- The four bytes of an output element: INT32 or FP32. -/
def accBytes : Acc' → List Byte
  | .int v => leBytes 4 (wrapInt 32 v)
  | .fl v => leBytes 4 (fmtFP32.encode v)

/-- The prior contents of an output element. -/
def accOf (int : Bool) (w : Nat) : Acc' := if int then .int (signedOf 32 w) else .fl (fmtFP32.decode w)

/-! ## Occupancy -/

/-- O of R129 for a shape. -/
def occMMA (df g m n k : Nat) : Nat :=
  let mt := ceilDiv m 128
  let nt := ceilDiv n 128
  let kc := ceilDiv k 128
  let g := max 1 g
  if df = 0 then ceilDiv (nt * kc) g * (128 + m)
  else if df = 1 then ceilDiv (mt * nt) g * (128 * kc + 128)
  else ceilDiv (mt * kc) g * (128 + n)

/-! ## Results -/

/-- The bytes that a T instruction writes through its output descriptor, where permitted, and whether some were not (R81, R132). -/
def outCells (m : Mach) (r : SlotRun) (t : TDesc) (bytes : Nat → List Byte) : List (Nat × Byte) × Bool :=
  let mask := touchMask m r true
  let w := fmtBits t.fmt / 8
  let all := t.rows.flatMap (fun x => (List.range (t.sz 0)).flatMap (fun i0 =>
    ((bytes (t.index i0 x.1 x.2.1 x.2.2)).zipIdx).map (fun p =>
      (t.rowAddr 0 x.1 x.2.1 x.2.2 + ((w * i0 + p.2 : Nat) : Int), p.1))))
  ((all.filter (fun c => okIn mask t.limit c.1)).map (fun c => (c.1.toNat, c.2)), all.any (fun c => !okIn mask t.limit c.1))

/-- The quadrants, or window-unit line buffers, whose parity check fails during the instruction (R185, R222). -/
def tParity (c : Ctx) (par : Nat) : List Nat × List Nat :=
  ((bitList par 4).filter (bit c.run.quad), (bitList (par / 2 ^ 12) 4).filter (bit c.run.quad))

/-- Raise a parity fault, halt the tenant at the next seam and take the resource offline there (R176, R185, R187). -/
def raiseParity (m : Mach) (c : Ctx) (code d : Nat) : Mach :=
  offlineAtSeam (haltAtSeam (raiseAt m code c.run.tenant false c.run.id c.cyc 0) c.run.tenant) d

/-- What a T instruction that executes does: it holds the ports of the berths its descriptors address for L = O + 24 cycles and its
result lands at the last of them (R129, R132); a parity error leaves the destination unchanged (R185). -/
def tResult (m : Mach) (c : Ctx) (par : Nat) (win : Bool) (ds : List TDesc) (occ : Nat) (bad mode : Bool)
    (cells : List (Nat × Byte)) (fl : Nat) : Issued × Mach :=
  let l := occ + 24
  let berths := reachable m c.run (ds.foldl (fun a d => a ||| d.berths 0) 0)
  let h : Hold := { id := c.run.nextHold, ins := c.ins, rank := 0, frm := c.cyc + 1, til := c.cyc + l, berths, rows := false,
                    lost := false, buf := [] }
  let (qs, ws) := tParity c par
  let ws := if win then ws else []
  let m := qs.foldl (fun m q => raiseParity m c 0x0301 q) m
  let m := ws.foldl (fun m q => raiseParity m c 0x0402 q) m
  let hit := !qs.isEmpty || !ws.isEmpty
  let faults := (if bad then [0x0210] else []) ++ (if mode then [0x0401] else [])
  ({ holds := [h], occ, faults, accs := if hit then [] else [(l, 0, .tensor h.id cells fl)] }, m)

/-- The quadrants that stream 0 drives: QUAY_WIDTH (R65). -/
def gang (c : Ctx) : Nat := popCount c.run.quad 4

/-- MMA (R128, R129, R161–R165). -/
def mmaIns (par df : Nat) (acc : Bool) (dst src1 src2 : Nat) (m : Mach) (c : Ctx) : Issued × Mach :=
  let da := readD m c.bank src1
  let db := readD m c.bank src2
  let dc := readD m c.bank dst
  let a := tdesc da
  let b := tdesc db
  let o := tdesc dc
  if !(tdescValid da && tdescValid db && tdescValid dc) then ({ squash := 0x0213 }, m)
  else
    let k := a.sz 0
    let mm := a.sz 1
    let n := b.sz 1
    let shape := a.rank == 1 && b.rank == 1 && o.rank == 1 && b.sz 0 == k && o.sz 0 == n && o.sz 1 == mm &&
      (!(isMX a.fmt || isMX b.fmt) || k % 32 == 0)
    if !shape then ({ squash := 0x0215 }, m)
    else
      match fmtClass a.fmt, fmtClass b.fmt with
      | some ca, some cb =>
        let int := ca == 0
        if ca ≠ cb ∨ o.fmt ≠ (if int then 12 else 13) ∨ a.cmp ≠ 0 ∨ b.cmp ≠ 0 ∨ o.cmp ≠ 0 then ({ squash := 0x0214 }, m)
        else
          let ta := fetchTen m c.run a
          let tb := fetchTen m c.run b
          let tacc := if acc then fetchTen m c.run o else ⟨#[], #[], false, false⟩
          let elt := fun i : Nat =>
            let x := i % n
            let y := i / n
            let t := reduceElt int ((List.range k).map (fun kk => (kk + k * y, kk + k * x))) ta tb a b
            if acc then accAdd (accOf int (tacc.els.getD i 0), 0) t else t
          let res := ((List.range (n * mm)).map elt).toArray
          let (cells, wbad) := outCells m c.run o (fun i => accBytes (res.getD i (.int 0, 0)).1)
          tResult m c par false [a, b, o] (occMMA df (gang c) mm n k) (ta.bad || tb.bad || tacc.bad || wbad) false cells
            (res.foldl (fun f x => f ||| x.2) 0)
      | _, _ => ({ squash := 0x0214 }, m)

/-! ## Windows -/

/-- W_out or H_out of R192, as an integer. -/
def outExtent (n p0 p1 k s d : Nat) : Int := ((n + p0 + p1 : Nat) : Int) - ((d * (k - 1) + 1 : Nat) : Int) |>.fdiv (s : Int) |> (· + 1)

/-- The coordinate a tap takes along one axis (R193): none for a zero or constant pad. -/
def tapCoord (mode : Nat) (n : Nat) (i : Int) : Option Nat :=
  if 0 ≤ i ∧ i < (n : Int) then some i.toNat
  else if mode = 2 then some (if i < 0 then 0 else n - 1)
  else if mode = 3 then some (if i < 0 then (-i).toNat else (2 * ((n : Int) - 1) - i).toNat)
  else none

/-- The place of a tap's element in the input's index order, or none for a pad value (R193). -/
def tapIndex (w : Window) (t : TDesc) (ox oy kx ky ch b : Nat) : Option Nat :=
  let ix : Int := ((ox * w.sx + kx * w.dx : Nat) : Int) - (w.padL : Int)
  let iy : Int := ((oy * w.sy + ky * w.dy : Nat) : Int) - (w.padT : Int)
  match tapCoord w.mode (t.sz 0) ix, tapCoord w.mode (t.sz 1) iy with
  | some x, some y => some (t.index x y ch b)
  | _, _ => none

/-- An input with the pad value appended after its last element: zero, or PAD_CONST (R193). -/
def withPad (w : Window) (t : TDesc) (x : Ten) : Ten :=
  { x with els := x.els.push (if w.mode = 1 then w.const % 2 ^ fmtBits t.fmt else 0) }

/-- The index of a tap in an input with its pad value. -/
def tapAt (w : Window) (t : TDesc) (ox oy kx ky ch b : Nat) : Nat :=
  (tapIndex w t ox oy kx ky ch b).getD (t.sz 0 * t.sz 1 * t.sz 2 * t.sz 3)

/-- The padding rules of R191 and the output extents of R192. -/
def windowFits (w : Window) (i o : TDesc) : Bool :=
  let wo := outExtent (i.sz 0) w.padL w.padR w.kw w.sx w.dx
  let ho := outExtent (i.sz 1) w.padT w.padB w.kh w.sy w.dy
  decide (1 ≤ wo) && decide (1 ≤ ho) && wo == (o.sz 0 : Int) && ho == (o.sz 1 : Int) &&
    !(w.mode == 3 && decide (i.sz 0 ≤ w.padL ∨ i.sz 0 ≤ w.padR ∨ i.sz 1 ≤ w.padT ∨ i.sz 1 ≤ w.padB))

/-- The tiles of a kernel in pass order, as (kx₀, ky₀, kw, kh) (R194). -/
def tiles (kw kh : Nat) : List (Nat × Nat × Nat × Nat) :=
  (List.range (ceilDiv kh 16)).flatMap (fun ty => (List.range (ceilDiv kw 16)).map (fun tx =>
    (16 * tx, 16 * ty, min 16 (kw - 16 * tx), min 16 (kh - 16 * ty))))

/-- The largest power of two P with P × c ≤ 128 (R198). -/
def packP (c : Nat) : Nat := 2 ^ Nat.log2 (128 / max 1 c)

/-- PACK = 1 is accepted (R198). -/
def packOk (w : Window) (i : TDesc) : Bool :=
  if w.depthwise then w.kw == 3 && w.kh == 3 else w.kw == 1 && w.kh == 1 && decide (i.sz 2 ≤ 64)

/-- The occupancy of CONV (R130, R197, R198). -/
def occConv (df g : Nat) (pack : Bool) (w : Window) (i o : TDesc) : Nat :=
  let m := o.sz 0 * o.sz 1 * o.sz 3
  let n := o.sz 2
  let ci := i.sz 2
  let pass := fun m n k => 32 + occMMA df g m n k
  if pack then
    if w.depthwise then
      ((List.range (ceilDiv ci 14)).map (fun q => let gc := min 14 (ci - 14 * q); pass m gc (gc * 9))).foldl (· + ·) 0
    else
      let p := packP ci
      pass (ceilDiv m p) (p * n) (p * ci)
  else if w.depthwise then ci * ((tiles w.kw w.kh).map (fun t => pass m 1 (t.2.2.1 * t.2.2.2))).foldl (· + ·) 0
  else ((tiles w.kw w.kh).map (fun t => pass m n (ci * t.2.2.1 * t.2.2.2))).foldl (· + ·) 0

/-- CONV (R130, R188–R199, R211). -/
def convIns (par df : Nat) (acc pack : Bool) (dst src1 src2 src3 : Nat) (m : Mach) (c : Ctx) : Issued × Mach :=
  let di := readD m c.bank src1
  let df' := readD m c.bank src2
  let dw := readD m c.bank src3
  let dout := readD m c.bank dst
  let i := tdesc di
  let f := tdesc df'
  let o := tdesc dout
  let w := window dw
  if !(tdescValid di && tdescValid df' && tdescValid dout && windowValid dw i.fmt) then ({ squash := 0x0213 }, m)
  else
    let ci := i.sz 2
    let shape := f.sz 0 == w.kw && f.sz 1 == w.kh && (if w.depthwise then f.sz 2 == 1 && f.sz 3 == ci && o.sz 2 == ci
                   else f.sz 2 == ci && f.sz 3 == o.sz 2) && o.sz 3 == i.sz 3 && windowFits w i o && (!pack || packOk w i) &&
                 (!(isMX i.fmt) || i.sz 0 % 32 == 0) && (!(isMX f.fmt) || f.sz 0 % 32 == 0)
    if !shape then ({ squash := 0x0215 }, m)
    else
      let int := i.fmt ≤ 1
      if !(decide (i.fmt ≤ 5) && decide (f.fmt ≤ 5)) ∨ (decide (i.fmt ≤ 1) != decide (f.fmt ≤ 1)) ∨ o.fmt ≠ (if int then 12 else 13) ∨
          f.cmp ≠ 0 ∨ o.cmp ≠ 0 then ({ squash := 0x0214 }, m)
      else
        let ti := fetchTen m c.run i
        let tf := fetchTen m c.run f
        let tacc := if acc then fetchTen m c.run o else ⟨#[], #[], false, false⟩
        let tip := withPad w i ti
        let ts := tiles w.kw w.kh
        let elt := fun j : Nat =>
          let ox := j % o.sz 0
          let oy := j / o.sz 0 % o.sz 1
          let oc := j / (o.sz 0 * o.sz 1) % o.sz 2
          let b := j / (o.sz 0 * o.sz 1 * o.sz 2)
          let pass := fun (t : Nat × Nat × Nat × Nat) =>
            reduceElt int ((List.range t.2.2.2).flatMap (fun yl => (List.range t.2.2.1).flatMap (fun xl =>
              (List.range (if w.depthwise then 1 else ci)).map (fun ch =>
                (tapAt w i ox oy (t.1 + xl) (t.2.1 + yl) (if w.depthwise then oc else ch) b,
                 f.index (t.1 + xl) (t.2.1 + yl) ch oc))))) tip tf i f
          match ts with
          | [] => (accOf int 0, 0)
          | t0 :: rest =>
            let first := if acc then accAdd (accOf int (tacc.els.getD j 0), 0) (pass t0) else pass t0
            rest.foldl (fun s t => accAdd s (pass t)) first
        let res := ((List.range (o.sz 0 * o.sz 1 * o.sz 2 * o.sz 3)).map elt).toArray
        let (cells, wbad) := outCells m c.run o (fun j => accBytes (res.getD j (.int 0, 0)).1)
        tResult m c par true [i, f, o] (occConv df (gang c) pack w i o) (ti.bad || tf.bad || tacc.bad || wbad) ti.mode cells
          (res.foldl (fun x y => x ||| y.2) 0)

/-! ## Pooling -/

/-- The formats POOL accepts as input (R189). -/
def poolFmt (f : Nat) : Bool := [1, 2, 3, 4, 5, 12, 13].contains f

/-- The NaN that max and min pooling write (R170, R200). For the FP8 formats the spec names none: a free NaN encoding (log 34). -/
def poolNaN (f : Nat) : Nat :=
  match f with
  | 2 => 0x7F + 128 * (Config.fp8NaN 2 % 2)
  | 3 => 0x7D + Config.fp8NaN 3 % 3 + 128 * (Config.fp8NaN 3 / 3 % 2)
  | 4 => fmtFP16.nanCode
  | 5 => fmtBF16.nanCode
  | _ => fmtFP32.nanCode

/-- The largest or smallest of the taps' bits, exactly (R200). -/
def poolExtreme (max' : Bool) (f : Nat) (taps : List Nat) : Nat :=
  if f = 1 ∨ f = 12 then
    let s := signedOf (fmtBits f)
    (taps.drop 1).foldl (fun a b => if (if max' then decide (s a < s b) else decide (s b < s a)) then b else a) (taps.headD 0)
  else
    let d := fmtDecode f
    if taps.any (fun t => (d t).isNaN) then poolNaN f
    else (taps.drop 1).foldl (fun a b => if (if max' then (d a).below (d b) else (d b).below (d a)) then b else a) (taps.headD 0)

/-- Average or L2 of the taps, in FP32 (R200). -/
def poolMean (l2 : Bool) (int : Bool) (f : Nat) (taps : List Nat) : FR :=
  if int then
    let xs := taps.map (signedOf (fmtBits f))
    let s := xs.foldl (fun a x => a + (if l2 then x * x else x)) 0
    if l2 then fSqrt fmtFP32 (Fl.ofInt s 0) else fDiv fmtFP32 (Fl.ofInt s 0) (.fin false taps.length 0)
  else
    let one := Fl.fin false 1 0
    let (s, fl) := sumFR (taps.map (fun t => let v := fmtDecode f t; prodFR v (if l2 then v else one)))
    let (v, g) := if l2 then fSqrt fmtFP32 s else fDiv fmtFP32 s (.fin false taps.length 0)
    (v, fl ||| g)

/-- POOL (R131, R188–R193, R200, R211). -/
def poolIns (par mode dst src1 src3 : Nat) (m : Mach) (c : Ctx) : Issued × Mach :=
  let di := readD m c.bank src1
  let dw := readD m c.bank src3
  let dout := readD m c.bank dst
  let i := tdesc di
  let o := tdesc dout
  let w := window dw
  if !(tdescValid di && tdescValid dout && windowValid dw i.fmt) then ({ squash := 0x0213 }, m)
  else
    let shape := !w.depthwise && decide (w.kw ≤ 32) && decide (w.kh ≤ 32) && o.sz 2 == i.sz 2 && o.sz 3 == i.sz 3 && windowFits w i o &&
      (!(isMX i.fmt) || i.sz 0 % 32 == 0)
    if !shape then ({ squash := 0x0215 }, m)
    else if !poolFmt i.fmt ∨ o.cmp ≠ 0 ∨ o.fmt ≠ (if mode < 2 then i.fmt else 13) then ({ squash := 0x0214 }, m)
    else
      let ti := fetchTen m c.run i
      let tip := withPad w i ti
      let int := i.fmt == 1 || i.fmt == 12
      let elt := fun j : Nat =>
        let ox := j % o.sz 0
        let oy := j / o.sz 0 % o.sz 1
        let ch := j / (o.sz 0 * o.sz 1) % o.sz 2
        let b := j / (o.sz 0 * o.sz 1 * o.sz 2)
        let taps := (List.range w.kh).flatMap (fun ky => (List.range w.kw).map (fun kx => tip.els.getD (tapAt w i ox oy kx ky ch b) 0))
        if mode < 2 then (leBytes (fmtBits o.fmt / 8) (poolExtreme (mode == 0) i.fmt taps), 0)
        else
          let (v, f) := poolMean (mode == 3) int i.fmt taps
          (leBytes 4 (fmtFP32.encode v), f)
      let res := ((List.range (o.sz 0 * o.sz 1 * o.sz 2 * o.sz 3)).map elt).toArray
      let (cells, wbad) := outCells m c.run o (fun j => (res.getD j ([], 0)).1)
      let mpos := o.sz 0 * o.sz 1 * o.sz 3
      let occ := 32 + ceilDiv (i.sz 2) (128 * max 1 (gang c)) * mpos * ceilDiv (w.kw * w.kh) 16
      tResult m c par true [i, o] occ (ti.bad || wbad) ti.mode cells (res.foldl (fun x y => x ||| y.2) 0)

end Sys2Proof.Machine
end

