-- ==== Sys2Proof/Machine/Transc.lean ====
section
/-!
DEFINITION. The transcendental functions of R174: the exact mathematical function, rounded once to nearest, ties to even.
A function is enclosed in fixed-point intervals of growing precision until both ends round to the same value (log 30).
-/
namespace Sys2Proof.Machine

/-- x·y of two fixed-point numbers with `w` fraction bits, rounded down. -/
def fxMul (w : Nat) (x y : Int) : Int := (x * y) / ((2 ^ w : Nat) : Int)

/-- Σ terms of the Taylor series of e^y from term k on, for |y| ≤ 1. -/
def expGo (w : Nat) (y : Int) : Nat → Nat → Int → Int → Int
  | 0, _, _, acc => acc
  | n + 1, k, t, acc =>
    let t' := fxMul w t y / ((k : Nat) : Int)
    expGo w y n (k + 1) t' (acc + t')

/-- e^y for |y| ≤ 1, in fixed point with `w` fraction bits. -/
def fxExp (w : Nat) (y : Int) : Int :=
  let one : Int := ((2 ^ w : Nat) : Int)
  expGo w y (w / 2 + 24) 1 one one

/-- Σ z^(2k+1)/(2k+1), with sign (−1)^k where `alt`. -/
def atanGo (w : Nat) (z2 : Int) (alt : Bool) : Nat → Nat → Int → Int → Int
  | 0, _, _, acc => acc
  | n + 1, k, p, acc =>
    let term := p / ((2 * k + 1 : Nat) : Int)
    let acc' := if alt && k % 2 == 1 then acc - term else acc + term
    atanGo w z2 alt n (k + 1) (fxMul w p z2) acc'

/-- artanh z for |z| ≤ 1/3. -/
def fxAtanh (w : Nat) (z : Int) : Int := atanGo w (fxMul w z z) false (w / 3 + 8) 0 z 0

/-- arctan (1/n). -/
def fxAtanInv (w n : Nat) : Int :=
  let z : Int := ((2 ^ w / n : Nat) : Int)
  atanGo w (fxMul w z z) true (w / 4 + 8) 0 z 0

/-- ln 2. -/
def fxLn2 (w : Nat) : Int := 2 * fxAtanh w (((2 ^ w / 3 : Nat) : Int))

/-- π, as 16·arctan(1/5) − 4·arctan(1/239). -/
def fxPi (w : Nat) : Int := 16 * fxAtanInv w 5 - 4 * fxAtanInv w 239

/-- The Taylor series of sin (from k = 1, t = y) or cos (from k = 0, t = 1), for |y| ≤ 1. -/
def sinGo (w : Nat) (y2 : Int) : Nat → Nat → Int → Int → Int
  | 0, _, _, acc => acc
  | n + 1, k, t, acc =>
    let t' := -(fxMul w t y2 / (((k + 1) * (k + 2) : Nat) : Int))
    sinGo w y2 n (k + 2) t' (acc + t')

/-- sin y for |y| ≤ 1. -/
def fxSin (w : Nat) (y : Int) : Int := sinGo w (fxMul w y y) (w / 4 + 16) 1 y y

/-- cos y for |y| ≤ 1. -/
def fxCos (w : Nat) (y : Int) : Int :=
  let one : Int := ((2 ^ w : Nat) : Int)
  sinGo w (fxMul w y y) (w / 4 + 16) 0 one one

/-- ±m·2^e in fixed point with `w` fraction bits, rounded down. -/
def toFx (w : Nat) (n : Bool) (m : Nat) (e : Int) : Int :=
  let k : Int := if 0 ≤ e + (w : Int) then ((m <<< (e + (w : Int)).toNat : Nat) : Int)
                 else ((m >>> (-(e + (w : Int))).toNat : Nat) : Int)
  if n then -k else k

/-- The functions that need enclosure. -/
inductive TFun where
  | exp2
  | log2
  | sin
  | cos
  | tanh
  deriving DecidableEq, Repr

/-- Quadrant and remainder of x modulo π/2, with `w` fraction bits. -/
def trigReduce (w : Nat) (n : Bool) (m : Nat) (e : Int) : Int × Int :=
  let big := w + e.toNat + Nat.log2 (m + 1) + 8
  let x := toFx big n m e
  let half := fxPi big / 2
  let k := (2 * x + half) / (2 * half)
  let r := x - k * half
  (k % 4, r / ((2 ^ (big - w) : Nat) : Int))

/-- A function's value in fixed point with `w` fraction bits and a power-of-two exponent outside the point: the value is
(v ± 2^32)·2^(−w + x) for w at least 64. -/
def fxFun (f : TFun) (w : Nat) (n : Bool) (m : Nat) (e : Int) : Int × Int :=
  match f with
  | .exp2 =>
    let x := toFx w n m e
    let one : Int := ((2 ^ w : Nat) : Int)
    let k := x / one
    (fxExp w (fxMul w (x - k * one) (fxLn2 w)), k)
  | .log2 =>
    let l := Nat.log2 m
    let up := decide (3 * 2 ^ l ≤ 2 * m)
    let k : Int := e + (l : Int) + (if up then 1 else 0)
    let y := toFx w false m (e - k)
    let one : Int := ((2 ^ w : Nat) : Int)
    let z := ((y - one) * one) / (y + one)
    let ln := 2 * fxAtanh w z
    (k * one + (ln * one) / fxLn2 w, 0)
  | .sin =>
    let (q, r) := trigReduce w n m e
    (if q = 0 then fxSin w r else if q = 1 then fxCos w r else if q = 2 then -(fxSin w r) else -(fxCos w r), 0)
  | .cos =>
    let (q, r) := trigReduce w n m e
    (if q = 0 then fxCos w r else if q = 1 then -(fxSin w r) else if q = 2 then -(fxCos w r) else fxSin w r, 0)
  | .tanh =>
    let one : Int := ((2 ^ w : Nat) : Int)
    let x2 := 2 * toFx w false m e
    let ln2 := fxLn2 w
    let k := x2 / ln2
    let p := fxExp w (x2 - k * ln2)
    let a := p * ((2 ^ k.toNat : Nat) : Int)
    let v := ((a - one) * one) / (a + one)
    (if n then -v else v, 0)

/-- Enclose at precision `w` and round both ends; where they differ, double the precision, `fuel` times. -/
def encloseRound (f : TFun) (ff : FFmt) (n : Bool) (m : Nat) (e : Int) : Nat → Nat → Fl
  | 0, w =>
    let (v, x) := fxFun f w n m e
    .fin (decide (v < 0)) (2 * v.natAbs + 1) (x - (w : Int) - 1)
  | fuel + 1, w =>
    let (v, x) := fxFun f w n m e
    let lo := v - ((2 ^ 32 : Nat) : Int)
    let hi := v + ((2 ^ 32 : Nat) : Int)
    let neg := decide (v < 0)
    let same := (decide (lo < 0) == decide (hi < 0)) &&
      (ff.roundMag (2 * lo.natAbs + 1) (x - (w : Int) - 1) == ff.roundMag (2 * hi.natAbs + 1) (x - (w : Int) - 1))
    if same then .fin neg (2 * v.natAbs + 1) (x - (w : Int) - 1)
    else encloseRound f ff n m e fuel (2 * w)

/-- The first precision tried: enough fraction bits for the operand's least bit and the format's mantissa. -/
def startPrec (ff : FFmt) (m : Nat) (e : Int) : Nat :=
  2 * ff.mbits + 96 + (-e - (Nat.log2 m : Int)).toNat * 1 + 8

/-- A finite, non-zero argument that is no exact case: the enclosed value. -/
def fxValue (f : TFun) (ff : FFmt) (n : Bool) (m : Nat) (e : Int) : Fl :=
  encloseRound f ff n m e 12 (startPrec ff m e)

/-- The greatest power of two that divides m, at most 2^k. -/
def trailing : Nat → Nat → Nat
  | 0, _ => 0
  | k + 1, m => if m % 2 = 0 then trailing k (m / 2) + 1 else 0

/-- VEXP2 (R174): exact at integers, so large that it overflows or so small that it underflows beyond every format's range. -/
def Fl.exp2 (ff : FFmt) : Fl → Fl
  | .nan => .nan
  | .inf n => if n then .fin false 0 0 else .inf false
  | .fin n m e =>
    if m = 0 then .fin false 1 0
    else
      let t := trailing (Nat.log2 m + 1) m
      let e' := e + (t : Int)
      if 13 ≤ e + (Nat.log2 m : Int) then (if n then .fin false 1 (-8192) else .fin false 1 8192)
      else if 0 ≤ e' then
        let k : Int := (((m >>> t) <<< e'.toNat : Nat) : Int)
        .fin false 1 (if n then -k else k)
      else if e + (Nat.log2 m : Int) < -200 then .fin false (2 ^ 200 + (if n then 0 else 2) - 1) (-200)
      else fxValue .exp2 ff n m e

/-- VLOG2 (R174): exact at powers of two. -/
def Fl.log2 (ff : FFmt) : Fl → Fl
  | .nan => .nan
  | .inf n => if n then .nan else .inf false
  | .fin n m e =>
    if m = 0 then .inf true
    else if n then .nan
    else if m = 2 ^ Nat.log2 m then Fl.ofInt (e + (Nat.log2 m : Int)) 0
    else fxValue .log2 ff n m e

/-- VSIN (R174). A zero keeps its sign, the exact value of an odd function there. -/
def Fl.sin (ff : FFmt) : Fl → Fl
  | .nan => .nan
  | .inf _ => .nan
  | .fin n m e =>
    if m = 0 then .fin n 0 0
    else if e + (Nat.log2 m : Int) < -200 then .fin n (m * 2 ^ 200 - 1) (e - 200)
    else fxValue .sin ff n m e

/-- VCOS (R174). -/
def Fl.cos (ff : FFmt) : Fl → Fl
  | .nan => .nan
  | .inf _ => .nan
  | .fin n m e =>
    if m = 0 then .fin false 1 0
    else if e + (Nat.log2 m : Int) < -200 then .fin false (2 ^ 200 - 1) (-200)
    else fxValue .cos ff n m e

/-- VTANH (R174). Above 64 the value is within 2⁻¹⁸⁰ of one. -/
def Fl.tanh (ff : FFmt) : Fl → Fl
  | .nan => .nan
  | .inf n => .fin n 1 0
  | .fin n m e =>
    if m = 0 then .fin n 0 0
    else if 6 ≤ e + (Nat.log2 m : Int) then .fin n (2 ^ 180 - 1) (-180)
    else if e + (Nat.log2 m : Int) < -200 then .fin n (m * 2 ^ 200 - 1) (e - 200)
    else fxValue .tanh ff n m e

/-- VRCP (R174). -/
def Fl.rcp (ff : FFmt) (a : Fl) : Fl := (Fl.fin false 1 0).div (ff.mbits + 4) a

/-- VRSQRT (R174): 1/√x, with −∞ at −0. -/
def Fl.rsqrt (ff : FFmt) : Fl → Fl
  | .nan => .nan
  | .inf n => if n then .nan else .fin false 0 0
  | .fin n m e =>
    if m = 0 then .inf n
    else if n then .nan
    else
      let p := 2 * (ff.mbits + 8) + Nat.log2 m
      let s := if (e + (p : Int)) % 2 = 0 then 2 * p else 2 * p + 1
      -- 1/(m·2^e) = (2^t / m)·2^(−e−t); its root with a sticky bit for both inexact steps
      let t := if (e + (s : Int)) % 2 = 0 then s else s + 1
      let q := 2 ^ t / m
      let r := isqrt q
      .fin false (2 * r + (if r * r * m = 2 ^ t then 0 else 1)) ((-e - (t : Int)) / 2 - 1)

end Sys2Proof.Machine
end

