-- ==== Sys2Proof/Machine/Vector.lean ====
section
/-!
DEFINITION. The V unit: element layout (R134), arithmetic (R135, R136, R171–R174), latency and occupancy (R137), gather and scatter (R138)
and parity (R187).
-/
namespace Sys2Proof.Machine

/-- The element width of a TYPE (R134). -/
def vbits : VType → Nat
  | .f64 => 64
  | .f16 => 16
  | .bf16 => 16
  | _ => 32

/-- The number of elements of a TYPE (R134). -/
def vcount (ty : VType) : Nat := 2048 / vbits ty

/-- The format of a floating TYPE. -/
def vfmt : VType → Option FFmt
  | .f32 => some fmtFP32
  | .f64 => some fmtFP64
  | .f16 => some fmtFP16
  | .bf16 => some fmtBF16
  | .i32 => none
  | .u32 => none

/-- The elements of a vector register (R134). -/
def velts (ty : VType) (v : BitVec 2048) : List Nat := (List.range (vcount ty)).map (fun i => bits v.toNat (i * vbits ty) (vbits ty))

/-- A vector register from elements of a width; absent elements are zero. -/
def ofElts (w : Nat) (l : List Nat) : BitVec 2048 := BitVec.ofNat 2048 (l.foldr (fun x acc => x % 2 ^ w + 2 ^ w * acc) 0)

/-- The value of an integer element. -/
def vint (ty : VType) (x : Nat) : Int := if ty = .i32 then signedOf 32 x else (x : Int)

/-- An integer result modulo 2³². -/
def iwrap (v : Int) : Nat × Nat := (wrapInt 32 v, 0)

/-- The bits of a floating result, with its flags. -/
def encFR (f : FFmt) (r : FR) : Nat × Nat := (f.encode r.1, r.2)

/-- All ones or all zeros across the element (R136). -/
def vmask (ty : VType) (b : Bool) : Nat := if b then 2 ^ vbits ty - 1 else 0

/-- VADD (R171, R172). -/
def eAdd (ty : VType) (a b : Nat) : Nat × Nat :=
  match vfmt ty with
  | some f => encFR f (fAdd f (f.decode a) (f.decode b))
  | none => iwrap (vint ty a + vint ty b)

/-- VSUB (R171, R172). -/
def eSub (ty : VType) (a b : Nat) : Nat × Nat :=
  match vfmt ty with
  | some f => encFR f (fAdd f (f.decode a) (f.decode b).negate)
  | none => iwrap (vint ty a - vint ty b)

/-- VMUL (R171, R172). -/
def eMul (ty : VType) (a b : Nat) : Nat × Nat :=
  match vfmt ty with
  | some f => encFR f (fMul f (f.decode a) (f.decode b))
  | none => iwrap (vint ty a * vint ty b)

/-- VFMA (R171). -/
def eFma (ty : VType) (a b c : Nat) : Nat × Nat :=
  match vfmt ty with
  | some f => encFR f (fFma f (f.decode a) (f.decode b) (f.decode c))
  | none => iwrap (vint ty a * vint ty b + vint ty c)

/-- VMIN and VMAX (R172): NaN where either is NaN, −0 below +0. -/
def eMinMax (max' : Bool) (ty : VType) (a b : Nat) : Nat × Nat :=
  match vfmt ty with
  | some f =>
    let x := f.decode a
    let y := f.decode b
    if x.isNaN || y.isNaN then (f.nanCode, 0)
    else if max' then (if x.below y then (b, 0) else (a, 0)) else (if y.below x then (b, 0) else (a, 0))
  | none =>
    let less := decide (vint ty a < vint ty b)
    (if less == max' then b else a, 0)

/-- VABS (R172). -/
def eAbs (ty : VType) (a : Nat) : Nat × Nat :=
  match vfmt ty with
  | some f => if (f.decode a).isNaN then (f.nanCode, 0) else (a % 2 ^ (f.ebits + f.mbits), 0)
  | none => iwrap (vint ty a).natAbs

/-- VNEG (R172). -/
def eNeg (ty : VType) (a : Nat) : Nat × Nat :=
  match vfmt ty with
  | some f => if (f.decode a).isNaN then (f.nanCode, 0) else ((a + 2 ^ (f.ebits + f.mbits)) % 2 ^ f.width, 0)
  | none => iwrap (-(vint ty a))

/-- The compares (R136, R172): 0 equal, 1 less, 2 less or equal; a NaN compares false. -/
def eCmp (op : Nat) (ty : VType) (a b : Nat) : Nat × Nat :=
  let pick := fun (c : Int) => if op = 0 then decide (c = 0) else if op = 1 then decide (c < 0) else decide (c ≤ 0)
  match vfmt ty with
  | some f =>
    let x := f.decode a
    let y := f.decode b
    (vmask ty (!(x.isNaN || y.isNaN) && pick (x.cmp y)), 0)
  | none => (vmask ty (pick (vint ty a - vint ty b)), 0)

/-- VSEL (R136): any non-zero selector takes SRC1. -/
def eSel (a b c : Nat) : Nat × Nat := (if c = 0 then b else a, 0)

/-- The shifts (R135): 0 left, 1 logical right, 2 arithmetic right, by bits [4:0]. -/
def eShift (op : Nat) (a b : Nat) : Nat × Nat :=
  let s := b % 32
  if op = 0 then ((a <<< s) % 2 ^ 32, 0) else if op = 1 then (a >>> s, 0) else (wrapInt 32 (signedOf 32 a / ((2 ^ s : Nat) : Int)), 0)

/-- A floating element converted to INT32 or UINT32 (R173). -/
def cvtToInt (ty2 : VType) (x : Fl) : Nat × Nat :=
  let lo : Int := if ty2 = .i32 then -2147483648 else 0
  let hi : Int := if ty2 = .i32 then 2147483647 else 4294967295
  match x with
  | .nan => (0, fCVTSAT)
  | .inf n => (wrapInt 32 (if n then lo else hi), fCVTSAT)
  | .fin n m e =>
    let k : Int := ((rneInt m e : Nat) : Int)
    let v := if n then -k else k
    if v < lo then (wrapInt 32 lo, fCVTSAT) else if hi < v then (wrapInt 32 hi, fCVTSAT) else (wrapInt 32 v, 0)

/-- VCVT of one element (R173). -/
def eCvt (ty ty2 : VType) (a : Nat) : Nat × Nat :=
  match vfmt ty, vfmt ty2 with
  | some f, some g =>
    let x := f.decode a
    if ty = ty2 then (if x.isNaN then (f.nanCode, 0) else (a, 0))
    else
      let (v, o) := g.round x
      (g.encode v, o)
  | some f, none => cvtToInt ty2 (f.decode a)
  | none, some g =>
    let (v, o) := g.round (Fl.ofInt (vint ty a) 0)
    (g.encode v, o)
  | none, none =>
    if ty = ty2 then (a, 0)
    else if ty = .i32 then (if signedOf 32 a < 0 then (0, fCVTSAT) else (a, 0))
    else (if 2 ^ 31 ≤ a then (2 ^ 31 - 1, fCVTSAT) else (a, 0))

/-- The transcendental functions of R135. -/
inductive VFun where
  | rcp
  | rsqrt
  | sqrt
  | exp2
  | log2
  | sin
  | cos
  | tanh
  deriving DecidableEq, Repr

/-- A transcendental of one element (R171, R174). -/
def eFun (fn : VFun) (ty : VType) (a : Nat) : Nat × Nat :=
  match vfmt ty with
  | none => (0, 0)
  | some f =>
    let x := f.decode a
    match fn with
    | .sqrt => encFR f (fSqrt f x)
    | .rcp => encFR f (rounded f [x] (x.rcp f))
    | .rsqrt => encFR f (rounded f [x] (x.rsqrt f))
    | .exp2 => encFR f (rounded f [x] (x.exp2 f))
    | .log2 => encFR f (rounded f [x] (x.log2 f))
    | .sin => encFR f (rounded f [x] (x.sin f))
    | .cos => encFR f (rounded f [x] (x.cos f))
    | .tanh => encFR f (rounded f [x] (x.tanh f))

/-- VDIV of one element (R171). -/
def eDiv (ty : VType) (a b : Nat) : Nat × Nat :=
  match vfmt ty with
  | some f => encFR f (fDiv f (f.decode a) (f.decode b))
  | none => (0, 0)

/-- A reduction in the pairwise tree (R136, R172): element 0 takes it, the others zero. -/
def eReduce (op : VType → Nat → Nat → Nat × Nat) (ty : VType) (l : List Nat) : Nat × Nat :=
  canonTree (fun (x y : Nat × Nat) => let r := op ty x.1 y.1; (r.1, r.2 ||| x.2 ||| y.2)) (0, 0) 8 (l.map (fun x => (x, 0)))

/-! ## Latency and occupancy -/

/-- The groups of R137. -/
inductive VGroup where
  | mov
  | light
  | arith
  | cvt (ty2 : VType)
  | reduce
  | trans
  deriving DecidableEq, Repr

/-- Latency and occupancy (R137): integer operations of the arithmetic group take the second row; a VCVT takes the fourth, in the FP64
column where either TYPE is FP64. -/
def vtiming (g : VGroup) (ty : VType) : Nat × Nat :=
  let wide := ty = .f64
  let int := (vfmt ty).isNone
  match g with
  | .mov => (1, 1)
  | .light => (2, 1)
  | .arith => if int then (2, 1) else if wide then (8, 2) else (4, 1)
  | .cvt ty2 => if wide ∨ ty2 = .f64 then (8, 2) else (4, 1)
  | .reduce => if wide then (12, 2) else (8, 1)
  | .trans => if wide then (32, 16) else (12, 4)

/-- The clusters of a stream whose parity check fails (R187). -/
def vParity (c : Ctx) (par : Nat) : List Nat := c.st.clusters.filter (fun cl => bit par (cl + 4))

/-- The device after the parity errors of a V instruction (R176, R187). -/
def vParityFx (m : Mach) (c : Ctx) (par : Nat) : Mach := (vParity c par).foldl (fun m cl => raiseParity m c 0x0302 (cl + 4)) m

/-- What a V instruction contributes: in every cluster the elements that `f` gives with the flags they raise (R66, R175); a cluster with a
parity error keeps its destination (R187). -/
def vMap (par : Nat) (g : VGroup) (ty : VType) (w dst : Nat) (f : Nat → List (Nat × Nat)) (m : Mach) (c : Ctx) : Issued × Mach :=
  let (lat, occ) := vtiming g ty
  let cls := c.st.clusters.filter (fun cl => !bit par (cl + 4))
  let res := cls.map (fun cl => (cl, f cl))
  let fl := res.foldl (fun a x => x.2.foldl (fun b y => b ||| y.2) a) 0
  ({ lands := res.map (fun x => (lat, .v x.1 dst (ofElts w (x.2.map (·.1))))) ++ (if fl = 0 then [] else [(lat, .flags fl)]), occ },
   vParityFx m c par)

/-- Elements of a vector register of a cluster. -/
def vsrc (m : Mach) (ty : VType) (cl r : Nat) : List Nat := velts ty (readV m cl r)

/-- A V instruction of one source. -/
def v1 (par : Nat) (g : VGroup) (f : VType → Nat → Nat × Nat) (ty : VType) (dst a : Nat) (m : Mach) (c : Ctx) : Issued × Mach :=
  vMap par g ty (vbits ty) dst (fun cl => (vsrc m ty cl a).map (f ty)) m c

/-- A V instruction of two sources. -/
def v2 (par : Nat) (g : VGroup) (f : VType → Nat → Nat → Nat × Nat) (ty : VType) (dst a b : Nat) (m : Mach) (c : Ctx) : Issued × Mach :=
  vMap par g ty (vbits ty) dst (fun cl => ((vsrc m ty cl a).zip (vsrc m ty cl b)).map (fun p => f ty p.1 p.2)) m c

/-- A V instruction of three sources. -/
def v3 (par : Nat) (g : VGroup) (f : VType → Nat → Nat → Nat → Nat × Nat) (ty : VType) (dst a b s : Nat) (m : Mach) (c : Ctx) :
    Issued × Mach :=
  vMap par g ty (vbits ty) dst
    (fun cl => ((vsrc m ty cl a).zip ((vsrc m ty cl b).zip (vsrc m ty cl s))).map (fun p => f ty p.1 p.2.1 p.2.2)) m c

/-- VCVT (R136, R173): the smaller of the two element counts; every other destination element is zero. -/
def vcvt (par : Nat) (ty ty2 : VType) (dst a : Nat) (m : Mach) (c : Ctx) : Issued × Mach :=
  vMap par (.cvt ty2) ty (vbits ty2) dst
    (fun cl => ((vsrc m ty cl a).take (min (vcount ty) (vcount ty2))).map (eCvt ty ty2)) m c

/-- VBCAST (R135): the low bits of a scalar register in every element. -/
def vbcast (par : Nat) (ty : VType) (dst s : Nat) (m : Mach) (c : Ctx) : Issued × Mach :=
  let x := (readS m c.bank s).toNat % 2 ^ vbits ty
  vMap par .light ty (vbits ty) dst (fun _ => List.replicate (vcount ty) (x, 0)) m c

/-- VEXT (R135, R136): an element of the rank-0 cluster, zero-extended; zero past the element count. -/
def vext (par : Nat) (ty : VType) (dst a lane : Nat) (m : Mach) (c : Ctx) : Issued × Mach :=
  let (lat, occ) := vtiming .light ty
  match c.st.clusters with
  | [] => ({ lands := [(lat, .s c.bank dst 0)], occ }, m)
  | cl :: _ =>
    let x := (vsrc m ty cl a).getD lane 0
    ({ lands := if bit par (cl + 4) then [] else [(lat, .s c.bank dst (BitVec.ofNat 64 x))], occ }, vParityFx m c par)

/-- A reduction (R136). -/
def vred (par : Nat) (op : VType → Nat → Nat → Nat × Nat) (ty : VType) (dst a : Nat) (m : Mach) (c : Ctx) : Issued × Mach :=
  vMap par .reduce ty (vbits ty) dst
    (fun cl => eReduce op ty (vsrc m ty cl a) :: List.replicate (vcount ty - 1) (0, 0)) m c

/-! ## Gather and scatter -/

/-- The addresses of the elements in the cluster of a rank (R138): within the one berth that holds the cluster's base, and at or below
LIMIT; none for a suppressed element. An element outside berth space, or in a berth the run may not touch, is suppressed too. -/
def vgAddrs (m : Mach) (c : Ctx) (t : TDesc) (write : Bool) (rank : Nat) (idx : List Nat) : List (Option Nat) :=
  let base : Int := (t.base : Int) + (rank : Int) * t.cstride
  let b := berthOf base.toNat
  let ok := decide (0 ≤ base) && decide (base < 33554432) && mayTouch m c.run b write
  idx.map (fun i =>
    let a := base + ((4 * i : Nat) : Int)
    if ok && decide (a + 3 ≤ (t.limit : Int)) && decide (a + 3 < (((b + 1) * 2 ^ 19 : Nat) : Int)) then some a.toNat else none)

/-- The hold of the cluster of a rank over cycles c + 1 to c + 16 (R138): none where its berth is not the run's to touch. -/
def vgHold (m : Mach) (c : Ctx) (t : TDesc) (write : Bool) (rank : Nat) : Hold :=
  let base : Int := (t.base : Int) + (rank : Int) * t.cstride
  let b := berthOf base.toNat
  let ok := decide (0 ≤ base) && decide (base < 33554432) && mayTouch m c.run b write
  { id := c.run.nextHold + rank, ins := c.ins, rank, frm := c.cyc + 1, til := c.cyc + 16, berths := if ok then 2 ^ b else 0,
    rows := false, lost := false, buf := [] }

/-- VGATHER (R138). -/
def vgather (par dst src1 src2 : Nat) (m : Mach) (c : Ctx) : Issued × Mach :=
  let d := readD m c.bank src1
  let t := tdesc d
  if !tdescValid d then ({ squash := 0x0213 }, m)
  else
    let cls := c.st.clusters.zipIdx
    let adr := cls.map (fun p => (p, vgAddrs m c t false p.2 (velts .u32 (readV m p.1 src2))))
    ({ holds := cls.map (fun p => vgHold m c t false p.2), occ := 16,
       faults := if adr.any (fun x => x.2.any Option.isNone) then [0x0210] else [],
       accs := (adr.filter (fun x => !bit par (x.1.1 + 4))).map (fun x => (16, x.1.2, .gather (c.run.nextHold + x.1.2) x.1.1 dst x.2)) },
     vParityFx m c par)

/-- VSCATTER (R138): the highest-numbered element of an address is written. -/
def vscatter (par src1 src2 src3 : Nat) (m : Mach) (c : Ctx) : Issued × Mach :=
  let d := readD m c.bank src1
  let t := tdesc d
  if !tdescValid d then ({ squash := 0x0213 }, m)
  else
    let cls := c.st.clusters.zipIdx
    let adr := cls.map (fun p => (p, vgAddrs m c t true p.2 (velts .u32 (readV m p.1 src2))))
    let cells := fun (x : (Nat × Nat) × List (Option Nat)) =>
      (x.2.zip (velts .u32 (readV m x.1.1 src3))).filterMap (fun q => q.1.map (fun a => (a, q.2)))
    ({ holds := cls.map (fun p => vgHold m c t true p.2), occ := 16,
       faults := if adr.any (fun x => x.2.any Option.isNone) then [0x0210] else [],
       accs := (adr.filter (fun x => !bit par (x.1.1 + 4))).map (fun x => (16, x.1.2, .scatter (c.run.nextHold + x.1.2) (cells x))) },
     vParityFx m c par)

end Sys2Proof.Machine
end

