-- ==== Sys2Proof/Machine/Move.lean ====
section
/-!
DEFINITION. The M unit: loads and stores (R139–R141), berth-to-berth moves (R142, R143, R210), descriptor words, and fabric records (R144,
R145).
-/
namespace Sys2Proof.Machine

/-- Addr of R139: s[SRC1] + sext(IMM32), modulo 2²⁵ in berth space and modulo 2³² in a task's space (R355). -/
def mAddr (m : Mach) (c : Ctx) (src : Nat) (imm : BitVec 32) : Nat :=
  (readS m c.bank src + sext64 imm).toNat % 2 ^ (if c.run.isTask then 32 else 25)

/-- LD.S, ST.S and LD.D: an aligned access, or a suppressed one with SQ_MISALIGNED; a suppressed load lands zero (R81, R140). -/
def loadIns (d : LoadDest) (n a : Nat) : Issued :=
  if a % n = 0 then { accs := [(1, 0, .load d (a : Int) n spaceTop)] }
  else { lands := [(3, loadLand d [])], faults := [0x0216] }

/-- A store of a scalar register (R139, R140). -/
def storeIns (n a : Nat) (bs : List Byte) : Issued :=
  if a % n = 0 then { accs := [(1, 0, .store (a : Int) bs spaceTop)] } else { faults := [0x0216] }

/-- The address of a cluster's 256 bytes (R139). -/
def vAddr (t : TDesc) (rank : Nat) (imm : BitVec 32) : Int := (t.base : Int) + (rank : Int) * t.cstride + imm.toInt

/-- LD.V (R139–R141). -/
def ldv (dst src : Nat) (imm : BitVec 32) (m : Mach) (c : Ctx) : Issued :=
  let d := readD m c.bank src
  let t := tdesc d
  if !tdescValid d then { squash := 0x0213 }
  else
    let cls := c.st.clusters.zipIdx
    let mis := cls.filter (fun p => vAddr t p.2 imm % 64 != 0)
    let good := cls.filter (fun p => vAddr t p.2 imm % 64 == 0)
    { accs := good.map (fun p => (1, p.2, .load (.v p.1 dst) (vAddr t p.2 imm) 256 t.limit)),
      lands := mis.map (fun p => (3, .v p.1 dst 0)), faults := if mis.isEmpty then [] else [0x0216] }

/-- ST.V (R139–R141). -/
def stv (data src : Nat) (imm : BitVec 32) (m : Mach) (c : Ctx) : Issued :=
  let d := readD m c.bank src
  let t := tdesc d
  if !tdescValid d then { squash := 0x0213 }
  else
    let cls := c.st.clusters.zipIdx
    let mis := cls.filter (fun p => vAddr t p.2 imm % 64 != 0)
    let good := cls.filter (fun p => vAddr t p.2 imm % 64 == 0)
    { accs := good.map (fun p => (1, p.2, .store (vAddr t p.2 imm) (leBytes 256 (readV m p.1 data).toNat) t.limit)),
      faults := if mis.isEmpty then [] else [0x0216] }

/-- The beats of a row of `n` bytes: offsets and lengths (R143). -/
def beatsOf (n : Nat) : List (Nat × Nat) := (List.range (ceilDiv n 256)).map (fun i => (256 * i, min 256 (n - 256 * i)))

/-- The rows of a move: source and destination row addresses, with the width and number of elements in a row. Where both sides are
compressed alike the compressed images move, one row per block row (log 35). -/
def moveRows (s d : TDesc) : List (Int × Int) × Nat × Nat :=
  if s.cmp ≠ 0 ∧ d.cmp ≠ 0 then
    (s.blockRows.map (fun x => (s.blockRow 0 x.1 x.2.1 x.2.2, d.blockRow 0 x.1 x.2.1 x.2.2)), 8,
     s.sz 0 / 8 * blockBytes (fmtBits s.fmt) s.cmp)
  else (s.rows.map (fun x => (s.rowAddr 0 x.1 x.2.1 x.2.2, d.rowAddr 0 x.1 x.2.1 x.2.2)), fmtBits s.fmt, s.sz 0)

/-- MOVB of bytes from berth to berth (R143). -/
def movePlain (s d : TDesc) : Issued :=
  let (rows, w, n) := moveRows s d
  let shared := (s.berths 0 &&& d.berths 0) != 0
  let bts := beatsOf ((n * w + 7) / 8)
  let all := (rows.flatMap (fun r => bts.map (fun b =>
    ({ srow := r.1, drow := r.2, w, n, off := b.1, len := b.2, slim := s.limit, dlim := d.limit } : Beat)))).zipIdx
  { accs := all.map (fun p => if shared then (1 + 2 * p.2, 0, .beatR p.1 0) else (1 + p.2, 0, .beatR p.1 0)),
    occ := if shared then 2 * all.length else all.length }

/-- The write cycles of a move's beats, relative to issue, set as cycles of the run (R143). -/
def setBeatCycles (cyc : Nat) (shared : Bool) (o : Issued) : Issued :=
  { o with accs := o.accs.zipIdx.map (fun p =>
      match p.1 with
      | (k, rk, .beatR b _) => (k, rk, .beatR b (cyc + (if shared then 6 + 2 * p.2 else 5 + p.2)))
      | x => x) }

/-- MOVB that compresses (R205–R207, R210): beats are read on the uncompressed side, and a block row is written in the write cycle of the
last beat of its eighth row. -/
def moveCompress (s d : TDesc) (hold : Nat) : List (Nat × Nat × AccAct) × Nat :=
  let rb := s.rowBytes
  let bts := beatsOf rb
  let per := bts.length
  let reads := ((s.rows.flatMap (fun x => bts.map (fun b => (x, b)))).zipIdx).map (fun p =>
    (1 + p.2, 0, AccAct.rowR { srow := s.rowAddr 0 p.1.1.1 p.1.1.2.1 p.1.1.2.2, drow := 0, w := fmtBits s.fmt, n := s.sz 0,
                               off := p.1.2.1, len := p.1.2.2, slim := s.limit, dlim := 0 } hold))
  let encs := d.blockRows.zipIdx.map (fun p =>
    (5 + (8 * (p.2 + 1) * per - 1), 0,
     AccAct.rowEnc hold d.fmt d.cmp (d.sz 0 / 8) (8 * p.2 * rb) (d.blockRow 0 p.1.1 p.1.2.1 p.1.2.2) rb d.limit))
  (reads ++ encs, s.rows.length * per)

/-- MOVB that decompresses (R208, R210): a block row is read in the read cycle of the first beat of its first row, and the beats are written
on the uncompressed side. -/
def moveDecompress (c : Ctx) (s d : TDesc) (hold : Nat) : List (Nat × Nat × AccAct) × Nat :=
  let bts := beatsOf d.rowBytes
  let per := bts.length
  let rows := d.rows
  let decs := s.blockRows.zipIdx.map (fun p =>
    let first := 8 * p.2 * per
    let beats := ((List.range 8).flatMap (fun y => bts.map (fun b => (y, b)))).zipIdx.map (fun q =>
      let x := rows.getD (8 * p.2 + q.1.1) (0, 0, 0)
      (c.cyc + 5 + first + q.2, ({ srow := 0, drow := d.rowAddr 0 x.1 x.2.1 x.2.2, w := fmtBits d.fmt, n := d.sz 0, off := q.1.2.1,
                                   len := q.1.2.2, slim := 0, dlim := d.limit } : Beat)))
    (1 + first, 0, AccAct.rowDec hold s.fmt s.cmp (s.sz 0 / 8) (s.blockRow 0 p.1.1 p.1.2.1 p.1.2.2) s.limit beats))
  (decs, rows.length * per)

/-- MOVB (R142, R143, R210). A tensor of an MX format needs whole blocks (R160); its element codes move and its scales do not
(log 35). -/
def movb (dst src : Nat) (m : Mach) (c : Ctx) : Issued :=
  let ds := readD m c.bank src
  let dd := readD m c.bank dst
  let s := tdesc ds
  let d := tdesc dd
  if !(tdescValid ds && tdescValid dd) then { squash := 0x0213 }
  else if s.fmt ≠ d.fmt ∨ s.rank ≠ d.rank ∨ s.size ≠ d.size ∨ (isMX s.fmt ∧ s.sz 0 % 32 ≠ 0) then { squash := 0x0215 }
  else
    let shared := (s.berths 0 &&& d.berths 0) != 0
    if s.cmp = d.cmp then setBeatCycles c.cyc shared (movePlain s d)
    else if (s.cmp ≠ 0 ∧ d.cmp ≠ 0) ∨ shared then { squash := 0x0214 }
    else
      let side := if s.cmp = 0 then d else s
      let (accs, beats) := if s.cmp = 0 then moveCompress s d c.run.nextHold else moveDecompress c s d c.run.nextHold
      let h : Hold := { id := c.run.nextHold, ins := c.ins, rank := 0, frm := c.cyc + 1, til := c.cyc + beats + 4,
                        berths := reachable m c.run (side.berths 0), rows := true, lost := false, buf := [] }
      { accs, holds := [h], occ := beats }

/-- Word `i` of a descriptor register set (R139). -/
def setDWord (d : BitVec 512) (i : Nat) (v : BitVec 64) : BitVec 512 :=
  BitVec.ofNat 512 (d.toNat - bits d.toNat (64 * i) 64 * 2 ^ (64 * i) + v.toNat * 2 ^ (64 * i))

/-- BASE advanced modulo 2²⁵ (R139). -/
def addBase (d : BitVec 512) (v : BitVec 64) : BitVec 512 :=
  BitVec.ofNat 512 (d.toNat - bits d.toNat 0 25 + (bits d.toNat 0 25 + v.toNat) % 2 ^ 25)

/-- A node ID that some node of the connected set has (R618, R643): IDs run from 0 to COUNT − 1. -/
def nodeExists (m : Mach) (n : Nat) : Bool := decide (n < m.fldOf rCH_NODE 16 7)

/-- Post a fabric record (R144, R145): refused as a seventeenth, as a receive without a manifest, or for a node that does not exist. -/
def recordIns (m : Mach) (c : Ctx) (r : FabRec) (ds : List (BitVec 512)) : Issued :=
  if !ds.all tdescValid then { squash := 0x0213 }
  else if 16 ≤ c.run.records.length ∨ (r.kind ≠ 0 ∧ c.run.manifest = 0xFFFF) ∨ (r.kind ≠ 2 ∧ !nodeExists m r.node) then { squash := 0x0217 }
  else { records := [r] }

end Sys2Proof.Machine
end

