-- ==== Sys2Proof/Machine/Control.lean ====
section
/-!
DEFINITION. The S unit's data and control instructions (R115–R119) and the landing of results (R87).
-/
namespace Sys2Proof.Machine

/-- An S instruction that computes s[DST] from s[SRC1] and operand 2, landing after `lat` cycles (R115, R147). -/
def aluIns (lat : Nat) (f : BitVec 64 → BitVec 64 → BitVec 64) (dst src1 : Fin 64) (op2 : Op2) (m : Mach) (c : Ctx) : Issued :=
  { lands := [(lat, .s c.bank dst.val (f (readS m c.bank src1.val) (readOp2 m c.bank op2)))] }

/-- An S instruction that sets p[DST] from s[SRC1] and operand 2 (R115). -/
def cmpIns (f : BitVec 64 → BitVec 64 → Bool) (dst : Fin 8) (src1 : Fin 64) (op2 : Op2) (m : Mach) (c : Ctx) : Issued :=
  { lands := [(1, .p c.bank dst.val (f (readS m c.bank src1.val) (readOp2 m c.bank op2)))] }

/-- The shift amount op2[5:0] (R115). -/
def shAmt (b : BitVec 64) : Nat := b.toNat % 64

/-- RESULT_LAND (R87). -/
def execResultLand (r : RunId) (s : State) : Host.Outcome State Fault Refusal := s.effect (fun m => resultLand m (runKey r))

/-- ADD (R114, R115). -/
def execAdd (i : Issue) (d a : Fin 64) (o : Op2) (s : State) : Host.Outcome State Fault Refusal :=
  s.effect (fun m => issuePure m i 0 (aluIns 1 (fun x y => x + y) d a o))

/-- SUB (R114, R115). -/
def execSub (i : Issue) (d a : Fin 64) (o : Op2) (s : State) : Host.Outcome State Fault Refusal :=
  s.effect (fun m => issuePure m i 0 (aluIns 1 (fun x y => x - y) d a o))

/-- MUL (R115, latency 3 by R147). -/
def execMul (i : Issue) (d a : Fin 64) (o : Op2) (s : State) : Host.Outcome State Fault Refusal :=
  s.effect (fun m => issuePure m i 0 (aluIns 3 (fun x y => x * y) d a o))

/-- AND (R115). -/
def execAnd (i : Issue) (d a : Fin 64) (o : Op2) (s : State) : Host.Outcome State Fault Refusal :=
  s.effect (fun m => issuePure m i 0 (aluIns 1 (fun x y => x &&& y) d a o))

/-- OR (R115). -/
def execOr (i : Issue) (d a : Fin 64) (o : Op2) (s : State) : Host.Outcome State Fault Refusal :=
  s.effect (fun m => issuePure m i 0 (aluIns 1 (fun x y => x ||| y) d a o))

/-- XOR (R115). -/
def execXor (i : Issue) (d a : Fin 64) (o : Op2) (s : State) : Host.Outcome State Fault Refusal :=
  s.effect (fun m => issuePure m i 0 (aluIns 1 (fun x y => x ^^^ y) d a o))

/-- SHL (R115). -/
def execShl (i : Issue) (d a : Fin 64) (o : Op2) (s : State) : Host.Outcome State Fault Refusal :=
  s.effect (fun m => issuePure m i 0 (aluIns 1 (fun x y => x <<< shAmt y) d a o))

/-- SHR (R115). -/
def execShr (i : Issue) (d a : Fin 64) (o : Op2) (s : State) : Host.Outcome State Fault Refusal :=
  s.effect (fun m => issuePure m i 0 (aluIns 1 (fun x y => x >>> shAmt y) d a o))

/-- SAR (R115). -/
def execSar (i : Issue) (d a : Fin 64) (o : Op2) (s : State) : Host.Outcome State Fault Refusal :=
  s.effect (fun m => issuePure m i 0 (aluIns 1 (fun x y => x.sshiftRight (shAmt y)) d a o))

/-- MIN, signed (R115). -/
def execMin (i : Issue) (d a : Fin 64) (o : Op2) (s : State) : Host.Outcome State Fault Refusal :=
  s.effect (fun m => issuePure m i 0 (aluIns 1 (fun x y => if x.slt y then x else y) d a o))

/-- MAX, signed (R115). -/
def execMax (i : Issue) (d a : Fin 64) (o : Op2) (s : State) : Host.Outcome State Fault Refusal :=
  s.effect (fun m => issuePure m i 0 (aluIns 1 (fun x y => if x.slt y then y else x) d a o))

/-- MINU, unsigned (R115). -/
def execMinu (i : Issue) (d a : Fin 64) (o : Op2) (s : State) : Host.Outcome State Fault Refusal :=
  s.effect (fun m => issuePure m i 0 (aluIns 1 (fun x y => if x.ult y then x else y) d a o))

/-- MAXU, unsigned (R115). -/
def execMaxu (i : Issue) (d a : Fin 64) (o : Op2) (s : State) : Host.Outcome State Fault Refusal :=
  s.effect (fun m => issuePure m i 0 (aluIns 1 (fun x y => if x.ult y then y else x) d a o))

/-- MOVI (R115). -/
def execMovi (i : Issue) (d : Fin 64) (imm : BitVec 32) (s : State) : Host.Outcome State Fault Refusal :=
  s.effect (fun m => issuePure m i 0 (fun _ c => { lands := [(1, .s c.bank d.val (sext64 imm))] }))

/-- MOVHI (R115). -/
def execMovhi (i : Issue) (d a : Fin 64) (imm : BitVec 32) (s : State) : Host.Outcome State Fault Refusal :=
  s.effect (fun m => issuePure m i 0 (fun m c =>
    { lands := [(1, .s c.bank d.val ((imm.zeroExtend 64 <<< 32) ||| (readS m c.bank a.val &&& 0xFFFFFFFF#64)))] }))

/-- The special registers of R75 and R116; a lighthouse task reads the tick, 255, its tenant and 0 (R354). -/
def specReg (m : Mach) (r : SlotRun) (sel : Nat) : Nat :=
  match sel with
  | 0 => m.clk.tick
  | 1 => if r.isTask then 255 else r.id
  | 2 => r.tenant
  | _ => if r.isTask then 0 else r.choice

/-- RDSPEC (R116). -/
def execRdspec (i : Issue) (d : Fin 64) (sel : Fin 4) (s : State) : Host.Outcome State Fault Refusal :=
  s.effect (fun m => issuePure m i 0 (fun m c => { lands := [(1, .s c.bank d.val (BitVec.ofNat 64 (specReg m c.run sel.val)))] }))

/-- CMPEQ (R115). -/
def execCmpeq (i : Issue) (d : Fin 8) (a : Fin 64) (o : Op2) (s : State) : Host.Outcome State Fault Refusal :=
  s.effect (fun m => issuePure m i 0 (cmpIns (fun x y => x == y) d a o))

/-- CMPNE (R115). -/
def execCmpne (i : Issue) (d : Fin 8) (a : Fin 64) (o : Op2) (s : State) : Host.Outcome State Fault Refusal :=
  s.effect (fun m => issuePure m i 0 (cmpIns (fun x y => x != y) d a o))

/-- CMPLT, signed (R115). -/
def execCmplt (i : Issue) (d : Fin 8) (a : Fin 64) (o : Op2) (s : State) : Host.Outcome State Fault Refusal :=
  s.effect (fun m => issuePure m i 0 (cmpIns (fun x y => x.slt y) d a o))

/-- CMPLTU, unsigned (R115). -/
def execCmpltu (i : Issue) (d : Fin 8) (a : Fin 64) (o : Op2) (s : State) : Host.Outcome State Fault Refusal :=
  s.effect (fun m => issuePure m i 0 (cmpIns (fun x y => x.ult y) d a o))

/-- CMPLE, signed (R115). -/
def execCmple (i : Issue) (d : Fin 8) (a : Fin 64) (o : Op2) (s : State) : Host.Outcome State Fault Refusal :=
  s.effect (fun m => issuePure m i 0 (cmpIns (fun x y => x.sle y) d a o))

/-- CMPLEU, unsigned (R115). -/
def execCmpleu (i : Issue) (d : Fin 8) (a : Fin 64) (o : Op2) (s : State) : Host.Outcome State Fault Refusal :=
  s.effect (fun m => issuePure m i 0 (cmpIns (fun x y => x.ule y) d a o))

/-- The truth table of PLOGIC: bit 2·p(SRC1) + p(SRC2) of IMM32[3:0] (R115). -/
def plogic (table : Fin 16) (a b : Bool) : Bool := bit table.val (2 * b2n a + b2n b)

/-- PLOGIC (R115). -/
def execPlogic (i : Issue) (d a b : Fin 8) (t : Fin 16) (s : State) : Host.Outcome State Fault Refusal :=
  s.effect (fun m => issuePure m i 0 (fun m c =>
    { lands := [(1, .p c.bank d.val (plogic t (readP m c.bank a.val) (readP m c.bank b.val)))] }))

/-- LOOP (R94, R106): the count is read at issue. -/
def execLoop (i : Issue) (body : Nat) (n : Op2) (s : State) : Host.Outcome State Fault Refusal :=
  s.effect (fun m => issuePure m i 0 (fun m c => { ctl := .loop body (readCount m c.bank n) }))

/-- B (R96). -/
def execB (i : Issue) (off : BitVec 32) (s : State) : Host.Outcome State Fault Refusal :=
  s.effect (fun m => issuePure m i 0 (fun _ _ => { ctl := .branch off.toInt }))

/-- WAIT (R118): a count of 0 behaves as NOP. -/
def execWait (i : Issue) (n : Op2) (s : State) : Host.Outcome State Fault Refusal :=
  s.effect (fun m => issuePure m i 0 (fun m c => { ctl := .wait (readCount m c.bank n) }))

/-- END (R98). -/
def execEndStream (i : Issue) (s : State) : Host.Outcome State Fault Refusal :=
  s.effect (fun m => issuePure m i 0 (fun _ _ => { ctl := .stop }))

end Sys2Proof.Machine
end

