-- ==== Sys2Proof/Machine/CascadeIns.lean ====
section
/-!
DEFINITION. The cascade and power instructions (R120–R126): PILOT, CONF, WAKE, BOND.OPEN, BOND.COMMIT and BOND.DROP.
-/
namespace Sys2Proof.Machine

/-- The quay cycle of the tick at which an instruction's effect at c + 1 falls. -/
def Ctx.effectCycle (c : Ctx) : Nat := c.run.start + c.cyc + 1

/-- The stage that causes what a speculative run does (R327). -/
def Ctx.cause (c : Ctx) : Option Nat := if c.run.spec then some c.run.stage else none

/-- A speculative run whose bond no longer exists acts on nothing outside itself: it ends into the bond (R331, log 36). -/
def Ctx.orphan (c : Ctx) (m : Mach) : Bool := c.run.spec && (runBond m c.run).isNone

/-- PILOT (R121): a notice of a load step at c + LEAD. -/
def pilotIns (cls : Nat) (down : Bool) (lead : Nat) (_ : Mach) (c : Ctx) : Issued :=
  { pilots := [{ cls, down, at' := c.cyc + lead }] }

/-- CONF (R122, R319): publishes bits [15:0] of a scalar register at c + 1. -/
def confIns (src : Nat) (m : Mach) (c : Ctx) : Issued × Mach :=
  if !c.run.cascade then ({ squash := 0x0218 }, m)
  else if c.orphan m then ({}, m)
  else ({}, publish m c.run.tenant c.run.stage ((readS m c.bank src).toNat % 2 ^ 16) (quayTime m c.effectCycle))

/-- WAKE KIND 0 (R123): as the preceding stage reaching PREWAKE, on a SLOT or a PEER stage. -/
def wakeStage (m : Mach) (c : Ctx) (j : Nat) : Mach :=
  match cascOf m c.run.tenant with
  | none => m
  | some q =>
    if !q.armed then m
    else if (q.stage j).kind = 3 then (actOnSlot m c.run.tenant j 0 (quayTime m c.effectCycle) c.cause).1
    else if (q.stage j).kind = 4 ∧ !c.run.spec then
      putCasc m { q with sends := q.sends ++ [{ stage := j - 1, dec := 0, value := 0, tick := m.clk.tick }] }
    else m

/-- WAKE (R123): KIND 0 wakes a stage, KIND 1 posts a software event, held in the bond of a speculative run. -/
def wakeIns (event : Bool) (target : Nat) (m : Mach) (c : Ctx) : Issued × Mach :=
  if event then
    let code := 0x8100 + target % 64
    if c.run.spec then
      match runBond m c.run with
      | some (q, b) => ({}, putCasc m (q.putBond { b with events := b.events ++ [code] }))
      | none => ({}, m)
    else ({}, postEvent m code c.run.tenant)
  else
    let j := target % 8
    match cascOf m c.run.tenant with
    | none => ({ squash := 0x0218 }, m)
    | some q =>
      if (q.stage j).kind = 0 then ({ squash := 0x0218 }, m)
      else if c.orphan m then ({}, m)
      else ({}, wakeStage m c j)

/-- BOND.OPEN (R124, R328). -/
def bondOpenIns (src : Nat) (m : Mach) (c : Ctx) : Issued × Mach :=
  if !c.run.spec then ({}, m)
  else
    let mask := (readS m c.bank src).toNat
    match runBond m c.run with
    | none => ({ squash := 0x0219 }, m)
    | some (q, b) =>
      let others := m.cas.flatMap (fun x => (x.bonds.filter (fun y => !(x.tenant == q.tenant && y == b))).map (·.berths))
      let taken := others.foldl (· ||| ·) 0
      if (mask &&& c.run.berths) ≠ mask ∨ (mask &&& taken) ≠ 0 ∨ (mask &&& c.run.inputs) ≠ 0 ∨ q.max < popCount (q.bonded ||| mask) 64
      then ({ squash := 0x0219 }, m)
      else ({}, putCasc m (q.putBond { b with berths := b.berths ||| mask }))

/-- BOND.COMMIT and BOND.DROP are valid in a cascade slot of a lower stage only (R125). -/
def bondMisuse (c : Ctx) (j : Nat) : Bool := !c.run.cascade || decide (j ≤ c.run.stage)

/-- BOND.COMMIT (R125, R126, R345): the flip begins at c + 1, or at the end cycle of a running speculative slot of the stage. -/
def bondCommitIns (j : Nat) (m : Mach) (c : Ctx) : Issued × Mach :=
  if bondMisuse c j then ({ squash := 0x0218 }, m)
  else
    match (cascOf m c.run.tenant).bind (fun q => (q.bond j).map (fun b => (q, b))) with
    | none => ({}, m)
    | some _ =>
      if c.run.spec then
        match runBond m c.run with
        | some (q, b) => ({}, putCasc m (q.putBond { b with commits := b.commits ++ [j] }))
        | none => ({}, m)
      else
        let runs := m.st.runs.filter (fun r => r.tenant == c.run.tenant && r.spec && r.stage == j && !r.isTask)
        ({}, commitAt m c.run.tenant j (some ((runs.map (·.endCycle)).foldl max c.effectCycle)))

/-- BOND.DROP (R125, R126, R331). -/
def bondDropIns (j : Nat) (m : Mach) (c : Ctx) : Issued × Mach :=
  if bondMisuse c j then ({ squash := 0x0218 }, m)
  else if c.orphan m then ({}, m)
  else ({}, dropBond m c.run.tenant j c.effectCycle false c.cause)

/-- PILOT (R121). -/
def execPilot (i : Issue) (cls : Fin 8) (down : Bool) (lead : Nat) (s : State) : Host.Outcome State Fault Refusal :=
  s.effect (fun m => issuePure m i 0 (pilotIns cls.val down lead))

/-- CONF (R122). -/
def execConf (i : Issue) (a : Fin 64) (s : State) : Host.Outcome State Fault Refusal :=
  s.effect (fun m => issue m i 0 (confIns a.val))

/-- WAKE (R123). -/
def execWake (i : Issue) (event : Bool) (target : Fin 64) (s : State) : Host.Outcome State Fault Refusal :=
  s.effect (fun m => issue m i 0 (wakeIns event target.val))

/-- BOND.OPEN (R124). -/
def execBondOpen (i : Issue) (a : Fin 64) (s : State) : Host.Outcome State Fault Refusal :=
  s.effect (fun m => issue m i 0 (bondOpenIns a.val))

/-- BOND.COMMIT (R126). -/
def execBondCommit (i : Issue) (j : Fin 8) (s : State) : Host.Outcome State Fault Refusal :=
  s.effect (fun m => issue m i 0 (bondCommitIns j.val))

/-- BOND.DROP (R126). -/
def execBondDrop (i : Issue) (j : Fin 8) (s : State) : Host.Outcome State Fault Refusal :=
  s.effect (fun m => issue m i 0 (bondDropIns j.val))

end Sys2Proof.Machine
end

