-- ==== Sys2Proof/Machine/Cranes.lean ====
section
/-!
DEFINITION. Manifests (R242–R245), the release of lists (R247–R251), the cranes' transfers (R246, R253, R561–R564), reservations (R252) and
the tier mover (R237–R241), with the commands and events of the memory tiers.
-/
namespace Sys2Proof.Machine

/-! ## Manifests -/

/-- Entry `i` of a manifest image (R243). -/
def manEnt (d : List Byte) (i : Nat) : MEnt :=
  let o := 32 * (1 + i)
  { h := byteFld d o 4, cmp := byteFld d (o + 4) 4 % 4, off := byteFld d (o + 8) 8, len := byteFld d (o + 16) 4, berth := byteFld d (o + 20) 4 % 2 ^ 25 }

/-- Reserved bits of an entry are zero (R243). -/
def manEntResv (d : List Byte) (i : Nat) : Bool :=
  let o := 32 * (1 + i)
  byteFld d (o + 4) 4 < 4 && byteFld d (o + 20) 4 < 2 ^ 25 && zeroAt d (o + 24) 8

/-- Berths that a byte range of berth space touches, as a mask. -/
def berthMask (a n : Nat) : Nat :=
  if n = 0 then 0 else maskOf ((List.range 64).filter (fun b => decide (a / 524288 ≤ b ∧ b ≤ (a + n - 1) / 524288)))

/-- A rule of the installed set grants a tenant a right (R561); `f` tests its range. -/
def granted (m : Mach) (t kind right : Nat) (f : Rule → Bool) : Bool :=
  m.hm.rules.any (fun r => r.kind == kind && r.tenant == t && bit r.rights right && f r)

/-- A page of an allocation is granted to a tenant (R561). -/
def pageGranted (m : Mach) (t h p : Nat) : Bool := granted m t 1 0 (fun r => r.a == h && decide (r.b ≤ p ∧ p < r.b + r.c))

/-- A tenant may name an allocation in a manifest (R244 step 3). -/
def mayName (m : Mach) (t : Nat) (input : Bool) (h : Nat) : Bool :=
  match findAlloc m h with
  | none => false
  | some a => a.owner == t || (input && a.sharedRo && granted m t 1 0 (·.a == h))

/-- The step of R244 that a manifest image fails, or 0. -/
def manifestStep (m : Mach) (t : Nat) (d : List Byte) : Nat :=
  let nin := byteFld d 6 2
  let nwb := byteFld d 8 2
  if d.length < 32 ∨ byteFld d 0 4 ≠ 0x4B4C4D46 ∨ byteFld d 4 2 ≠ 1 ∨ 1024 < nin ∨ 1024 < nwb ∨ d.length ≠ 32 * (1 + nin + nwb) then 1
  else
    let idx := List.range (nin + nwb)
    let es := idx.map (manEnt d)
    if !(zeroAt d 10 6 && zeroAt d 24 8 && idx.all (manEntResv d)) ∨ es.any (·.cmp == 3) then 2
    else if !(idx.all (fun i => mayName m t (decide (i < nin)) (manEnt d i).h)) then 3
    else
      let sizeOf := fun (e : MEnt) => ((findAlloc m e.h).map Alloc.size).getD 0
      if es.any (fun e => decide (e.off % 64 ≠ 0 ∨ e.len % 64 ≠ 0 ∨ e.berth % 64 ≠ 0 ∨ e.len < 64 ∨ 16777216 < e.len ∨ sizeOf e < e.off + e.len)) then 4
      else
        let ins := es.take nin
        let wbs := es.drop nin
        let berths := byteFld d 16 8
        let disj : List (Nat × Nat × Nat) → Bool := fun l => (l.zipIdx).all (fun p => (l.drop (p.2 + 1)).all (fun q =>
          p.1.1 != q.1 || decide (p.1.2.1 + p.1.2.2 ≤ q.2.1 ∨ q.2.1 + q.2.2 ≤ p.1.2.1)))
        if es.any (fun e => decide (2 ^ 25 < e.berth + e.len) || (berthMask e.berth e.len &&& berths) != berthMask e.berth e.len) ∨
            !disj (ins.map (fun e => (0, e.berth, e.len))) ∨ !disj (wbs.map (fun e => (e.h, e.off, e.len))) then 5
        else if wbs.any (fun e => ((findAlloc m e.h).map Alloc.sharedRo).getD false) ∨
            es.any (fun e => e.cmp != 0 && !((findAlloc m e.h).map Alloc.compressOk).getD false) then 6
        else
          let used := (m.mem.mans.map (fun x => 32 * (1 + x.ins.length + x.wbs.length))).foldl (· + ·) 0
          if 2097152 < used + d.length ∨ 0xFFFE < lowestFree (m.mem.mans.map (·.h)) then 7 else 0

/-- Store a manifest under the lowest free handle (R244). -/
def storeManifest (m : Mach) (t : Nat) (d : List Byte) : Mach × Nat :=
  let nin := byteFld d 6 2
  let es := (List.range (nin + byteFld d 8 2)).map (manEnt d)
  let h := lowestFree (m.mem.mans.map (·.h))
  ({ m with mem := { m.mem with nextUid := m.mem.nextUid + 1,
                                mans := m.mem.mans ++ [{ h, uid := m.mem.nextUid, tenant := t, berths := byteFld d 16 8,
                                                         ins := es.take nin, wbs := es.drop nin }] } }, h)

/-- The manifest that a binding names, while it is loaded (R755). -/
def boundMan (m : Mach) (b : Nat) : Option Manifest := m.mem.mans.find? (fun x => x.uid + 1 == b)

/-- The manifest of a handle, as a binding; 0 for none. -/
def bindOf (m : Mach) (h : Nat) : Nat := ((m.mem.mans.find? (·.h == h)).map (·.uid + 1)).getD 0

/-- A manifest that a valid entry of the active table or of a pending submission names (R245). -/
def manInUse (m : Mach) (x : Manifest) : Bool := anyNaming m (fun e => e.manifest == x.h)

/-! ## Lists -/

/-- The transfers of an entry: cut at page boundaries of the allocation (R246). -/
def entryXfers (m : Mach) (l : CList) (spec : Bool) (e : MEnt) : List (Nat → Xfer) :=
  let a := findAlloc m e.h
  let gen := (a.map (·.gen)).getD 0
  let hide := spec && (a.map Alloc.noSpec).getD false
  let first := e.off / pageSize
  (List.range ((e.off + e.len - 1) / pageSize + 1 - first)).map (fun k =>
    let lo := max e.off ((first + k) * pageSize)
    let hi := min (e.off + e.len) ((first + k + 1) * pageSize)
    fun id => { id, list := l.id, slot := l.slot, kind := l.kind, tenant := l.tenant, h := e.h, gen, off := lo, len := hi - lo,
                berth := e.berth + (lo - e.off), st := 0, epoch := 0, noLand := hide })

/-- Release a list (R247): its transfers wait for the cranes. One whose allocation does not exist has failed (R225, R262). -/
def releaseList (m : Mach) (slot kind tenant : Nat) (x : Manifest) (spec : Bool) (fabric : Nat) (notice : Option (Nat × Nat)) : Mach :=
  let es := if kind = 0 then x.ins else x.wbs
  let gone := es.any (fun e => (findAlloc m e.h).isNone)
  let hidden := kind = 0 && spec && es.any (fun e => ((findAlloc m e.h).map Alloc.noSpec).getD false)
  let l : CList := { id := m.mem.nextId, slot, kind, tenant, uid := x.uid, heat := [], abandoned := false,
                     failed := if gone ∧ kind = 0 then 0x0507 else 0, withheld := hidden, fabric, notice }
  let live := es.filter (fun e => (findAlloc m e.h).isSome)
  let xs := ((live.flatMap (entryXfers m l spec)).zipIdx).map (fun p => p.1 (m.mem.nextId + 1 + p.2))
  let m := { m with mem := { m.mem with lists := m.mem.lists ++ [l], xfers := m.mem.xfers ++ xs, nextId := m.mem.nextId + 1 + xs.length } }
  listEnd m l.id

/-- Abandon the input list that feeds a slot (R247): what it has not issued goes, what it has issued completes. -/
def abandonFeed (m : Mach) (slot : Nat) : Mach :=
  match feedList m slot with
  | none => m
  | some l =>
    let m := putList m { l with abandoned := true }
    let m := { m with mem := { m.mem with xfers := m.mem.xfers.filter (fun x => !(x.list == l.id && x.st == 0)) } }
    listEnd m l.id

/-- Release the input list for a slot's next run (R247, R249, R250): an earlier one still in flight is abandoned, and the
manifest-complete bit starts afresh. -/
def releaseInputs (m : Mach) (slot tenant : Nat) (x : Manifest) (spec : Bool) (fabric : Nat) : Mach :=
  let m := abandonFeed m slot
  let m := (m.setFlagOf (rCR_MAN_STATE slot) 0 false).setFlagOf (rCR_MAN_STATE slot) 1 true
  releaseList m slot 0 tenant x spec fabric none

/-! ## Transfers -/

/-- The tier that a page lies in now: 0 DRAM, 1 flash, 2 host memory. -/
def tierOf (a : Alloc) (p : Nat) : Nat := if a.home = 0 ∨ (a.page p).dram then 0 else a.home

/-- The power domains that a transfer needs (R254, R482): CRANE, and those of the tier it moves bytes of. -/
def xferDomains (a : Alloc) (x : Xfer) : List Nat :=
  let p := x.off / pageSize
  13 :: (match tierOf a p with | 0 => [15] | 1 => [15, 16] | _ => [17]) ++ (if x.kind = 1 ∧ inFlash a p then [16] else [])

/-- A domain serves new transfers: it is on, in no transition, and no lowering waits for it to drain (R482). -/
def serves (m : Mach) (d : Nat) : Bool := isOn m d && !inTrans m d && !m.pm.acts.any (fun a => a.dom == d && a.drain)

/-- Berths that slots hold now (R246). -/
def heldBerths (m : Mach) : Nat := (m.st.runs.filter (fun r => !r.isTask)).foldl (fun k r => k ||| r.berths) 0

/-- The right of R561 that a transfer uses is granted by the rules in force (R563). -/
def xferGranted (m : Mach) (x : Xfer) : Bool :=
  (bitList (berthMask x.berth x.len) 64).all (fun b =>
    granted m x.tenant 2 (if x.kind = 0 then 1 else 0) (fun r => decide (r.a ≤ b ∧ b < r.a + r.b))) &&
  (match findGen m x.h x.gen with
   | none => false
   | some a => a.owner == x.tenant || (x.kind == 0 && a.sharedRo && pageGranted m x.tenant x.h (x.off / pageSize)))

/-- Transfers that are issued and not complete (CR_OUTSTANDING, R253). -/
def outstandingXfers (m : Mach) : Nat := (m.mem.xfers.filter (fun x => decide (1 ≤ x.st))).length

/-- A transfer may issue now (R246–R248, R253, R482): it waits, its berth is not held, its domains serve, and the transfers that go before it
are complete. -/
def mayIssue (m : Mach) (x : Xfer) : Bool :=
  x.st == 0 && (heldBerths m &&& berthMask x.berth x.len) == 0 &&
  (match findGen m x.h x.gen with
   | none => false
   | some a => (xferDomains a x).all (serves m)) &&
  (findList m x.list).any (fun l => !l.abandoned) &&
  decide (outstandingXfers m < 4096) &&
  !m.mem.xfers.any (fun y => y.slot == x.slot && y.st != 0 && ((findList m y.list).any (·.abandoned))) &&
  (x.kind == 1 || !m.mem.xfers.any (fun y => y.slot == x.slot && y.kind == 1 && decide (y.berth < x.berth + x.len ∧ x.berth < y.berth + y.len)))

/-- TRANSFER_ISSUE (R281, R563). -/
def issueXfer (m : Mach) (id : Nat) : Mach :=
  match m.mem.xfers.find? (·.id == id) with
  | none => m
  | some x =>
    if !mayIssue m x then m
    else if !xferGranted m x then
      let m := raiseSlot m 0x0D07 x.tenant x.slot 0
      dropXfer (if x.kind = 0 then failList m x.list 0x0507 else m) x
    else if x.kind = 1 ∧ m.flagOf rFL_STATUS 1 ∧ (findGen m x.h x.gen).any (fun a => inFlash a (x.off / pageSize)) then
      dropXfer (failRun m 0x0601 x.tenant x.slot) x
    else
      { m with mem := { m.mem with xfers := mapIf (·.id == id) (fun x => { x with st := 1, epoch := m.fldOf rHM_RULE_EPOCH 0 16 }) m.mem.xfers } }

/-- Reads of flash blocks join the read counters (R283); a waiting block at 1.5 times the limit raises FL_RD_BACKLOG once (R287). -/
def addReads (m : Mach) (reads : List (Nat × Nat)) : Mach :=
  reads.foldl (fun m r =>
    let n := tabGet m.fl.reads r.1 0 + r.2
    let m := { m with fl := { m.fl with reads := tabSet m.fl.reads r.1 n 0 } }
    if m.fl.limit * 3 ≤ 2 * n ∧ !m.fl.backlog.contains r.1 then
      raiseD { m with fl := { m.fl with backlog := m.fl.backlog ++ [r.1] } } 0x0604 0
    else m) m

/-- Corrected DRAM errors are counted (R259). -/
def addCorrected (m : Mach) (n : Nat) : Mach := m.satFld rDM_CE_COUNT 0 32 n

/-- An uncorrectable read (R266, R282): the page is poisoned, but a PERSIST page is restored from its flash copy; a DRAM error is recorded. -/
def poisonPage (m : Mach) (a : Alloc) (p : Nat) (dram : Bool) : Mach :=
  let m := putAlloc m (a.setPage p { a.page p with poison := !(dram && a.persist) })
  if !dram then m else
  let m := m.satFld rDM_UE_COUNT 0 16 1
  let m := (m.setRegN rDM_LAST_UE_ALLOC a.h).setRegN rDM_LAST_UE_PAGE p
  m.setReg64 rDM_LAST_UE_TICK_LO m.clk.tick

/-- The DRAM copy that a demotion left is released once no transfer reads it (R240). -/
def releaseOld (m : Mach) (h gen p : Nat) : Mach :=
  match findGen m h gen with
  | none => m
  | some a =>
    if (a.page p).old ∧ !m.mem.xfers.any (fun x => x.h == h && x.gen == gen && x.off / pageSize == p && decide (1 ≤ x.st)) then
      putAlloc m (a.setPage p { a.page p with old := false })
    else m

/-- The fault with which a transfer's read or write fails, or 0 (R266, R282, R680): a poisoned page fails every read. -/
def xferFault (a : Alloc) (x : Xfer) (e : XferEnd) : Nat :=
  let p := x.off / pageSize
  match e with
  | .hostError => 0x0F04
  | .dramError => if x.kind = 0 then 0x0509 else 0
  | .flashError => if x.kind = 0 then 0x0602 else 0
  | .ok => if x.kind = 0 ∧ (a.page p).poison then poisonFault a p else 0

/-- TRANSFER_COMPLETE (R250, R259, R262–R266, R282, R564). -/
def completeXfer (m : Mach) (id : Nat) (e : XferEnd) (ce : Nat) (reads : List (Nat × Nat)) : Mach :=
  match m.mem.xfers.find? (·.id == id) with
  | none => m
  | some x =>
    if x.st = 0 ∨ (x.st = 1 ∧ (heldBerths m &&& berthMask x.berth x.len) ≠ 0) then m
    else
      let m := addCorrected (addReads m reads) ce
      let p := x.off / pageSize
      let m :=
        if 2 ≤ x.st then (if x.st = 2 ∧ x.kind = 1 then raiseSlot m 0x0D07 x.tenant x.slot 0 else m)
        else match findGen m x.h x.gen with
          | none => m
          | some a =>
            let f := xferFault a x e
            if f ≠ 0 then
              let m := if e = .dramError then poisonPage m a p true else if e = .flashError then poisonPage m a p false else m
              if x.kind = 0 then failList m x.list f else failRun m f x.tenant x.slot
            else if x.kind = 0 then
              let m := moveBytes m x x.len
              match findList m x.list with
              | some l => putList m { l with heat := l.heat ++ [(pageKey x.h x.gen p, x.len)] }
              | none => m
            else
              let lastB := (x.berth + x.len - 1) / 524288
              writeAlloc m a x.off (readBerths m x.berth x.len) 64 0 (some (x.id, x.list, x.tenant, x.berth / 524288 + 64 * lastB))
      releaseOld (dropXfer m x) x.h x.gen p

/-- Write-back transfers whose source berths are taken by a hold before they have read them are aborted, and the list's run raises
CR_WRITEBACK_OVERTAKEN once (R255, R263). -/
def overtake (m : Mach) (berths : Nat) : Mach :=
  let hit := fun (x : Xfer) => x.kind == 1 && decide (x.st < 2) && (berthMask x.berth x.len &&& berths) != 0
  let ls := m.mem.lists.filter (fun l => l.kind == 1 && m.mem.xfers.any (fun x => x.list == l.id && hit x))
  ls.foldl (fun m l => abortXfers (failRun m 0x0508 l.tenant l.slot) (fun x => x.list == l.id && hit x) 4) m

/-! ## Placement -/

/-- Insert by a key, after equals. -/
def insertOn {α : Type} (k : α → Nat) (x : α) : List α → List α
  | [] => [x]
  | y :: ys => if k x < k y then x :: y :: ys else y :: insertOn k x ys

/-- A list in ascending order of a key. -/
def sortOn {α : Type} (k : α → Nat) (l : List α) : List α := l.foldl (fun acc x => insertOn k x acc) []

/-- Pages in the evaluation order of R238: tenant, handle, page. -/
def evalOrder (m : Mach) : List (Nat × Nat) :=
  (sortOn (fun a => a.owner * 2 ^ 32 + a.h) (m.mem.allocs.filter (·.zeroing.isNone))).flatMap (fun a => a.pg.map (fun e => (a.h, e.1)))

/-- The copy of a page begins. -/
def startCopy (m : Mach) (h p : Nat) : Mach :=
  match findAlloc m h with
  | some a => putAlloc m (a.setPage p { a.page p with copy := 1 })
  | none => m

/-- The promoted page of a tenant with the lowest heat, ties to the lowest handle and page (R239). -/
def coldest (m : Mach) (t : Nat) : Option (Nat × Nat × Nat) :=
  let cs := (evalOrder m).filterMap (fun e =>
    match findAlloc m e.1 with
    | some a => if a.owner = t ∧ (a.page e.2).dram ∧ (a.page e.2).copy = 0 then some (e.1, e.2, (a.page e.2).heat) else none
    | none => none)
  (sortOn (fun c => c.2.2) cs).head?

/-- Evaluate one page (R238, R239). -/
def evalPage (m : Mach) (e : Nat × Nat) : Mach :=
  match findAlloc m e.1 with
  | none => m
  | some a =>
    let g := a.page e.2
    if a.home = 0 ∨ !bit a.flags 0 ∨ g.copy ≠ 0 then m
    else if g.dram then (if g.heat ≤ m.mem.demote then startCopy m e.1 e.2 else m)
    else if g.heat < m.mem.promote then m
    else if dramUsedBy m a.owner < m.fldOf (rTM_DRAM_QUOTA a.owner) 0 18 ∧ dramUsed m < 258048 then startCopy m e.1 e.2
    else match coldest m a.owner with
      | some c => if c.2.2 < g.heat then startCopy (startCopy m c.1 c.2.1) e.1 e.2 else m
      | none => m

/-- A page changes tier (R240). -/
def handover (m : Mach) (e : Nat × Nat) : Mach :=
  match findAlloc m e.1 with
  | none => m
  | some a =>
    let g := a.page e.2
    let reading := m.mem.xfers.any (fun x => x.h == a.h && x.gen == a.gen && x.off / pageSize == e.2 && decide (1 ≤ x.st))
    putAlloc m (a.setPage e.2 { g with dram := !g.dram, copy := 0, old := g.dram && reading })

/-- A copied page may change tier now: a promotion within the tenant's quota (R239). -/
def mayHandover (m : Mach) (e : Nat × Nat) : Bool :=
  (findAlloc m e.1).any (fun a => (a.page e.2).copy == 2 &&
    ((a.page e.2).dram || (decide (dramUsedBy m a.owner ≤ m.fldOf (rTM_DRAM_QUOTA a.owner) 0 18))))

/-- The pages whose copies are complete: demotions first where a displaced page makes room (R239, R240). -/
def handovers : List (Nat × Nat) → Nat → Mach → Mach
  | [], _, m => m
  | e :: es, left, m =>
    if left = 0 then m
    else if mayHandover m e then handovers es (left - 1) (handover m e)
    else handovers es left m

/-- The tier mover's work in a seam (R237–R240, R257): parameters, decay, evaluation, handovers. `tick` is the ending tick's number. -/
def placement (m : Mach) (tick : Nat) : Mach :=
  let m := { m with mem := { m.mem with decay := m.fldOf rTM_DECAY 0 16, promote := m.fldOf rTM_PROMOTE 0 8, demote := m.fldOf rTM_DEMOTE 0 8 } }
  let m := if tick % max 1 m.mem.decay = 0 then decayHeat m else m
  let m := if m.flagOf rTM_CTRL 0 then (evalOrder m).foldl evalPage m else m
  let ready := (evalOrder m).filter (fun e => (findAlloc m e.1).any (fun a => (a.page e.2).copy == 2))
  let m := handovers ready 256 m
  let rest := ((evalOrder m).filter (mayHandover m)).length
  m.setFldOf rTM_STATUS 16 16 (min rest 65535)

/-! ## The commands and events -/

/-- ALLOC (R226–R229). -/
def execAlloc (cmd : CmdCtx) (size flags : Nat) (s : State) : Host.Outcome State Fault Refusal :=
  s.effect (fun m => beginCmd m cmd 0x10 0x0F02 noWait (fun m =>
    let t := cmd.q.val
    let pages := ceilDiv size pageSize
    if badFlags m t flags then refuse m t cmd.cid 0x10 0x0501 0
    else if size = 0 then refuse m t cmd.cid 0x10 0x0F02 0
    else if !hasRoom m t flags pages then refuse m t cmd.cid 0x10 0x0502 0
    else if homeTier flags = 0 ∧ m.fldOf (rTM_DRAM_QUOTA t) 0 18 < dramUsedBy m t + pages then refuse m t cmd.cid 0x10 0x0503 0
    else
      let (m, h) := createAlloc m t flags pages
      complete m t cmd.cid 0x10 0 h 0))

/-- FREE (R232, R245, R674). -/
def execFree (cmd : CmdCtx) (h : Nat) (s : State) : Host.Outcome State Fault Refusal :=
  s.effect (fun m => beginCmd m cmd 0x11 0x0F02 (naming (objKey 1 h)) (fun m =>
    let t := cmd.q.val
    match ownAlloc m t h with
    | none => refuse m t cmd.cid 0x11 0x0F02 0
    | some a =>
      if m.mem.mans.any (fun x => (x.ins ++ x.wbs).any (·.h == h) && manInUse m x) then refuse m t cmd.cid 0x11 0x0505 0
      else if a.zeroOnFree then
        let m := dropAlloc m h
        let m := { m with mem := { m.mem with allocs := m.mem.allocs ++ [{ a with data := [], zeroing := some (t, cmd.cid) }] } }
        running m t cmd.cid 0x11 2 none [objKey 1 h] 0 0
      else complete (dropAlloc m h) t cmd.cid 0x11 0 0 0))

/-- ZERO_ON_FREE_DONE (R232): every copy of the allocation is destroyed; its handle and its space are free. -/
def execZeroOnFreeDone (h : Nat) (s : State) : Host.Outcome State Fault Refusal :=
  s.effect (fun m =>
    match m.mem.allocs.find? (fun a => a.h == h && a.zeroing.isSome) with
    | none => m
    | some a =>
      let m := { m with mem := { m.mem with allocs := m.mem.allocs.filter (·.h != h) } }
      match a.zeroing with
      | some (q, cid) => complete m q cid 0x11 0 0 0
      | none => m)

/-- MANIFEST_LOAD (R244). -/
def execManifestLoad (cmd : CmdCtx) (r : BufRef) (s : State) : Host.Outcome State Fault Refusal :=
  s.effect (fun m => beginCmd m cmd 0x18 0x0F02 noWait (fun m => withRef m cmd 0x18 r false (fun d =>
    let t := cmd.q.val
    match manifestStep m t d with
    | 0 =>
      let (m, h) := storeManifest m t d
      complete m t cmd.cid 0x18 0 h 0
    | 7 => refuse m t cmd.cid 0x18 0x0502 7
    | k => refuse m t cmd.cid 0x18 0x0504 k)))

/-- MANIFEST_UNLOAD (R245). -/
def execManifestUnload (cmd : CmdCtx) (h : Nat) (s : State) : Host.Outcome State Fault Refusal :=
  s.effect (fun m => beginCmd m cmd 0x19 0x0F02 (naming (objKey 3 h)) (fun m =>
    let t := cmd.q.val
    match m.mem.mans.find? (fun x => x.h == h && x.tenant == t) with
    | none => refuse m t cmd.cid 0x19 0x0F02 0
    | some x =>
      if manInUse m x then refuse m t cmd.cid 0x19 0x0505 0
      else complete { m with mem := { m.mem with mans := m.mem.mans.filter (·.uid != x.uid) } } t cmd.cid 0x19 0 0 0))

/-- TRANSFER_ISSUE (R563). -/
def execTransferIssue (x : Nat) (s : State) : Host.Outcome State Fault Refusal := s.effect (fun m => issueXfer m x)

/-- TRANSFER_COMPLETE (R250); `ce` counts corrected errors and `reads` the flash pages read, by block. -/
def execTransferComplete (x : Nat) (e : XferEnd) (ce : Nat) (reads : List (Nat × Nat)) (s : State) : Host.Outcome State Fault Refusal :=
  s.effect (fun m => completeXfer m x e ce reads)

/-- PAGE_COPY_DONE (R240, R283); `reads` counts the flash pages read, by block. -/
def execPageCopyDone (h p : Nat) (reads : List (Nat × Nat)) (s : State) : Host.Outcome State Fault Refusal :=
  s.effect (fun m =>
    match findAlloc m h with
    | some a => if (a.page p).copy = 1 then putAlloc (addReads m reads) (a.setPage p { a.page p with copy := 2 }) else m
    | none => m)

/-- The sum of the accepted reservations on a pool (CR_RES_SUM_x, R252). -/
def resSum (m : Mach) (x : Nat) : Nat := ((List.range 64).map (fun t => m.fldOf (rCR_RES t x) 0 16)).foldl (· + ·) 0

/-- A write of a reservation by tenant `ctx` (R252): it is discarded where it would overfill the pool. -/
def writeRes (m : Mach) (ctx t x v : Nat) : Mach :=
  let v := v % 65536
  if m.fldOf (rCR_RES_POOL x) 0 16 < resSum m x - m.fldOf (rCR_RES t x) 0 16 + v then raiseT m 0x0506 ctx 0
  else
    let m := m.setFldOf (rCR_RES t x) 0 16 v
    m.setFldOf (rCR_RES_SUM x) 0 16 (resSum m x)

end Sys2Proof.Machine
end

