-- ==== Sys2Proof/Machine/Prog.lean ====
section
/-!
DEFINITION. Program images: their layout (R69, R70, R356), the encoding of instruction words as the load checks it (R82–R85, R115–R145),
bundles and control structure (R84, R94–R99), and the order of the checks (R101).
-/
namespace Sys2Proof.Machine

/-! ## Words -/

/-- A register file that an operand field may name (R83); `none` is a field that the opcode does not use. -/
inductive RFile where
  | none | s | p | d | v
  deriving DecidableEq, Repr

/-- A field holds a register number of its file (R74, R83). -/
def RFile.ok (f : RFile) (n : Nat) : Bool :=
  match f with
  | .none => n == 0
  | .s => decide (n < 64)
  | .p => decide (n < 8)
  | .d => decide (n < 16)
  | .v => decide (n < 32)

/-- How the bits [31:0] of a word are used. -/
inductive LowUse where
  /-- A 32-bit immediate, any value. -/
  | imm
  /-- An immediate whose value must satisfy a numbered test (`immOk`). -/
  | test (k : Nat)
  /-- Source 3 in [5:0] and the fields [31:6] of a numbered test (`fieldOk`), 0 for none. -/
  | src3 (f : RFile) (k : Nat)
  deriving DecidableEq, Repr

/-- One encoding of an opcode: its unit, opcode, IMM bit, register files and low bits (R115–R144). -/
structure Enc where
  unit : Nat
  op : Nat
  imm : Bool
  dst : RFile
  s1 : RFile
  s2 : RFile
  low : LowUse
  deriving DecidableEq, Repr

/-- Two encodings of an instruction whose operand 2 is a register or an immediate (R115). -/
def encOp2 (unit op : Nat) (dst s1 : RFile) : List Enc :=
  [⟨unit, op, false, dst, s1, .s, .src3 .none 0⟩, ⟨unit, op, true, dst, s1, .none, .imm⟩]

/-- The data and cascade instructions of the S unit (R115, R120), and WAIT and END (R117). LOOP stands apart: its fields are its own. -/
def encS : List Enc :=
  [⟨0, 0x00, false, .none, .none, .none, .src3 .none 0⟩] ++
  (List.range 13).flatMap (fun k => encOp2 0 (k + 1) .s .s) ++
  [⟨0, 0x10, true, .s, .none, .none, .imm⟩, ⟨0, 0x11, true, .s, .s, .none, .imm⟩, ⟨0, 0x12, true, .s, .none, .none, .test 1⟩] ++
  (List.range 6).flatMap (fun k => encOp2 0 (k + 0x18) .p .s) ++
  [⟨0, 0x1E, true, .p, .p, .p, .test 2⟩,
   ⟨0, 0x21, true, .none, .none, .none, .imm⟩,
   ⟨0, 0x22, true, .none, .none, .none, .imm⟩, ⟨0, 0x22, false, .none, .none, .none, .src3 .s 0⟩,
   ⟨0, 0x23, false, .none, .none, .none, .src3 .none 0⟩] ++
  [⟨0, 0x28, true, .none, .none, .none, .test 3⟩, ⟨0, 0x29, false, .none, .s, .none, .src3 .none 0⟩,
   ⟨0, 0x2A, true, .none, .none, .none, .test 4⟩, ⟨0, 0x2B, false, .none, .s, .none, .src3 .none 0⟩,
   ⟨0, 0x2C, true, .none, .none, .none, .test 5⟩, ⟨0, 0x2D, true, .none, .none, .none, .test 5⟩]

/-- The T unit (R127). -/
def encT : List Enc :=
  [⟨1, 0x01, false, .d, .d, .d, .src3 .none 1⟩, ⟨1, 0x02, false, .d, .d, .d, .src3 .d 2⟩, ⟨1, 0x03, false, .d, .d, .none, .src3 .d 3⟩]

/-- A V-unit encoding with its operand files and the numbered test of its TYPE fields (R135). -/
def encV1 (op : Nat) (dst s1 s2 s3 : RFile) (k : Nat) : Enc := ⟨2, op, false, dst, s1, s2, .src3 s3 k⟩

/-- The V unit (R135). Tests: 10 all types, 11 F, 12 I, 13 F and INT32, 14 UINT32, 15 INT32, 16 VCVT, 17 VEXT, 18 FP32 and I. -/
def encV : List Enc :=
  [1, 2, 3].map (fun op => encV1 op .v .v .v .none 10) ++ [encV1 0x04 .v .v .v .v 11] ++
  [5, 6].map (fun op => encV1 op .v .v .v .none 10) ++ [7, 8].map (fun op => encV1 op .v .v .none .none 13) ++
  [9, 10, 11].map (fun op => encV1 op .v .v .v .none 10) ++ [encV1 0x0C .v .v .v .v 10] ++
  [0x0D, 0x0E, 0x0F, 0x10].map (fun op => encV1 op .v .v .v .none 12) ++
  [encV1 0x11 .v .v .v .none 14, encV1 0x12 .v .v .v .none 15, encV1 0x14 .v .v .none .none 16, encV1 0x15 .v .s .none .none 10,
   encV1 0x16 .s .v .none .none 17] ++
  [0x18, 0x19, 0x1A].map (fun op => encV1 op .v .v .none .none 11) ++ [encV1 0x1B .v .v .v .none 11] ++
  [0x1C, 0x1D, 0x1E, 0x1F, 0x20].map (fun op => encV1 op .v .v .none .none 11) ++
  [0x24, 0x25, 0x26].map (fun op => encV1 op .v .v .none .none 10) ++
  [encV1 0x28 .v .d .v .none 18, encV1 0x29 .none .d .v .v 18, encV1 0x2A .v .v .none .none 10]

/-- The M unit (R139, R144). -/
def encM : List Enc :=
  [⟨3, 0x01, true, .s, .s, .none, .imm⟩, ⟨3, 0x02, true, .s, .s, .none, .imm⟩, ⟨3, 0x03, true, .v, .d, .none, .imm⟩,
   ⟨3, 0x04, true, .v, .d, .none, .imm⟩, ⟨3, 0x05, true, .d, .s, .none, .imm⟩, ⟨3, 0x06, false, .d, .d, .none, .src3 .none 0⟩,
   ⟨3, 0x08, true, .d, .s, .none, .test 6⟩, ⟨3, 0x09, true, .s, .d, .none, .test 6⟩] ++
  encOp2 3 0x0A .d .d ++
  [⟨3, 0x10, true, .none, .d, .none, .test 7⟩, ⟨3, 0x11, true, .none, .d, .none, .test 7⟩, ⟨3, 0x12, true, .d, .d, .none, .test 8⟩]

/-- Every encoding but LOOP's. -/
def encodings : List Enc := encS ++ encT ++ encV ++ encM

/-- The test of an immediate: selectors, field ranges and reserved bits (R116, R120, R139, R144). -/
def immOk (k imm : Nat) : Bool :=
  match k with
  | 1 => decide (imm < 4)
  | 2 => decide (imm < 16)
  | 3 => bits imm 4 4 == 0
  | 4 => bits imm 1 7 == 0 && bits imm 14 18 == 0 &&
         (bit imm 0 || (decide (2 ≤ bits imm 8 3 ∧ bits imm 8 3 ≤ 5) && bits imm 11 3 == 0))
  | 5 => decide (2 ≤ imm ∧ imm ≤ 5)
  | 6 => decide (imm < 8)
  | 7 => bits imm 6 2 == 0 && bits imm 14 18 == 0
  | 8 => bits imm 2 6 == 0 && bits imm 14 18 == 0
  | _ => true

/-- TYPE codes of the V unit as sets (R133, R135). -/
def typeSet (k ty : Nat) : Bool :=
  match k with
  | 11 => decide (ty < 4)
  | 12 => ty == 4 || ty == 5
  | 13 => decide (ty < 5)
  | 14 => ty == 5
  | 15 => ty == 4
  | 18 => ty == 0 || ty == 4 || ty == 5
  | _ => decide (ty < 6)

/-- The test of the fields in [31:6] (R127, R133); a field that an opcode does not use is zero. -/
def fieldOk (k low : Nat) : Bool :=
  match k with
  | 0 => bits low 6 26 == 0
  | 1 => bits low 6 2 != 3 && bits low 9 23 == 0
  | 2 => bits low 6 2 != 3 && bits low 10 22 == 0
  | 3 => bits low 6 4 == 0 && bits low 12 20 == 0
  | 16 => decide (bits low 6 3 < 6 ∧ bits low 9 3 < 6) && bits low 12 20 == 0
  | 17 => decide (bits low 6 3 < 6) && bits low 9 3 == 0 && bits low 18 14 == 0
  | k => typeSet k (bits low 6 3) && bits low 9 23 == 0

/-- The low bits of a word suit an encoding. -/
def LowUse.ok (u : LowUse) (low : Nat) : Bool :=
  match u with
  | .imm => true
  | .test k => immOk k low
  | .src3 f k => f.ok (bits low 0 6) && fieldOk k low

/-- UNIT and OP of a word (R82). -/
def wUnit (w : Nat) : Nat := bits w 62 2
def wOp (w : Nat) : Nat := bits w 56 6

/-- A LOOP word (R117). -/
def isLoop (w : Nat) : Bool := wUnit w == 0 && wOp w == 0x20

/-- N of a LOOP (R117). -/
def loopN (w : Nat) : Nat := bits w 40 16

/-- A branch, a WAIT or an END. -/
def isB (w : Nat) : Bool := wUnit w == 0 && wOp w == 0x21
def isEnd (w : Nat) : Bool := wUnit w == 0 && wOp w == 0x23

/-- A control instruction (R85, R117). -/
def isCtl (w : Nat) : Bool := wUnit w == 0 && decide (0x20 ≤ wOp w ∧ wOp w ≤ 0x23)

/-- A word is guarded by p0 with NEG = 0 (R93). -/
def unguarded (w : Nat) : Bool := bits w 32 4 == 0

/-- Step 4 of R101 for one word (R82, R83). -/
def wordOk (w : Nat) : Bool :=
  if isLoop w then decide (1 ≤ loopN w) && bits w 38 2 == 0 && (bit w 36 || bits w 6 26 == 0)
  else encodings.any (fun e => e.unit == wUnit w && e.op == wOp w && e.imm == bit w 36 && e.dst.ok (bits w 50 6) && e.s1.ok (bits w 44 6) &&
         e.s2.ok (bits w 38 6) && e.low.ok (bits w 0 32))

/-- The subset that a lighthouse task may use (R354): R115 and R117 of the S unit, LD.S and ST.S. -/
def subsetOk (w : Nat) : Bool :=
  (wUnit w == 0 && decide (wOp w ≤ 0x23)) || (wUnit w == 3 && (wOp w == 1 || wOp w == 2))

/-! ## Bundles and control structure -/

/-- A bundle of a stream: its address and its words (R84). -/
structure Bun where
  addr : Nat
  words : List Nat
  deriving DecidableEq, Repr

/-- The control instruction of a bundle, if it has one (R85). -/
def Bun.ctl (b : Bun) : Option Nat := b.words.find? isCtl

/-- The place of a bundle's control instruction in its stream; its first word's place where it has none. -/
def Bun.ctlAt (b : Bun) : Nat := b.addr + (b.words.findIdx? isCtl).getD 0

/-- Split code into bundles, or answer the place of the first word that breaks R84. `cur` is the open bundle. -/
def bundles : List Nat → Nat → List Nat → List Bun → Except Nat (List Bun)
  | [], k, cur, acc => if cur.isEmpty then .ok acc else .error (k - 1)
  | w :: ws, k, cur, acc =>
    if cur.getLast?.any (fun l => decide (wUnit w ≤ wUnit l)) then .error k
    else if bit w 37 then bundles ws (k + 1) [] (acc ++ [⟨k - cur.length, cur ++ [w]⟩])
    else bundles ws (k + 1) (cur ++ [w]) acc

/-- The bodies that the LOOP words of a stream define, as first and last bundle, in program order (R94, R101): a body is cut off at the
last bundle. -/
def loopBodies (bs : List Bun) : List (Nat × Nat) :=
  bs.zipIdx.filterMap (fun p =>
    match p.1.ctl with
    | some w => if isLoop w then some (p.2 + 1, min (p.2 + loopN w) (bs.length - 1)) else none
    | none => none)

/-- The bodies that hold a bundle, outermost first. -/
def bodiesAt (bodies : List (Nat × Nat)) (k : Nat) : List (Nat × Nat) := bodies.filter (fun b => decide (b.1 ≤ k ∧ k ≤ b.2))

/-- A LOOP word is well placed (R95, R99): its body ends in the stream, lies in every body that holds the LOOP, and nests at most 4 deep. -/
def loopOk (bs : List Bun) (bodies : List (Nat × Nat)) (k w : Nat) : Bool :=
  let outer := bodiesAt bodies k
  decide (k + loopN w ≤ bs.length - 1) && outer.all (fun b => decide (k + loopN w ≤ b.2)) && decide (outer.length < 4)

/-- The signed word offset of a branch (R96). -/
def branchOff (w : Nat) : Int := signedOf 32 (bits w 0 32)

/-- The place that breaks R96 or R97 for the branch of bundle `k`, or none. -/
def branchFault (bs : List Bun) (bodies : List (Nat × Nat)) (k w : Nat) : Option Nat :=
  let b := bs.getD k ⟨0, []⟩
  let d1 := bs.getD (k + 1) ⟨0, []⟩
  let d2 := bs.getD (k + 2) ⟨0, []⟩
  if bs.length ≤ k + 2 then some b.ctlAt
  else
    let target := bs.findIdx? (fun x => decide ((x.addr : Int) = (b.addr : Int) + branchOff w))
    let inner := fun j => (bodiesAt bodies j).getLast?
    let own := match target with
      | some t => !(inner k == inner (k + 1) && inner k == inner (k + 2) && inner k == inner t)
      | none => true
    if own then some b.ctlAt
    else if d1.ctl.isSome then some d1.ctlAt
    else if d2.ctl.isSome then some d2.ctlAt
    else none

/-- R99 for the last bundle: an unguarded END, or the second delay bundle of an unguarded branch. -/
def lastOk (bs : List Bun) : Bool :=
  (bs.getLast?.bind (·.ctl)).any (fun w => isEnd w && unguarded w) ||
  (decide (3 ≤ bs.length) && ((bs[bs.length - 3]?).bind (·.ctl)).any (fun w => isB w && unguarded w))

/-- Step 6 of R101 for one stream: the place of the first failing word, or none. -/
def controlFault (bs : List Bun) : Option Nat :=
  let bodies := loopBodies bs
  let faults := bs.zipIdx.filterMap (fun p =>
    match p.1.ctl with
    | some w =>
      if isLoop w then (if loopOk bs bodies p.2 w then none else some p.1.ctlAt)
      else if isB w then branchFault bs bodies p.2 w
      else none
    | none => none)
  let last := if lastOk bs then [] else [((bs.getLast?).map (·.addr)).getD 0]
  match faults ++ last with
  | [] => none
  | x :: xs => some (xs.foldl min x)

/-! ## Images -/

/-- A word of an image, little-endian (R7). -/
def imgWord (img : List Byte) (o : Nat) : Nat := byteFld img o 8

/-- The directory of an image: offset and length of each slot program (R69). -/
def imgDir (img : List Byte) : List (Nat × Nat) :=
  (List.range (byteFld img 8 2)).map (fun i => (byteFld img (32 + 16 * i) 4, byteFld img (36 + 16 * i) 4))

/-- Two byte spans overlap. -/
def overlaps (a b : Nat × Nat) : Bool := decide (a.1 < b.1 + b.2 ∧ b.1 < a.1 + a.2)

/-- No two spans of a list overlap. -/
def disjointSpans : List (Nat × Nat) → Bool
  | [] => true
  | s :: ss => ss.all (fun x => !overlaps s x) && disjointSpans ss

/-- Step 1 of R101 (R69); a lighthouse task has one slot program (R356). -/
def imgOk (task : Bool) (img : List Byte) : Bool :=
  let n := img.length
  let count := byteFld img 8 2
  let dir := 32 + 16 * count
  decide (32 ≤ n) && n % 8 == 0 && byteFld img 0 4 == 0x4B4C5450 && byteFld img 4 2 == 1 && byteFld img 12 4 == n &&
    decide (1 ≤ count ∧ count ≤ 256) && (!task || count == 1) && decide (dir ≤ n) && zeroAt img 10 2 && zeroAt img 16 16 &&
    (List.range count).all (fun i => zeroAt img (40 + 16 * i) 8) &&
    (imgDir img).all (fun s => s.1 % 8 == 0 && decide (64 ≤ s.2 ∧ dir ≤ s.1 ∧ s.1 + s.2 ≤ n)) && disjointSpans (imgDir img)

/-- The stream that breaks step 3 of R101 for a slot program, or none (R70, R356). -/
def headerFault (task : Bool) (sp : List Byte) : Option Nat :=
  let st := byteFld sp 0 1
  let qw := byteFld sp 1 1
  let vc := (List.range 4).map (fun j => byteFld sp (4 + j) 1)
  let mc := byteFld sp 16 4
  let off := fun j => byteFld sp (24 + 8 * j) 4
  let cw := fun j => byteFld sp (28 + 8 * j) 4
  let glob := decide (1 ≤ st ∧ st ≤ 4) && (qw == 0 || qw == 1 || qw == 2 || qw == 4) && decide (vc.foldl (· + ·) 0 ≤ 8) &&
    (vc.drop st).all (· == 0) && decide (1 ≤ mc) && zeroAt sp 2 2 && zeroAt sp 20 4 && zeroAt sp 56 8 &&
    (!task || (st == 1 && qw == 0 && vc.all (· == 0) && zeroAt sp 8 8 && decide (mc ≤ 22528)))
  let codeOk := fun j =>
    if j < st then off j % 8 == 0 && decide (1 ≤ cw j ∧ 64 ≤ off j ∧ off j + 8 * cw j ≤ sp.length) &&
      (List.range j).all (fun i => !overlaps (off i, 8 * cw i) (off j, 8 * cw j))
    else off j == 0 && cw j == 0
  if !glob then some 0 else (List.range 4).find? (fun j => !codeOk j)

/-- The code of stream `j` of a slot program (R70). -/
def streamCode (sp : List Byte) (j : Nat) : List Nat :=
  (List.range (byteFld sp (28 + 8 * j) 4)).map (fun k => imgWord sp (byteFld sp (24 + 8 * j) 4 + 8 * k))

/-- A slot program read from its bytes (R70). -/
def readProg (sp : List Byte) : SlotProg :=
  let st := byteFld sp 0 1
  { streams := st, width := byteFld sp 1 1, vecCount := (List.range 4).map (fun j => byteFld sp (4 + j) 1), berths := byteFld sp 8 8,
    maxCycles := byteFld sp 16 4, code := (List.range st).map (streamCode sp) }

/-- SQ_LOAD_WHERE (R105). -/
def loadWhere (prog stream word : Nat) : Nat := prog % 256 + 256 * (stream % 4) + 1024 * (word % 2 ^ 19)

/-- The first failure over slot programs and their streams, as SQ_LOAD_WHERE. -/
def firstFault (ps : List SlotProg) (f : SlotProg → Nat → List Nat → Option Nat) : Option Nat :=
  (ps.zipIdx.flatMap (fun p => p.1.code.zipIdx.filterMap (fun c => (f p.1 c.2 c.1).map (fun w => loadWhere p.2 c.2 w)))).head?

/-- Step 5 of R101 for one stream. -/
def bundleFault (code : List Nat) : Option Nat :=
  match bundles code 0 [] [] with
  | .ok _ => none
  | .error k => some k

/-- Step 6 of R101 for one stream that passed step 5. -/
def streamControlFault (code : List Nat) : Option Nat :=
  match bundles code 0 [] [] with
  | .ok bs => controlFault bs
  | .error _ => none

/-- Step 7 of R101 for one stream. -/
def unitFault (p : SlotProg) (j : Nat) (code : List Nat) : Option Nat :=
  code.findIdx? (fun w => (wUnit w == 1 && (j != 0 || p.width == 0)) || (wUnit w == 2 && p.vecCount.getD j 0 == 0))

/-- What validation of an image answers: the fault and SQ_LOAD_WHERE, or its slot programs. -/
abbrev ImgCheck := Except (Nat × Nat) (List SlotProg)

/-- Steps 1 to 7 of R101. -/
def validateImage (task : Bool) (img : List Byte) : ImgCheck :=
  if !imgOk task img then .error (0x0201, 0)
  else if byteFld img 6 2 ≠ 3 then .error (0x0202, 0)
  else
    let sps := (imgDir img).map (fun s => slice img s.1 s.2)
    match (sps.zipIdx.filterMap (fun p => (headerFault task p.1).map (fun j => loadWhere p.2 j 0))).head? with
    | some w => .error (0x0203, w)
    | none =>
      let ps := sps.map readProg
      match firstFault ps (fun _ _ c => c.findIdx? (fun w => !(wordOk w && (!task || subsetOk w)))) with
      | some w => .error (0x0204, w)
      | none =>
        match firstFault ps (fun _ _ c => bundleFault c) with
        | some w => .error (0x0205, w)
        | none =>
          match firstFault ps (fun _ _ c => streamControlFault c) with
          | some w => .error (0x0206, w)
          | none =>
            match firstFault ps unitFault with
            | some w => .error (0x0207, w)
            | none => .ok ps

/-- The code words of slot programs. -/
def progWords (ps : List SlotProg) : Nat := (ps.flatMap (·.code)).foldl (fun n c => n + c.length) 0

/-- The handles that a store's tick programs hold (R71). -/
def heldHandles (s : Store) : List Nat := s.progs.flatMap (fun p => (List.range p.progs.length).map (p.h + ·))

/-- The lowest h with `count` consecutive free handles in 0x0000–0xFFFE (R71): 0, or the place after a held one. -/
def freeHandles (s : Store) (count : Nat) : Option Nat :=
  let held := heldHandles s
  let cands := (0 :: held.map (· + 1)).filter (fun h => decide (h + count ≤ 0xFFFF) && (List.range count).all (fun k => !held.contains (h + k)))
  match cands with
  | [] => none
  | c :: cs => some (cs.foldl min c)

end Sys2Proof.Machine
end

