-- ==== Sys2Proof/Machine/Flash.lean ====
section
/-!
DEFINITION. The flash store (R268–R311): durability, wear and read disturb, the image store with its commands, the mount and the write
inhibit; the load log of a tenant (R572).
-/
namespace Sys2Proof.Machine

/-! ## Load log -/

/-- Extend a tenant's load log (R572). -/
def extendLog (m : Mach) (t k : Nat) (digest : List Byte) : Mach :=
  let r := tabGet m.hm.ten t TenRec.init
  let r := { r with log := sha384 (r.log ++ [BitVec.ofNat 8 k] ++ digest) }
  { m with hm := { m.hm with ten := tabSet m.hm.ten t r TenRec.init } }

/-- A tick program or task is loaded (R572): the log, and the list of at most 256 entries. -/
def logProgram (m : Mach) (t k h : Nat) (digest : List Byte) : Mach :=
  let m := extendLog m t k digest
  let r := tabGet m.hm.ten t TenRec.init
  let r := if r.progs.length < 256 then { r with progs := r.progs ++ [(k, h, digest)] } else { r with overflow := true }
  { m with hm := { m.hm with ten := tabSet m.hm.ten t r TenRec.init } }

/-- A tick program or task is unloaded. -/
def unlogProgram (m : Mach) (t k h : Nat) : Mach :=
  let r := tabGet m.hm.ten t TenRec.init
  let r := { r with progs := r.progs.filter (fun p => !(p.1 == k && p.2.1 == h)) }
  { m with hm := { m.hm with ten := tabSet m.hm.ten t r TenRec.init } }

/-- A weight image is loaded into an allocation (R572). -/
def logWeights (m : Mach) (t id version : Nat) (digest : List Byte) (h gen : Nat) : Mach :=
  let m := extendLog m t 3 digest
  let r := tabGet m.hm.ten t TenRec.init
  let r := if r.weights.length < 256 then { r with weights := r.weights ++ [(id, version, digest, h, gen)] } else { r with overflow := true }
  { m with hm := { m.hm with ten := tabSet m.hm.ten t r TenRec.init } }

/-! ## Images -/

/-- An image that exists. -/
def findImage (m : Mach) (id : Nat) : Option Image := m.fl.images.find? (fun i => i.id == id && !i.deleting)

/-- 64 KiB units of an image. -/
def imgUnits (n : Nat) : Nat := ceilDiv n 65536

/-- Units of the images that satisfy a test. -/
def unitsOf (m : Mach) (p : Nat → Nat → Bool) : Nat :=
  ((m.fl.images.filter (fun i => p i.owner i.id)).map (fun i => imgUnits i.bytes.length)).foldl (· + ·) 0

/-- An open that would exceed the store or the owner's quota (R288, R289); an image that it replaces does not count. -/
def imgFull (m : Mach) (id owner len : Nat) : Bool :=
  decide (256 < (m.fl.images.filter (·.id != id)).length + 1) || decide (32768 < unitsOf m (fun _ i => i != id) + imgUnits len) ||
  decide (m.fldOf (rHM_IMG_QUOTA owner) 0 16 < unitsOf m (fun o i => o == owner && i != id) + imgUnits len)

/-- INGEST of FL_STATUS follows the open ingest. -/
def setIngest (m : Mach) (i : Option Ingest) : Mach := ({ m with fl := { m.fl with ingest := i } } : Mach).setFlagOf rFL_STATUS 5 i.isSome

/-- The fault that refuses the opening of an ingest, or 0 (R288–R290). -/
def openFault (m : Mach) (t : Nat) (rec : List Byte) : Nat :=
  let id := byteFld rec 0 2
  let kind := byteFld rec 2 1
  let owner := byteFld rec 3 1
  let len := byteFld rec 8 4
  if inRecovery m ∧ kind ≠ 0 then 0x1004
  else if id = 0xFFFF ∨ 2 < kind ∨ 63 < owner ∨ !zeroAt rec 12 4 ∨ len < 64 ∨ 2 ^ 30 < len ∨ !tenantExists m owner then 0x0F02
  else if (kind = 0 ∨ owner ≠ t) ∧ t ≠ 0 then 0x0D01
  else if t ≠ 0 ∧ (findImage m id).any (fun i => i.owner != t || i.kind == 0) then 0x0F02
  else if !mounted m then 0x060B
  else if m.fl.ingest.isSome then 0x0606
  else if imgFull m id owner len then 0x0607
  else 0

/-- An image becomes visible, replacing the one with its ID in one step (R291). -/
def imageVisible (m : Mach) : Mach :=
  match m.fl.ingest with
  | none => m
  | some g =>
    let old := m.fl.images.find? (·.id == g.id)
    let i : Image := { id := g.id, kind := g.kind, owner := g.owner, version := g.version, digest := sha384 g.bytes, bytes := g.bytes,
                       count := (old.map (·.count)).getD 0 + 1, deleting := false }
    setIngest { m with fl := { m.fl with images := m.fl.images.filter (·.id != g.id) ++ [i] } } none

/-- The 64-byte record of an image (R288). -/
def imgRecord (i : Image) : List Byte :=
  leBytes 2 i.id ++ leBytes 1 i.kind ++ leBytes 1 i.owner ++ leBytes 4 i.version ++ leBytes 4 i.bytes.length ++ leBytes 4 0 ++ slice i.digest 0 48

/-! ## Durability -/

/-- What the translation layer reports takes effect (R274, R278, R280): retired blocks, wear, and read-only mode where spares run low. -/
def applyFtl (m : Mach) (r : FtlReport) : Mach :=
  let m := { m with fl := { m.fl with bad := m.fl.bad + r.retired, wear := r.life % 65536 + 65536 * (r.spare % 65536) } }
  let m := m.setRegN rFL_BAD_BLOCKS (m.fl.bad % 2 ^ 17)
  let m := m.setRegN rFL_WEAR m.fl.wear
  let m := m.setRegN rFL_CACHE_FILL (r.fill % 2 ^ 14)
  let m := if 900 ≤ r.life ∧ !m.flagOf rFL_STATUS 4 then raiseD (m.setFlagOf rFL_STATUS 4 true) 0x0603 0 else m
  if r.spare < 10 ∧ !m.fl.readOnly then
    raiseD (({ m with fl := { m.fl with readOnly := true } } : Mach).setFlagOf rFL_STATUS 1 true) 0x0601 0
  else m

/-- Two flash writes go to the same page of an allocation. -/
def samePage (a b : WAct) : Bool :=
  match a, b with
  | .page h g o _, .page h' g' o' _ => h == h' && g == g' && o / pageSize == o' / pageSize
  | _, _ => false

/-- Page writes that are durable and have no earlier write to their page outstanding take their place in the allocation (R276). `earlier`
holds the writes already passed over. -/
def settle : List FWrite → List FWrite → Mach → Mach
  | [], earlier, m => { m with fl := { m.fl with writes := earlier } }
  | w :: ws, earlier, m =>
    if w.done ∧ !earlier.any (fun e => samePage e.act w.act) then
      match w.act with
      | .page h g o bs => settle ws earlier (storeAlloc m h g o bs)
      | _ => settle ws earlier m
    else settle ws (earlier ++ [w]) m

/-- A command whose flash writes are all durable may complete (R273). -/
def wakeCmd (m : Mach) (q cid : Nat) : Mach :=
  match findCmd m q cid with
  | some c => if c.wait = waitWrites ∧ !writesOf m q cid then setCmd m q cid 0 c.cpl else m
  | none => m

/-- Everything the flash held is destroyed (R296): images, tenant records, the boot selector, and the allocations that flash holds. -/
def formatFlash (m : Mach) : Mach :=
  let gone := (m.mem.allocs.filter (fun a => bit a.flags 1)).map (·.h)
  let m := gone.foldl dropAlloc m
  let m := setIngest m none
  let m := { m with fl := { m.fl with images := [], records := [], selector := none, reads := [], backlog := [] } }
  m.setFlagOf rFL_STATUS 0 true

/-- A tenant's record is durable: the tenant exists (R553, R554). -/
def recordDurable (m : Mach) (t : Nat) : Mach :=
  let r := tabGet m.hm.ten t TenRec.init
  let e := some (m.fldOf (rHM_TENANT_CFG t) 1 1, r.nonce, m.fldOf (rHM_IMG_QUOTA t) 0 16)
  let m := { m with hm := { m.hm with ten := tabSet m.hm.ten t { r with creating := false } TenRec.init },
                    fl := { m.fl with records := tabSet m.fl.records t e none } }
  (m.setFlagOf (rHM_TENANT_CFG t) 0 true).setFlagOf (rHM_TENANTS_LO + 4 * (t / 32)) (t % 32) true

/-- A tenant's record is erased: its destroy is complete (R553, R556). -/
def eraseDurable (m : Mach) (t : Nat) : Mach :=
  let m := { m with hm := { m.hm with ten := tabSet m.hm.ten t TenRec.init TenRec.init },
                    fl := { m.fl with records := tabSet m.fl.records t none none } }
  ((m.setRegN (rHM_TENANT_CFG t) 0).setFlagOf (rHM_TENANTS_LO + 4 * (t / 32)) (t % 32) false).setRegN (rHM_IMG_QUOTA t) 0

/-- What a write does when it is durable, but for the bytes of a page. -/
def durableAct (m : Mach) (w : WAct) : Mach :=
  match w with
  | .page .. => m
  | .image => imageVisible m
  | .imageDel id => { m with fl := { m.fl with images := m.fl.images.filter (fun i => !(i.id == id && i.deleting)) } }
  | .record t => recordDurable m t
  | .erase t => eraseDurable m t
  | .selector id => { m with fl := { m.fl with selector := some id } }
  | .format => formatFlash m

/-- A vendor unlock takes effect once no flash program that it revoked is in flight (R586, R588, R597). -/
def settleUnlock (m : Mach) : Mach :=
  if m.hm.unlocking && !m.fl.writes.any (fun w => w.unmapped && !w.done) then
    (({ m with hm := { m.hm with unlocking := false } } : Mach).setFldOf rDB_STATE 0 2 2).setFldOf rDB_STATE 2 2 2
  else m

/-- A flash write becomes durable (R273, R276, R280, R564): a page write takes its place in order, a revoked one ends unmapped. -/
def makeDurable (m : Mach) (id : Nat) (r : FtlReport) : Mach :=
  match m.fl.writes.find? (·.id == id) with
  | none => m
  | some w =>
    if w.done ∨ w.held ∨ !isOn m 16 then m
    else
      let m := applyFtl (addReads m r.reads) r
      let m :=
        if w.unmapped then
          let m := { m with fl := { m.fl with writes := m.fl.writes.filter (·.id != id) } }
          match w.xf with
          | some x => raiseSlot m 0x0D07 x.2.2.1 (((findList m x.2.1).map (·.slot)).getD 0xFFFF) 0
          | none => m
        else
          let m := durableAct { m with fl := { m.fl with writes := mapIf (·.id == id) (fun w => { w with done := true }) m.fl.writes } } w.act
          settle m.fl.writes [] m
      let m := match w.xf with | some x => listEnd m x.2.1 | none => m
      settleUnlock (if w.q < 64 then wakeCmd m w.q w.cid else m)

/-- WRITE_DURABLE (R273). -/
def execWriteDurable (id : Nat) (r : FtlReport) (s : State) : Host.Outcome State Fault Refusal := s.effect (fun m => makeDurable m id r)

/-- RELOCATION_DONE (R285, R304): a candidate's pages are copied and its source block erased. -/
def execRelocationDone (block : Nat) (r : FtlReport) (s : State) : Host.Outcome State Fault Refusal :=
  s.effect (fun m =>
    if tabGet m.fl.reads block 0 < m.fl.limit ∨ inhibited m ∨ !mounted m then m
    else
      let m := addReads m r.reads
      let m := { m with fl := { m.fl with reads := tabSet m.fl.reads block 0 0, backlog := m.fl.backlog.filter (· != block), relocs := m.fl.relocs + 1 } }
      applyFtl (m.setRegN rFL_RD_RELOC_COUNT m.fl.relocs) r)

/-- FL_RD_PENDING (R301): candidates, and those at 1.5 times the limit. -/
def rdPending (m : Mach) : Nat :=
  let c := (m.fl.reads.filter (fun e => decide (m.fl.limit ≤ e.2))).length
  let b := (m.fl.reads.filter (fun e => decide (m.fl.limit * 3 ≤ 2 * e.2))).length
  min c 65535 + 65536 * min b 65535

/-! ## The write inhibit -/

/-- The write inhibit begins (R297). -/
def enterInhibit (m : Mach) : Mach :=
  if inhibited m then m
  else
    let m := (m.setFlagOf rFL_STATUS 2 true).setRegN rFL_INHIBIT_COUNT (m.regN rFL_INHIBIT_COUNT + 1)
    raiseT m 0x0609 0 0

/-- A held write that fails leaves nothing behind: its ingest is discarded, its image exists again, its tenant was not created (R281). -/
def undoAct (m : Mach) (w : WAct) : Mach :=
  match w with
  | .image => setIngest m none
  | .imageDel id => { m with fl := { m.fl with images := mapIf (·.id == id) (fun i => { i with deleting := false }) m.fl.images } }
  | .record t => { m with hm := { m.hm with ten := tabSet m.hm.ten t TenRec.init TenRec.init } }
  | _ => m

/-- The write inhibit ends (R299, R310): held writes program in release order, or fail in read-only mode. -/
def leaveInhibit (m : Mach) : Mach :=
  let m := m.setFlagOf rFL_STATUS 2 false
  let held := m.fl.writes.filter (·.held)
  if !m.fl.readOnly then
    { m with fl := { m.fl with writes := m.fl.writes.map (fun w => { w with held := false }) } }
  else
    let m := { m with fl := { m.fl with writes := m.fl.writes.filter (!·.held) } }
    held.foldl (fun m w =>
      let m := undoAct m w.act
      let m := match w.xf with
        | some x => listEnd (failRun m 0x0601 x.2.2.1 (((findList m x.2.1).map (·.slot)).getD 0xFFFF)) x.2.1
        | none => m
      match findCmd m w.q w.cid with
      | some c => if w.q < 64 then refuse m c.q c.cid c.op 0x0601 0 else m
      | none => m) m

/-! ## Mount -/

/-- The flash mounts (R272, R291, R293, R294): what was not durable is gone, allocations of flash without PERSIST have no pages; an unclean
mount is counted. -/
def mountFlash (m : Mach) : Mach :=
  let m := setIngest { m with fl := { m.fl with writes := [], images := m.fl.images.map (fun i => { i with deleting := false }) } } none
  let m := (m.setFlagOf rFL_STATUS 0 true).setFlagOf rFL_STATUS 1 m.fl.readOnly
  let clean := m.fl.clean
  let m := m.setFlagOf rFL_STATUS 3 clean
  let m := if clean then m else raiseD { m with fl := { m.fl with unclean := m.fl.unclean + 1 } } 0x060A 0
  let m := (m.setRegN rFL_UNCLEAN_COUNT m.fl.unclean).setRegN rFL_RD_RELOC_COUNT m.fl.relocs
  let m := ((m.setRegN rFL_BAD_BLOCKS (m.fl.bad % 2 ^ 17)).setRegN rFL_WEAR m.fl.wear).setFlagOf rFL_STATUS 4 (decide (900 ≤ m.fl.wear % 65536))
  { m with fl := { m.fl with clean := false } }

/-- The journal cannot be read: the flash stays unmounted (R296). -/
def mountFail (m : Mach) : Mach := raiseD (m.setFlagOf rFL_STATUS 0 false) 0x060B 0

/-! ## The image commands -/

/-- IMG_OPEN (R288–R290). -/
def execImgOpen (cmd : CmdCtx) (r : BufRef) (s : State) : Host.Outcome State Fault Refusal :=
  s.effect (fun m => beginCmd m cmd 0x28 0x0F02 noWait (fun m =>
    let t := cmd.q.val
    if refLen r ≠ 64 then refuse m t cmd.cid 0x28 0x0F03 0
    else withRef m cmd 0x28 r false (fun rec =>
      let f := openFault m t rec
      if f ≠ 0 then refuse m t cmd.cid 0x28 f 0
      else
        let g : Ingest := { q := t, id := byteFld rec 0 2, kind := byteFld rec 2 1, owner := byteFld rec 3 1, version := byteFld rec 4 4,
                            length := byteFld rec 8 4, expect := slice rec 16 48, bytes := [], closing := false }
        complete (setIngest m (some g)) t cmd.cid 0x28 0 0 0)))

/-- A data command that R290 accepts: in order, inside LENGTH, and of whole beats unless it completes LENGTH. -/
def dataOk (g : Ingest) (off n : Nat) : Bool :=
  !g.closing && off == g.bytes.length && decide (off + n ≤ g.length) && (n % 64 == 0 || off + n == g.length)

/-- IMG_DATA (R281, R290). -/
def execImgData (cmd : CmdCtx) (r : BufRef) (off : Nat) (s : State) : Host.Outcome State Fault Refusal :=
  s.effect (fun m => beginCmd m cmd 0x29 0x0F02 noWait (fun m =>
    let t := cmd.q.val
    match m.fl.ingest with
    | none => refuse m t cmd.cid 0x29 0x0606 0
    | some g =>
      if g.q ≠ t then refuse m t cmd.cid 0x29 0x0D01 0
      else if m.fl.readOnly then refuse m t cmd.cid 0x29 0x0601 0
      else if !dataOk g off (refLen r) then refuse (if g.closing then m else setIngest m none) t cmd.cid 0x29 0x0606 0
      else withRef m cmd 0x29 r false (fun bs => complete (setIngest m (some { g with bytes := g.bytes ++ bs })) t cmd.cid 0x29 0 0 0)))

/-- IMG_CLOSE (R290, R291). -/
def execImgClose (cmd : CmdCtx) (s : State) : Host.Outcome State Fault Refusal :=
  s.effect (fun m => beginCmd m cmd 0x2A 0x0F02 noWait (fun m =>
    let t := cmd.q.val
    match m.fl.ingest with
    | none => refuse m t cmd.cid 0x2A 0x0606 0
    | some g =>
      if g.q ≠ t then refuse m t cmd.cid 0x2A 0x0D01 0
      else if g.closing ∨ g.bytes.length ≠ g.length then refuse (if g.closing then m else setIngest m none) t cmd.cid 0x2A 0x0606 0
      else if !zeroAt g.expect 0 48 ∧ g.expect ≠ sha384 g.bytes then refuse (setIngest m none) t cmd.cid 0x2A 0x0605 0
      else if m.fl.readOnly then refuse (setIngest m none) t cmd.cid 0x2A 0x0601 0
      else
        let m := addWrite (setIngest m (some { g with closing := true })) .image t cmd.cid none
        finish m t cmd.cid 0x2A g.id 0 [objKey 5 g.id]))

/-- IMG_DELETE (R289, R674): the image ceases to exist when the delete begins, and is removed durably. -/
def execImgDelete (cmd : CmdCtx) (id : Nat) (s : State) : Host.Outcome State Fault Refusal :=
  s.effect (fun m => beginCmd m cmd 0x2B 0x0F02 (naming (objKey 5 id)) (fun m =>
    let t := cmd.q.val
    match findImage m id with
    | none => refuse m t cmd.cid 0x2B 0x0F02 0
    | some i =>
      if inRecovery m ∧ i.kind ≠ 0 then refuse m t cmd.cid 0x2B 0x1004 0
      else if t ≠ 0 ∧ i.owner ≠ t then refuse m t cmd.cid 0x2B 0x0F02 0
      else if t ≠ 0 ∧ i.kind = 0 then refuse m t cmd.cid 0x2B 0x0D01 0
      else if m.fl.readOnly then refuse m t cmd.cid 0x2B 0x0601 0
      else
        let m := { m with fl := { m.fl with images := mapIf (·.id == id) (fun i => { i with deleting := true }) m.fl.images } }
        finish (addWrite m (.imageDel id) t cmd.cid none) t cmd.cid 0x2B 0 0 [objKey 5 id]))

/-- IMG_LIST (R288): own images, or all for tenant 0, in ascending order of ID, as many as the buffer holds. -/
def execImgList (cmd : CmdCtx) (r : BufRef) (s : State) : Host.Outcome State Fault Refusal :=
  s.effect (fun m => beginCmd m cmd 0x2C 0x0F02 noWait (fun m =>
    let t := cmd.q.val
    if !refOk m t r false then refuse m t cmd.cid 0x2C 0x0F03 0
    else
      let is := sortOn (·.id) (m.fl.images.filter (fun i => !i.deleting && (t == 0 || i.owner == t)))
      let is := is.take (refLen r / 64)
      finish (writeRef m t cmd.cid r (is.flatMap imgRecord)) t cmd.cid 0x2C is.length 0 []))

/-- IMG_LOAD (R231, R283, R292); `corrupt` says that the stored image as read fails its digest, and `reads` counts the flash pages read, by block. -/
def execImgLoad (cmd : CmdCtx) (id h off : Nat) (corrupt : Bool) (reads : List (Nat × Nat)) (s : State) : Host.Outcome State Fault Refusal :=
  s.effect (fun m => beginCmd m cmd 0x2D 0x0F02 noWait (fun m =>
    let t := cmd.q.val
    match findImage m id, findAlloc m h with
    | some i, some a =>
      if (t ≠ 0 ∧ i.owner ≠ t) ∨ i.kind ≠ 2 ∨ !(a.owner == i.owner || (a.sharedRo && (t == 0 || a.owner == t))) ∨
          a.size < off + i.bytes.length then refuse m t cmd.cid 0x2D 0x0F02 0
      else if !mounted m then refuse m t cmd.cid 0x2D 0x060B 0
      else if corrupt ∨ sha384 i.bytes ≠ i.digest then refuse (addReads m reads) t cmd.cid 0x2D 0x0608 0
      else if m.fl.readOnly ∧ a.flashPages ≠ 0 then refuse m t cmd.cid 0x2D 0x0601 0
      else
        let m := writeAlloc (addReads m reads) a off i.bytes t cmd.cid none
        taking m t cmd.cid 0x2D 0 [objKey 1 h, objKey 5 id] i.version (beNat i.digest)
    | _, _ => refuse m t cmd.cid 0x2D 0x0F02 0))

/-- BOOT_SELECT (R570). -/
def execBootSelect (cmd : CmdCtx) (id : Nat) (s : State) : Host.Outcome State Fault Refusal :=
  s.effect (fun m => beginCmd m cmd 0x2E 0x0F02 noWait (fun m =>
    let t := cmd.q.val
    if t ≠ 0 then refuse m t cmd.cid 0x2E 0x0D01 0
    else if !(findImage m id).any (·.kind == 0) then refuse m t cmd.cid 0x2E 0x0F02 0
    else if m.fl.readOnly then refuse m t cmd.cid 0x2E 0x0601 0
    else finish (addWrite m (.selector id) t cmd.cid none) t cmd.cid 0x2E 0 0 []))

/-- FLASH_FORMAT (R296). -/
def execFlashFormat (cmd : CmdCtx) (key : Nat) (s : State) : Host.Outcome State Fault Refusal :=
  s.effect (fun m => beginCmd m cmd 0x2F 0x0F02 noWait (fun m =>
    let t := cmd.q.val
    if t ≠ 0 then refuse m t cmd.cid 0x2F 0x0D01 0
    else if key ≠ 0x464D5446 then refuse m t cmd.cid 0x2F 0x0F02 0
    else finish (addWrite m .format t cmd.cid none) t cmd.cid 0x2F 0 0 []))

end Sys2Proof.Machine
end

