-- ==== Sys2Proof/Machine/Delivery.lean ====
section
/-!
DEFINITION. Power delivery (R509–R536): the input limit and the profiles, the reservoir, load steps and droop, the droop recorder, the thermal
monitors and their steps, the caps on the performance level, and supply sag.
-/
namespace Sys2Proof.Machine

/-! ## Voltages and limits -/

/-- The PL voltage of VDD_Q, in mV (R511). -/
def plVolt (pl : Nat) : Nat := [500, 520, 550, 580, 640, 710, 780, 850].getD pl 850

/-- A slot's pilot notice of a rise is active (R519): from its execution until the slot's end cycle. -/
def pilotUp (m : Mach) : Bool := m.st.runs.any (fun r => !r.isTask && r.pilots.any (fun p => !p.down))

/-- A pilot notice of a fall lowers the shunt threshold from 1 µs before its step to 2 µs after it (R519). -/
def pilotDown (m : Mach) : Bool :=
  m.st.runs.any (fun r => !r.isTask && r.pilots.any (fun p =>
    let t := quayTime m (r.start + p.at')
    p.down && decide (t ≤ m.clk.now + 38 ∧ m.clk.now ≤ t + 76)))

/-- The VDD_Q setpoint in mV (R512, R519). -/
def setpoint (m : Mach) : Nat := plVolt (curPl m) + (if pilotUp m then 20 else 0)

/-- PROFILE of PD_STATUS: dock (R515). -/
def docked (m : Mach) : Bool := m.flagOf rPD_STATUS 0

/-- P_LIM in force, in mW (R515, R529): a debounced fall of CHG_DET takes the worn value at once. -/
def pLim (m : Mach) : Nat :=
  if m.flagOf rPD_STATUS 3 then 500
  else if docked m ∧ m.pd.profileNext ≠ some false then m.fldOf rPD_PLIM_DOCK 0 16 else m.fldOf rPD_PLIM_WORN 0 16

/-- I_LIM in mA (R514, R518). -/
def iLim (m : Mach) : Nat := if m.pd.vresMin ∨ m.regN rPD_VBAT = 0 then 3000 else min 3000 (pLim m * 1000 / m.regN rPD_VBAT)

/-- PD_ILIM_NOW follows I_LIM. -/
def showIlim (m : Mach) : Mach := m.setRegN rPD_ILIM_NOW (iLim m)

/-- E_USE in 0.1 mJ at a reservoir voltage in mV (R517). -/
def eUse (m : Mach) (v : Nat) : Nat := m.fldOf rPD_RES_CAP 0 16 * (v * v - 2900 * 2900) / 200000

/-- E_BURST in 0.1 mJ (R517): the reserve is at least 2.0 mJ. -/
def eBurst (m : Mach) (v : Nat) : Nat := eUse m v - max 20 (m.regN rPD_RES_RESERVE)

/-- VBAT and VRES are measured, in mV (R514, R517, R518). -/
def measureSupply (m : Mach) (vbat vres : Nat) : Mach :=
  let m := ((m.setRegN rPD_VBAT vbat).setRegN rPD_RES_VOLT vres).setRegN rPD_RES_ENERGY (eBurst m vres)
  let full := eBurst m (m.regN rPD_RES_VMAX)
  let back := m.flagOf rPD_STATUS 4 && decide (full * m.regN rPD_RES_RESUME ≤ 100 * eBurst m vres)
  showIlim { m with pd := { m.pd with regained := m.pd.regained || back } }

/-- ILIM_UPDATE (R514). -/
def execIlimUpdate (vbat vres : Nat) (s : State) : Host.Outcome State Fault Refusal := s.effect (fun m => measureSupply m vbat vres)

/-- BURST_ENERGY_EXHAUSTED (R518, R710): what follows happens in the seam. -/
def execBurstEnergyExhausted (s : State) : Host.Outcome State Fault Refusal :=
  s.effect (fun m =>
    let m := m.setRegN rPD_RES_ENERGY 0
    if m.pd.profileNext = some false then { m with pd := { m.pd with undockSpent := true } } else { m with pd := { m.pd with spent := true } })

/-- RESERVOIR_V_RES_MIN (R518): the input switch draws up to 3.0 A until the seam. -/
def execReservoirVResMin (s : State) : Host.Outcome State Fault Refusal :=
  s.effect (fun m => showIlim { (m.setRegN rPD_RES_VOLT 2900).setRegN rPD_RES_ENERGY 0 with pd := { m.pd with vresMin := true } })

/-! ## Load steps and droop -/

/-- Some quadrant is on. -/
def quadOn (m : Mach) : Bool := isOn m 0 || isOn m 1 || isOn m 2 || isOn m 3

/-- STEP_ASSIST (R520): the lowest sense point, in units of 0.5 mV, lies below the setpoint minus 15 mV. -/
def execStepAssist (v : Nat) (s : State) : Host.Outcome State Fault Refusal :=
  s.effect (fun m => if v + 30 < 2 * setpoint m then m.setRegN rPD_ASSIST_COUNT (m.regN rPD_ASSIST_COUNT + 1) else m)

/-- RELEASE_SHUNT (R519, R520): the highest sense point lies above the setpoint plus 25 mV, or plus 10 mV around an announced fall. -/
def execReleaseShunt (v : Nat) (s : State) : Host.Outcome State Fault Refusal :=
  s.effect (fun m =>
    if 2 * setpoint m + (if pilotDown m then 20 else 50) < v then m.setRegN rPD_SHUNT_COUNT (m.regN rPD_SHUNT_COUNT + 1) else m)

/-- The next cycle after `c` that may be stretched, where none is stretched already (R521). -/
def nextStretch (m : Mach) (c : Nat) : Option Nat :=
  match m.tk.lastStretch with
  | none => some (max 63 (c + 1))
  | some k => if c < k then none else some (max (k + 64) (c + 1))

/-- DROOP_STRETCH (R521, R522): at quay cycle `c` the lowest sense point of an on quadrant reads `v`, in units of 0.5 mV. -/
def execDroopStretch (v c : Nat) (s : State) : Host.Outcome State Fault Refusal :=
  s.effect (fun m =>
    if !quadOn m ∨ m.clk.refStopped ∨ 2 * plVolt (curPl m) ≤ v + 60 then m
    else
      let m := advanceTo m (quayTime m c)
      match nextStretch m c with
      | none => m
      | some k =>
        let m := { m with tk := { m.tk with stretched := m.tk.stretched + 1, lastStretch := some k } }
        let m := (m.setRegN rPD_STRETCH_COUNT (m.regN rPD_STRETCH_COUNT + 1)).setReg64 rPD_STRETCH_TICK_LO m.clk.tick
        m.setFlagOf rPD_STATUS 7 true)

/-- A run is cut short at a quay cycle of the tick (R523): what lands from that cycle on is discarded, and nothing more issues. -/
def cutRun (c : Nat) (m : Mach) (r : SlotRun) : Mach :=
  let (m, r) := if r.start < c then catchUp m r (c - r.start - 1) else (m, r)
  putRun m { r with lands := [], accs := [], holds := [], records := [], pilots := [], cut := true,
                    streams := r.streams.map (fun st => { st with ended := true }) }

/-- Every running slot is cut short. -/
def cutRuns (m : Mach) (c : Nat) : Mach := (m.st.runs.filter (fun r => !r.isTask)).foldl (cutRun c) m

/-- RAIL_UNDERVOLT (R523): a sense point of an on quadrant has stayed below the PL voltage minus 60 mV for 64 cycles, up to quay cycle `c`. -/
def execRailUndervolt (c : Nat) (s : State) : Host.Outcome State Fault Refusal :=
  s.effect (fun m =>
    if !quadOn m ∨ m.clk.refStopped then m
    else
      let m := advanceTo m (quayTime m c)
      cutRuns (raiseAt m 0x0C05 0 true 0xFFFF 0xFFFFFFFF 0) c)

/-- DROOP_RECORDER_MINIMUM (R524): a sample of rail `r`, as MIN codes it, replaces a higher record. -/
def execDroopRecorderMinimum (r : Fin 7) (v : Nat) (s : State) : Host.Outcome State Fault Refusal :=
  s.effect (fun m =>
    if m.fldOf (rPD_DROOP_MIN r.val) 0 12 ≤ v then m
    else
      let m := (m.setFldOf (rPD_DROOP_MIN r.val) 0 12 v).setReg64 (rPD_DROOP_TICK_LO r.val) m.clk.tick
      m.setRegN (rPD_DROOP_CYCLE r.val) (quayNow m))

/-! ## Caps and the performance level -/

/-- TJ_LEVEL of PD_STATUS (R527). -/
def tjLevel (m : Mach) : Nat := m.fldOf rPD_STATUS 1 2

/-- The effective PL cap (R532). -/
def capPl (m : Mach) : Nat :=
  let f := fun lo => m.fldOf rPD_PLCAP lo 3
  let c := if docked m then f 4 else f 0
  let c := if 0 < tjLevel m then min c (f 8) else c
  let c := if m.flagOf rPD_STATUS 3 then min c (f 12) else c
  if m.flagOf rPD_STATUS 4 then min c (f 16) else c

/-- The S cap (R515, R527, R532). -/
def capS (m : Mach) : Nat := if 0 < tjLevel m then 1 else 3

/-- PERF_SET commands with WAIT complete (R486). -/
def endPerf (m : Mach) (status : Nat) : Mach :=
  m.pm.perfWait.foldl (fun m c => if status = 0 then complete m c.1 c.2 0x49 0 0 0 else refuse m c.1 c.2 0x49 status 0)
    { m with pm := { m.pm with perfWait := [] } }

/-- The pending request is taken. -/
def clearPend (m : Mach) : Mach := ({ m with pm := { m.pm with pendPl := none, pendS := none } } : Mach).setFlagOf rPM_PERF 8 false

/-- A cap below the table's PL_MIN is reported once (R532). -/
def reportBlocked (m : Mach) : Mach :=
  let b := decide (capPl m < tablePlMin m.tk.active ∧ capPl m < curPl m)
  let m' := { m with pd := { m.pd with blocked := b } }
  if b && !m.pd.blocked then raiseD m' 0x0C07 0 else m'

/-- Step 4 of a seam (R33, R35, R36, R486, R532, R541): the caps apply first; a request above them is held; a change that the seam has no time
for is deferred. -/
def perfSeam (m : Mach) (scrubbed : Bool) : Mach :=
  let pmin := tablePlMin m.tk.active
  let m := m.setFlagOf rTK_STATUS 3 false
  let m := if (m.pm.pendPl.isSome || m.pm.pendS.isSome) && m.pm.pendPl.any (· < pmin) then
      (if m.pm.perfWait.isEmpty then raiseT (clearPend m) 0x0104 0 0 else endPerf (clearPend m) 0x0104) else m
  let m := reportBlocked m
  let pl := m.pm.pendPl.getD (curPl m)
  let sl := m.pm.pendS.getD (curS m)
  let take := decide (pl ≤ capPl m ∧ sl ≤ capS m)
  let pl' := if take then pl else curPl m
  let pl' := if capPl m < pl' then max (capPl m) pmin else pl'
  let sl' := min (if take then sl else curS m) (capS m)
  let change := pl' != curPl m || sl' != curS m
  if change ∧ scrubbed ∧ m.tk.seam < 1632 then
    (m.setFlagOf rTK_STATUS 3 true).setRegN rTK_PL_DEFER_COUNT (m.regN rTK_PL_DEFER_COUNT + 1)
  else
    let m := (m.setFldOf rPM_PERF 0 3 pl').setFldOf rPM_PERF 4 2 sl'
    let m := if change then advanceTo m (m.clk.now + 768) else m
    if take ∧ (m.pm.pendPl.isSome ∨ m.pm.pendS.isSome) then endPerf (clearPend m) 0 else m

/-! ## Temperature -/

/-- Consecutive samples of a condition, kept at 8. -/
def runOf (n : Nat) (b : Bool) : Nat := if b then min 8 (n + 1) else 0

/-- Crossings that a monitor at a level has pending: up, down (R528). -/
def Monitor.crossing (q : Monitor) (level : Nat) : Bool × Bool :=
  match level with
  | 0 => (decide (8 ≤ q.up1), false)
  | 1 => (decide (8 ≤ q.up2), decide (8 ≤ q.dn1))
  | _ => (false, decide (8 ≤ q.dn2))

/-- A monitor takes a sample (R528): a withdrawn crossing is forgotten. -/
def Monitor.sample (q : Monitor) (level : Nat) (u1 u2 d1 d2 : Bool) : Monitor :=
  let q := { q with up1 := runOf q.up1 u1, up2 := runOf q.up2 u2, dn1 := runOf q.dn1 d1, dn2 := runOf q.dn2 d2 }
  let (u, d) := q.crossing level
  { q with hovered := q.hovered && (u || d) }

/-- A step in a direction is not held by the rule on reversals (R528). -/
def Monitor.free (q : Monitor) (m : Mach) (up : Bool) : Bool :=
  match q.last with
  | none => true
  | some (t, at', d) => d == up || decide (32 ≤ (m.clk.tick + 2 ^ 48 - t) % 2 ^ 48) || (up && decide (at' + 3840000 ≤ m.clk.now))

/-- The level of a monitor after a seam, with the monitor (R528): at most one step; a reversal that must wait counts once. -/
def Monitor.seam (q : Monitor) (m : Mach) (level : Nat) : Nat × Monitor × Nat × Nat :=
  let (u, d) := q.crossing level
  if !u && !d then (level, q, 0, 0)
  else if q.free m u then
    (if u then level + 1 else level - 1, { q with last := some (m.clk.tick, m.clk.now, u), hovered := false }, 1, 0)
  else (level, { q with hovered := true }, 0, b2n (!q.hovered))

/-- The NTC's reading, and whether the skin counts as at its limit (R530). -/
def sampleNtc (m : Mach) (bad : Bool) : Mach :=
  if bad then
    let m := { m with pd := { m.pd with ntcValid := 0 } }
    if m.flagOf rPD_STATUS 5 then m else raiseD (m.setFlagOf rPD_STATUS 5 true) 0x0C0C 0
  else if m.flagOf rPD_STATUS 5 then
    let m := { m with pd := { m.pd with ntcValid := m.pd.ntcValid + 1 } }
    if 8 ≤ m.pd.ntcValid then m.setFlagOf rPD_STATUS 5 false else m
  else m

/-- The thermal samples of an audio frame boundary (R526–R531). -/
def sampleThermal (m : Mach) (f : FrameIn) : Mach :=
  let tj := (f.junction.take 16).foldl max (f.junction.headD 0)
  let m := (f.junction.take 16).zipIdx.foldl (fun m e => m.setRegN (rPD_TJ e.2) (wrapInt 32 e.1)) m
  let m := m.setRegN rPD_TJ_MAX (wrapInt 32 tj)
  let m := sampleNtc m f.ntcBad
  let m := if f.ntcBad then m else m.setRegN rPD_TSKIN (wrapInt 32 f.skin)
  let lim : Int := m.fldOf rPD_SKIN_LIMIT 0 16
  let atLimit := m.flagOf rPD_STATUS 5 || decide (4 * lim ≤ 5 * f.skin)
  let below := !m.flagOf rPD_STATUS 5 && decide (5 * f.skin < 4 * lim - 80)
  let tq := m.pd.tj.sample (tjLevel m) (decide (760 ≤ tj)) (decide (840 ≤ tj)) (decide (tj < 744)) (decide (tj < 824))
  let sq := if docked m then { Monitor.init with last := m.pd.skin.last } else m.pd.skin.sample (m.fldOf rPD_STATUS 3 1) atLimit false below false
  let cool : Nat := if tj < 760 then m.pd.coolCount + 1 else 0
  let m := { m with pd := { m.pd with tj := tq, skin := sq, coolCount := cool } }
  if m.flagOf rPD_STATUS 6 && decide (8 ≤ cool) then m.setFlagOf rPD_STATUS 6 false else m

/-- The built-in order of forced retention (R527): QUAY0–3 and VEC0–7 that are on. -/
def thermalOrder (m : Mach) : Mach :=
  let ds := (List.range 12).filter (fun d => eventual m d == 0)
  let (m, chg, _) := acceptPower m (maskOf ds) 1 false 0
  pumpPower { m with pd := { m.pd with thermDoms := m.pd.thermDoms ||| chg } }

/-- The step down from forced retention raises what the order lowered (R527). -/
def thermalRecover (m : Mach) : Mach :=
  let ds := m.pd.thermDoms
  let (m, _, _) := acceptPower m ds 0 false 0
  pumpPower { m with pd := { m.pd with thermDoms := 0 } }

/-- The thermal steps of a seam (R527–R529). -/
def thermalSeam (m : Mach) : Mach :=
  let l := tjLevel m
  let (l', q, n, h) := m.pd.tj.seam m l
  let m := { m with pd := { m.pd with tj := q } }
  let sk := m.fldOf rPD_STATUS 3 1
  let (sk', q', n', h') := if docked m then (sk, m.pd.skin, 0, 0) else m.pd.skin.seam m sk
  let m := { m with pd := { m.pd with skin := q' } }
  let m := (m.setRegN rPD_THERM_STEPS (m.regN rPD_THERM_STEPS + n + n')).setRegN rPD_HOVER_COUNT (m.regN rPD_HOVER_COUNT + h + h')
  let m := (m.setFldOf rPD_STATUS 1 2 l').setFldOf rPD_STATUS 3 1 sk'
  let m := if l = 0 ∧ l' = 1 then raiseD m 0x0C06 0 else m
  let m := if l = 1 ∧ l' = 2 then thermalOrder (raiseD m 0x0C08 0) else m
  let m := if l = 2 ∧ l' = 1 then thermalRecover m else m
  let m := if sk = 0 ∧ sk' = 1 then raiseD m 0x0C0B 0 else m
  showIlim m

/-! ## Supply sag -/

/-- The built-in retention order (R535): the domains that are on, those of VDD_Q in the tick's seam, the rest at once. -/
def retentionOrder (m : Mach) : Mach :=
  let ds := (List.range 96).filter (fun d => validDom d && d != 26 && eventual m d == 0)
  let (m, _, _) := acceptPower m (maskOf ds) 1 (!m.clk.inSeam) 0
  pumpPower m

/-- VBAT_LOW bits of PD_STATUS: 0 WARN, 1 NVW, 2 RET, 3 BOR. -/
def sagBit (m : Mach) (i : Nat) : Bool := m.flagOf rPD_STATUS (8 + i)
def setSag (m : Mach) (i : Nat) (b : Bool) : Mach := m.setFlagOf rPD_STATUS (8 + i) b

/-- V_WARN_ASSERT (R533). -/
def execVWarnAssert (s : State) : Host.Outcome State Fault Refusal :=
  s.effect (fun m => if sagBit m 0 then m else raiseT (setSag m 0 true) 0x0C01 0 0)

/-- V_WARN_DEASSERT (R533). -/
def execVWarnDeassert (s : State) : Host.Outcome State Fault Refusal := s.effect (fun m => setSag m 0 false)

/-- V_NVW_ASSERT (R297, R533). -/
def execVNvwAssert (s : State) : Host.Outcome State Fault Refusal :=
  s.effect (fun m => if sagBit m 1 then m else enterInhibit (setSag m 1 true))

/-- V_NVW_DEASSERT (R299, R533). -/
def execVNvwDeassert (s : State) : Host.Outcome State Fault Refusal :=
  s.effect (fun m => if sagBit m 1 then leaveInhibit (setSag m 1 false) else m)

/-- V_RET_ASSERT (R489, R533, R535). -/
def execVRetAssert (s : State) : Host.Outcome State Fault Refusal :=
  s.effect (fun m => if sagBit m 2 then m else retentionOrder (raiseT (setSag m 2 true) 0x0C02 0 0))

/-- V_RET_DEASSERT (R533): no domain is raised. -/
def execVRetDeassert (s : State) : Host.Outcome State Fault Refusal := s.effect (fun m => setSag m 2 false)

/-- A threshold write keeps R534: at least its reset value, at most 4.20 V in steps of 10 mV, and 100 mV between neighbours. -/
def thresholdOk (m : Mach) (i v : Nat) : Bool :=
  let cur := fun j => if j = i then v else m.regN (rPD_VTH_WARN + 4 * j)
  decide ([3450, 3300, 3150, 2950].getD i 0 ≤ v ∧ v ≤ 4200 ∧ v % 10 = 0) &&
    (List.range 3).all (fun j => decide (cur (j + 1) + 100 ≤ cur j))

/-! ## The seam -/

/-- A debounced profile takes effect (R515, R710). -/
def profileSeam (m : Mach) : Mach :=
  match m.pd.profileNext with
  | none => m
  | some p =>
    let m := { m.setFlagOf rPD_STATUS 0 p with pd := { m.pd with profileNext := none, undockSpent := false, skin := if p then Monitor.init else m.pd.skin } }
    if p then m.setFlagOf rPD_STATUS 3 false else m

/-- The reservoir's part of a seam (R518, R710). -/
def reservoirSeam (m : Mach) : Mach :=
  let undock := m.pd.undockSpent
  let spent := m.pd.spent
  let lift := m.pd.regained && !spent
  let m := { m with pd := { m.pd with spent := false, vresMin := false, regained := false, undockSpent := false } }
  let m := if undock then raiseD (retentionOrder m) 0x1006 0 else m
  if spent then
    raiseD ((m.setRegN rPD_LIMIT_EXCEED (m.regN rPD_LIMIT_EXCEED + 1)).setFlagOf rPD_STATUS 4 true) 0x0C04 0
  else if lift then m.setFlagOf rPD_STATUS 4 false else m

/-- Profile, reservoir and temperature in a seam, before its power changes. -/
def deliverySeam (m : Mach) : Mach := thermalSeam (profileSeam (reservoirSeam m))

/-- THERMAL_SHUTDOWN_COMPARATOR (R531): every domain but AON and HM goes off, HM into retention, and running slots are cut short. -/
def thermalShutdown (m : Mach) : Mach :=
  let m := cutRuns m (quayNow m)
  let ds := (List.range 96).filter (fun d => validDom d && d != 26 && eventual { m with pm := { m.pm with acts := [] } } d != 2)
  let mk := fun (d t : Nat) => ({ dom := d, tgt := t, seam := false, drain := false, req := 0 } : Act)
  let m := { m with pm := { m.pm with acts := ds.map (fun d => mk d 2) ++ [mk 26 1], latched := [] },
                    pd := { m.pd with coolCount := 0, thermDoms := 0 } }
  let m := raiseD (m.setFlagOf rPD_STATUS 6 true) 0x0C09 0
  pumpPower m

/-- THERMAL_SHUTDOWN_COMPARATOR (R531). -/
def execThermalShutdownComparator (s : State) : Host.Outcome State Fault Refusal :=
  s.effect (fun m => if m.flagOf rPD_STATUS 6 then m else thermalShutdown m)

end Sys2Proof.Machine
end

