-- ==== Sys2Proof/Machine/Link.lean ====
section
/-!
DEFINITION. The ports of the Chedan fabric (R602–R613): flits and their headers, credits, replay and ACK blocks, routing (R621–R623), sending
transfers and messages, reassembly, and fabric time (R624–R626).
-/
namespace Sys2Proof.Machine

/-! ## Ports -/

/-- What the device keeps for a port, and the machine with it set. -/
def port (m : Mach) (p : Nat) : ChPort := m.ch.ports.getD p ChPort.init
def setPort (m : Mach) (p : Nat) (c : ChPort) : Mach := { m with ch := { m.ch with ports := m.ch.ports.set p c } }

/-- STATE of CH_PORT_STATUS_p: 0 DOWN, 1 TRAIN, 2 ACTIVE, 3 SLEEP. -/
def portState (m : Mach) (p : Nat) : Nat := m.fldOf (rCH_PORT_STATUS p) 0 2

/-- A port is ACTIVE and its neighbour is admitted (R616). -/
def admitted (m : Mach) (p : Nat) : Bool := portState m p == 2 && m.flagOf (rCH_PORT_STATUS p) 2

/-- This node's ID. -/
def selfId (m : Mach) : Nat := m.fldOf rCH_NODE 0 6

/-- The active route epoch. -/
def epoch (m : Mach) : Nat := m.fldOf rCH_GEN 16 1

/-! ## Flits -/

/-- A flit's header (R606). -/
structure FHdr where
  dst : Nat
  src : Nat
  repoch : Nat
  typ : Nat
  ten : Nat
  chan : Nat
  shard : Nat
  tp : Nat
  last : Bool
  arr : Bool
  hop : Nat
  beat : Nat
  n : Nat
  deriving DecidableEq, Repr

/-- The 8 bytes of a header (R606). -/
def FHdr.bytes (h : FHdr) : List Byte :=
  leBytes 8 (h.dst % 64 + 2 ^ 6 * (h.src % 64) + 2 ^ 12 * (h.repoch % 2) + 2 ^ 13 * (h.typ % 8) + 2 ^ 16 * (h.ten % 64) +
    2 ^ 22 * (h.chan % 64) + 2 ^ 28 * (h.shard % 64) + 2 ^ 34 * (h.tp % 2) + 2 ^ 35 * b2n h.last + 2 ^ 36 * b2n h.arr +
    2 ^ 37 * (h.hop % 8) + 2 ^ 40 * (h.beat % 2 ^ 18) + 2 ^ 58 * ((h.n - 1) % 64))

/-- The header that 8 bytes spell (R606). -/
def fhdr (bs : List Byte) : FHdr :=
  let w := leNat (bs.take 8)
  { dst := bits w 0 6, src := bits w 6 6, repoch := bits w 12 1, typ := bits w 13 3, ten := bits w 16 6, chan := bits w 22 6, shard := bits w 28 6,
    tp := bits w 34 1, last := bit w 35, arr := bit w 36, hop := bits w 37 3, beat := bits w 40 18, n := bits w 58 6 + 1 }

/-- The 72 bytes of header and payload with another HOP. -/
def withHop (bs : List Byte) (hop : Nat) : List Byte := { fhdr bs with hop }.bytes ++ bs.drop 8

/-- The 80 bytes of a flit: header, payload, CRC, SEQ (R606). -/
def flitBytes (bs : List Byte) (seq : Nat) : List Byte := bs ++ leBytes 4 (crc32 bs) ++ leBytes 4 (seq % 256)

/-- Count discarded flits by cause: 0 UNREACH, 1 HOP, 2 STALE; CH_UNREACHABLE once per cause until CH_DISCARD is read (R622). -/
def discardFlits (m : Mach) (cause n : Nat) : Mach :=
  let m := m.satFld rCH_DISCARD (8 * cause) 8 n
  if bit m.ch.causes cause then m else raiseD { m with ch := { m.ch with causes := m.ch.causes ||| 2 ^ cause } } 0x0E05 cause

/-- Count transfers that matched no record (R630). -/
def countNoRecord (m : Mach) (n : Nat) : Mach := m.satFld rCH_DISCARD 24 8 n

/-! ## ACK blocks and the transmitter -/

/-- An ACK control block (R604): ACKSEQ, NAK and credits returned; what was owed is paid. -/
def sendAck (m : Mach) (p : Nat) (nak : Bool) : Mach :=
  let c := port m p
  let cr := (c.owe.zipIdx).foldl (fun a e => a + (min e.1 15) * 2 ^ (17 + 4 * e.2)) 0
  let body := 0x55 + 2 ^ 8 * ((c.exp + 255) % 256) + 2 ^ 16 * b2n nak + cr
  (setPort m p { c with owe := c.owe.map (· - 15) }).emit (.link p (leBytes 8 body))

/-- A receive buffer of port `p` for class `cls` is free again: the next ACK returns its credit (R608). -/
def freeBuf (m : Mach) (p cls : Nat) : Mach :=
  if p < 4 ∧ portState m p = 2 then
    let c := port m p
    sendAck (setPort m p { c with owe := c.owe.set cls (c.owe.getD cls 0 + 1) }) p false
  else m

/-- The next flit that a port serves: the lowest class with a credit and a flit, in round-robin order over its sources (R608). -/
def nextFlit (c : ChPort) : Option TxFlit :=
  ((List.range 7).find? (fun k => decide (0 < c.credits.getD k 0) && c.txq.any (·.cls == k))).bind (fun k =>
    let order := (List.range 5).map (fun i => (c.rr.getD k 4 + 1 + i) % 5)
    (order.find? (fun s => c.txq.any (fun f => f.cls == k && f.src == s))).bind (fun s =>
      c.txq.find? (fun f => f.cls == k && f.src == s)))

/-- The class in which a forwarded flit's buffer was taken at its input port: its HOP there, or 0 for CTRL (R607). -/
def inClass (f : TxFlit) : Nat := if (fhdr f.bytes).typ = 0 then 0 else f.cls - 1

/-- A port sends what its credits and its window of 32 flits allow (R608, R610). -/
def pumpPort (p : Nat) : Nat → Mach → Mach
  | 0, m => m
  | fuel + 1, m =>
    let c := port m p
    if portState m p ≠ 2 ∨ 32 ≤ c.sent.length then m
    else match nextFlit c with
      | none => m
      | some f =>
        let bs := flitBytes f.bytes c.seq
        let c' := { c with txq := c.txq.erase f, sent := c.sent ++ [(bs, 0)], seq := (c.seq + 1) % 256,
                           credits := c.credits.set f.cls (c.credits.getD f.cls 0 - 1), rr := c.rr.set f.cls f.src,
                           lastAdv := if c.sent.isEmpty then m.clk.now else c.lastAdv }
        pumpPort p fuel (freeBuf ((setPort m p c').emit (.link p bs)) f.src (inClass f))

/-- A flit joins the queue of an egress port; on a port that is not ACTIVE it is lost with the port's buffers (R612). -/
def enqueue (m : Mach) (p : Nat) (f : TxFlit) : Mach :=
  if portState m p ≠ 2 then freeBuf m f.src (inClass f)
  else
    let c := port m p
    setPort m p { c with txq := c.txq ++ [f] }

/-- Every port sends what it can. -/
def pumpPorts (m : Mach) : Mach :=
  (List.range 4).foldl (fun m p => pumpPort p ((port m p).txq.length + 1) m) m

/-! ## Routing -/

/-- The entry of a routing table for a node (R621): port, VALID, LOCAL. -/
def route (m : Mach) (table n : Nat) : Nat := m.fldOf (rCH_ROUTE table (n / 8)) (4 * (n % 8)) 4

/-- The old routing table is still kept (R623). -/
def oldKept (m : Mach) : Bool := m.ch.oldUntil.any (m.clk.now ≤ ·)

/-- Send a flit on towards its destination (R607, R622): a flit from port `src`, or from the node itself for 4. -/
def forward (m : Mach) (src : Nat) (bs : List Byte) : Mach :=
  let h := fhdr bs
  let e := route m h.repoch h.dst
  let cls := if h.typ = 0 then 0 else h.hop
  if h.repoch ≠ epoch m ∧ !oldKept m then freeBuf (discardFlits m 2 1) src cls
  else if !bit e 2 then freeBuf (discardFlits m 0 1) src cls
  else if h.hop = 6 then freeBuf (discardFlits m 1 1) src cls
  else
    let f : TxFlit := { cls := if h.typ = 0 then 0 else h.hop + 1, src, bytes := withHop bs (h.hop + 1) }
    if h.typ ≠ 0 ∧ !admitted m (bits e 0 2) then freeBuf m src cls else enqueue m (bits e 0 2) f

/-! ## Transfers and messages -/

/-- Payloads of the flits of a transfer. -/
def payloads : Nat → List Byte → List (List Byte)
  | 0, _ => []
  | fuel + 1, bs => if bs.length ≤ 64 then [bs] else bs.take 64 :: payloads fuel (bs.drop 64)

/-- The flits of a transfer or message (R606): consecutive BEAT values from 0, LAST on the final one. -/
def flitsOf (h : FHdr) (data : List Byte) : List (List Byte) :=
  let ps := payloads (data.length / 64 + 1) data
  (ps.zipIdx).map (fun e =>
    ({ h with beat := e.2, last := e.2 + 1 == ps.length, n := max 1 e.1.length } : FHdr).bytes ++ slice e.1 0 64)

/-- A message to the node itself is received at once. -/
def toSelf (m : Mach) (h : FHdr) (data : List Byte) : Mach :=
  { m with ch := { m.ch with inbox := m.ch.inbox ++ [{ port := 4, typ := h.typ, src := h.src, ten := h.ten, chan := h.chan, shard := h.shard, tp := h.tp,
                                                        arr := h.arr, coarse := false, beats := ceilDiv data.length 64, data, at' := m.clk.now, first := m.clk.now }] } }

/-- Send a transfer or a routed message to a node (R606, R622): flits carry the active epoch. -/
def sendTo (m : Mach) (dst typ ten chan shard tp : Nat) (arr : Bool) (data : List Byte) : Mach :=
  let h : FHdr := { dst, src := selfId m, repoch := epoch m, typ, ten, chan, shard, tp, last := false, arr, hop := 0, beat := 0, n := 1 }
  if dst = selfId m then toSelf m h data
  else pumpPorts ((flitsOf h data).foldl (fun m f => forward m 4 f) m)

/-- Send a link or flood message on a port (R614). -/
def sendLink (m : Mach) (p code : Nat) (data : List Byte) : Mach :=
  let h : FHdr := { dst := 0, src := 0, repoch := epoch m, typ := 0, ten := 0, chan := code, shard := 0, tp := 0, last := false, arr := false,
                    hop := 0, beat := 0, n := 1 }
  pumpPorts ((flitsOf h data).foldl (fun m f => enqueue m p { cls := 0, src := 4, bytes := withHop f 1 }) m)

/-- Send a flood message on every ACTIVE admitted port but one (R614). -/
def flood (m : Mach) (but code : Nat) (data : List Byte) : Mach :=
  (List.range 4).foldl (fun m p => if p ≠ but ∧ admitted m p then sendLink m p code data else m) m

/-- Link and flood messages are meant for every node that receives them (R614). -/
def isLocal (m : Mach) (h : FHdr) : Bool := (h.typ == 0 && decide (h.chan < 0x10)) || h.dst == selfId m

/-- A flit that is delivered joins its transfer (R606): one of BEAT 0 begins it anew, LAST ends it; out of sequence it is dropped. -/
def assemble (m : Mach) (p : Nat) (h : FHdr) (payload : List Byte) : Mach :=
  let same := fun (x : Msg) => x.typ == h.typ && x.src == h.src && x.ten == h.ten && x.chan == h.chan && x.shard == h.shard && x.tp == h.tp &&
    (!(h.typ == 0 && decide (h.chan < 0x10)) || x.port == p)
  let old := m.ch.asm.find? same
  let rest := m.ch.asm.filter (fun x => !same x)
  let cur : Option Msg :=
    if h.beat = 0 then some { port := p, typ := h.typ, src := h.src, ten := h.ten, chan := h.chan, shard := h.shard, tp := h.tp, arr := h.arr,
                              coarse := coarse m, beats := 0, data := [], at' := m.clk.now, first := m.clk.now }
    else old.filter (·.beats == h.beat)
  match cur with
  | none => { m with ch := { m.ch with asm := rest } }
  | some x =>
    let x := { x with beats := x.beats + 1, data := x.data ++ payload.take h.n, at' := m.clk.now, arr := h.arr }
    if h.last then { m with ch := { m.ch with asm := rest, inbox := m.ch.inbox ++ [x] } }
    else { m with ch := { m.ch with asm := rest ++ [x] } }

/-- A flit was accepted at a port (R610, R616): delivered or forwarded; an unadmitted link
carries only HELLO and CERT, and a node without an ID handles only link and flood messages (R618). -/
def acceptFlit (m : Mach) (p : Nat) (bs : List Byte) : Mach :=
  let h := fhdr bs
  let cls := if h.typ = 0 then 0 else h.hop
  if !admitted m p ∧ !(h.typ == 0 && decide (h.chan ≤ 2)) then freeBuf m p cls
  else if m.ch.full ∧ !(h.typ == 0 && decide (h.chan < 0x10)) then freeBuf m p cls
  else if isLocal m h then freeBuf (assemble m p h (slice bs 8 64)) p cls
  else forward m p bs

/-- A received flit (R610): 80 bytes, and whether a block of it had a sync or block error. -/
def receiveFlit (m : Mach) (p : Nat) (bs : List Byte) (blockErr : Bool) : Mach :=
  if portState m p ≠ 2 then m
  else
    let c := port m p
    let crcBad := byteFld bs 72 4 != crc32 (bs.take 72)
    let m := if crcBad then m.satFld (rCH_PORT_ERR p) 0 16 1 else m
    if crcBad ∨ blockErr ∨ bs.length ≠ 80 ∨ byteFld bs 76 1 ≠ c.exp then
      if c.nakd then m else sendAck (setPort m p { c with nakd := true }) p true
    else
      let m := setPort m p { c with exp := (c.exp + 1) % 256, nakd := false }
      let m := acceptFlit m p (bs.take 72)
      pumpPorts (sendAck m p false)

/-! ## Leaving ACTIVE -/

/-- The flits of a port's buffers are lost (R612): its queue, its replay buffer, and those from it that wait at other ports. -/
def losePort (m : Mach) (p : Nat) : Mach :=
  let keep := fun (c : ChPort) => { c with txq := c.txq.filter (·.src != p) }
  let m := { m with ch := { m.ch with ports := m.ch.ports.map keep, asm := m.ch.asm.filter (·.port != p) } }
  let c := port m p
  setPort m p { ChPort.init with fails := c.fails, failRaised := c.failRaised }

/-- A port enters TRAIN (R612); training begins at a device time. -/
def enterTrain (m : Mach) (p start : Nat) : Mach :=
  let m := losePort m p
  (setPort m p { port m p with trainAt := start }).setFldOf (rCH_PORT_STATUS p) 0 15 1

/-- Fields of CH_PORT_STATUS_p that hold of an ACTIVE link end with it. -/
def dropStatus (m : Mach) (p st : Nat) : Mach := m.setFldOf (rCH_PORT_STATUS p) 0 15 st

/-! ## Fabric time -/

/-- The offset of fabric time at a device time, in 2⁻¹⁶ cycles: spread evenly over the tick after its update (R626). -/
def offsetAt (m : Mach) (d : Nat) : Int :=
  let per := max 1 (m.regN rTK_PERIOD)
  m.ch.oFrom + (m.ch.oTo - m.ch.oFrom) * (min (d - m.ch.oAt) per : Nat) / (per : Int)

/-- Fabric time at a device time, in 2⁻¹⁶ cycles (R624). -/
def ftime16 (m : Mach) (d : Nat) : Int := (d * 65536 : Nat) + offsetAt m d

/-- Fabric time in whole reference cycles (CH_FTIME). -/
def ftime (m : Mach) : Nat := wrapInt 64 (ftime16 m m.clk.now / 65536)

/-- A stamp of this node converted to fabric time, and one of fabric time to device time (R638). -/
def toFabric (m : Mach) (stamp : Nat) : Nat := wrapInt 64 ((stamp : Int) + offsetAt m m.clk.now / 65536)
def fromFabric (m : Mach) (stamp : Nat) : Nat := wrapInt 64 ((stamp : Int) - offsetAt m m.clk.now / 65536)

/-- CH_TICK_OFS: the fabric tick number minus the local tick number (R624). -/
def tickOfs (m : Mach) : Nat := m.reg64 rCH_TICK_OFS_LO % 2 ^ 48

/-- The fabric tick number of the tick under way (R624). -/
def fabricTick (m : Mach) : Nat := (m.clk.tick + tickOfs m) % 2 ^ 48

/-- This node is out of step (R628). -/
def outOfStep (m : Mach) : Bool := m.flagOf rCH_NODE 25

end Sys2Proof.Machine
end

