-- ==== Sys2Proof/Machine/Rings.lean ====
section
/-!
DEFINITION. Record rings (R407, R408): numbers and places of records, the ring a stream may use, records that wait for their DRAM ring, and the
forwarding of a stream's records to peers (R638).
-/
namespace Sys2Proof.Machine

/-- SEQ of the record counted `n` from 0 (R407): 1 first, wrapping modulo 2³² and skipping 0. -/
def seqOf (n : Nat) : Nat := n % (2 ^ 32 - 1) + 1

/-- A ring that R407 allows to an owner: its partitions (LOC 0), or an allocation of the owner whose flags set only TIER_D (LOC 1). -/
def ringOk (m : Mach) (owner loc ring total : Nat) : Bool :=
  if loc = 0 then ring % 64 == 0 && lhRangeOk m owner ring total
  else (ownAlloc m owner ring).any (fun a => a.flags == 1 && decide (total ≤ a.size))

/-- Generation of a DRAM ring's allocation. -/
def ringGen (m : Mach) (loc ring : Nat) : Nat := if loc = 0 then 0 else ((findAlloc m ring).map (·.gen)).getD 0

/-- Reference cycles within which a record reaches its DRAM ring: 250 µs (R408). -/
abbrev ringTime : Nat := 9600

/-- A record waits for its DRAM ring (R408). -/
def queueRing (m : Mach) (stream : Nat) (mirror : Bool) (h gen off : Nat) (bytes : List Byte) : Mach :=
  { m with sn := { m.sn with ring := m.sn.ring ++ [{ stream, mirror, h, gen, off, bytes, due := m.clk.now + ringTime }] } }

/-- A header of 32 bytes (R407): `extra` fills bytes 20–31. -/
def recHeader (seq stamp stream flags len source : Nat) (extra : List Byte) : List Byte :=
  leBytes 4 seq ++ leBytes 8 stamp ++ leBytes 1 stream ++ leBytes 1 flags ++ leBytes 2 len ++ leBytes 1 source ++ leBytes 3 0 ++ slice extra 0 12

/-- A right of a tenant to send to, or with `right` 0 to receive from, a node and channel (R561). -/
def portGranted (m : Mach) (t right node chan : Nat) : Bool :=
  granted m t 3 right (fun r => decide (bits r.a 0 6 ≤ node ∧ node ≤ bits r.a 8 6 ∧ bits r.b 0 6 ≤ chan ∧ chan ≤ bits r.b 8 6))

/-- A right of a tenant to a stream source (R561). -/
def streamGranted (m : Mach) (t kind src : Nat) : Bool :=
  t == 0 || granted m t 4 0 (fun r => r.a == kind && decide (r.b ≤ src ∧ src < r.b + r.c))

/-- Forward a record of a stream context to the peers that name it (R638): STAMP, at byte `so`, converts to fabric time, and a node out of step
flags COARSE, in the bits `cb` of byte `fo`. -/
def forwardPeers (m : Mach) (n owner so fo cb : Nat) (bytes : List Byte) : Mach :=
  (List.range 8).foldl (fun m k =>
    let w := m.reg (rCH_PEER_OUT k)
    if flag w 0 ∧ fld w 8 6 = n then
      if !portGranted m owner 1 (fld w 16 6) (fld w 24 6) then raiseT m 0x0D07 owner k
      else
        let b := patch bytes so (leBytes 8 (toFabric m (byteFld bytes so 8)))
        let b := if outOfStep m then patch b fo (leBytes 1 (byteFld b fo 1 ||| cb)) else b
        sendTo m (fld w 16 6) 4 owner (fld w 24 6) 0 0 false b
    else m) m

/-- What is kept for a stream context, and the machine with it set. -/
def sctx (m : Mach) (n : Nat) : SCtx := tabGet m.sn.ctx n SCtx.init
def setSctx (m : Mach) (n : Nat) (c : SCtx) : Mach := { m with sn := { m.sn with ctx := tabSet m.sn.ctx n c SCtx.init } }

/-- Fields of SN_STREAM_CFG_n (R430). -/
def strKind (m : Mach) (n : Nat) : Nat := if n < 48 then m.fldOf (rSN_STREAM_CFG n) 0 4 else 0
def strOwner (m : Mach) (n : Nat) : Nat := m.fldOf (rSN_STREAM_CFG n) 8 6
def strLoc (m : Mach) (n : Nat) : Nat := m.fldOf (rSN_STREAM_CFG n) 16 1
def strSize (m : Mach) (n : Nat) : Nat := 64 * 2 ^ m.fldOf (rSN_STREAM_CFG n) 17 2
def strSource (m : Mach) (n : Nat) : Nat := m.fldOf (rSN_STREAM_CFG n) 24 8

/-- A record of a stream or of the fusion output is dropped (R408, R463): counted, and its fault raised once until the counter is read. -/
def missRecord (m : Mach) (stream : Nat) : Mach :=
  if stream < 48 then
    let m := m.satFld (rSN_STREAM_MISSED stream) 0 32 1
    let c := sctx m stream
    if c.missRaised then m else raiseT (setSctx m stream { c with missRaised := true }) 0x090A (strOwner m stream) stream
  else
    let m := m.satFld rFU_OUT_MISSED 0 32 1
    if m.fu.missRaised then m
    else raiseT { m with fu := { m.fu with missRaised := true } } 0x0A06 (m.fldOf rFU_OWNER 0 6) 0

/-- SEQ of the last record written (SN_STREAM_SEQ_n, FU_OUT_SEQ). -/
def seqWritten (m : Mach) (stream seq : Nat) : Mach :=
  if stream < 48 then m.setRegN (rSN_STREAM_SEQ stream) seq else m.setRegN rFU_OUT_SEQ seq

/-- Place a record in its ring (R408): in a partition at once, in DRAM within 250 µs. -/
def placeRecord (m : Mach) (stream owner loc ring gen off : Nat) (bytes : List Byte) : Mach :=
  if loc = 1 then queueRing m stream false ring gen off bytes
  else if lhRangeOk m owner (ring + off) bytes.length then seqWritten (lhWrite m (ring + off) bytes) stream (byteFld bytes 0 4)
  else missRecord m stream

end Sys2Proof.Machine
end

