-- ==== Sys2Proof/Machine/Fusion.lean ====
section
/-!
DEFINITION. The fusion engine (R440–R474): decoding of samples, alignment to the grid, strapdown, tests and states of the sensors, confidence,
degrade steps and output records. The filter's own arithmetic is open (log 50).
-/
namespace Sys2Proof.Machine

/-! ## FP64 words -/

/-- Operations on FP64 words, each rounded once (R168). -/
def dAdd (a b : Nat) : Nat := fmtFP64.encode (fAdd fmtFP64 (fmtFP64.decode a) (fmtFP64.decode b)).1
def dNeg (a : Nat) : Nat := fmtFP64.encode (fmtFP64.decode a).negate
def dSub (a b : Nat) : Nat := dAdd a (dNeg b)
def dMul (a b : Nat) : Nat := fmtFP64.encode (fMul fmtFP64 (fmtFP64.decode a) (fmtFP64.decode b)).1
def dDiv (a b : Nat) : Nat := fmtFP64.encode (fDiv fmtFP64 (fmtFP64.decode a) (fmtFP64.decode b)).1
def dSqrt (a : Nat) : Nat := fmtFP64.encode (fSqrt fmtFP64 (fmtFP64.decode a)).1
def dCos (a : Nat) : Nat := fmtFP64.encode (fmtFP64.round (Fl.cos fmtFP64 (fmtFP64.decode a))).1
def dSin (a : Nat) : Nat := fmtFP64.encode (fmtFP64.round (Fl.sin fmtFP64 (fmtFP64.decode a))).1

/-- An integer as an FP64 word. -/
def dInt (i : Int) : Nat := fmtFP64.encode (fmtFP64.round (Fl.ofInt i 0)).1

/-- An FP32 word widened, and an FP64 word narrowed. -/
def widen (w : Nat) : Nat := fmtFP64.encode (fmtFP32.decode w)
def narrow (d : Nat) : Nat := fmtFP32.encode (fmtFP32.round (fmtFP64.decode d)).1

/-- a < b, and whether a word is finite. -/
def dBelow (a b : Nat) : Bool := (fmtFP64.decode a).below (fmtFP64.decode b)
def dFinite (a : Nat) : Bool := match fmtFP64.decode a with | .fin .. => true | _ => false

/-- The magnitude of an FP64 word. -/
def dAbs (a : Nat) : Nat := a % 2 ^ 63

/-- Element i of a vector, and operations on vectors of three. -/
def el (v : List Nat) (i : Nat) : Nat := v.getD i 0
def vAdd (a b : List Nat) : List Nat := [dAdd (el a 0) (el b 0), dAdd (el a 1) (el b 1), dAdd (el a 2) (el b 2)]
def vSub (a b : List Nat) : List Nat := [dSub (el a 0) (el b 0), dSub (el a 1) (el b 1), dSub (el a 2) (el b 2)]
def vScale (v : List Nat) (s : Nat) : List Nat := [dMul (el v 0) s, dMul (el v 1) s, dMul (el v 2) s]

/-- The norm of a vector, in the order of R449. -/
def vNorm (v : List Nat) : Nat :=
  dSqrt (dAdd (dAdd (dMul (el v 0) (el v 0)) (dMul (el v 1) (el v 1))) (dMul (el v 2) (el v 2)))

/-- Hamilton product of quaternions w, x, y, z, each element summed from left to right (log 51). -/
def qMul (a b : List Nat) : List Nat :=
  let p := fun i j => dMul (el a i) (el b j)
  [dSub (dSub (dSub (p 0 0) (p 1 1)) (p 2 2)) (p 3 3),
   dSub (dAdd (dAdd (p 0 1) (p 1 0)) (p 2 3)) (p 3 2),
   dAdd (dAdd (dSub (p 0 2) (p 1 3)) (p 2 0)) (p 3 1),
   dAdd (dSub (dAdd (p 0 3) (p 1 2)) (p 2 1)) (p 3 0)]

/-- A quaternion divided by its norm (R449). -/
def qNormalise (q : List Nat) : List Nat :=
  let n := dSqrt (dAdd (dAdd (dAdd (dMul (el q 0) (el q 0)) (dMul (el q 1) (el q 1))) (dMul (el q 2) (el q 2))) (dMul (el q 3) (el q 3)))
  [dDiv (el q 0) n, dDiv (el q 1) n, dDiv (el q 2) n, dDiv (el q 3) n]

/-- The conjugate. -/
def qConj (q : List Nat) : List Nat := [el q 0, dNeg (el q 1), dNeg (el q 2), dNeg (el q 3)]

/-- A body vector rotated to the local frame: the vector part of q (0, v) q* (log 51). -/
def rotate (q v : List Nat) : List Nat := (qMul (qMul q [0, el v 0, el v 1, el v 2]) (qConj q)).drop 1

/-! ## Entries -/

/-- Configuration of an entry (R465). -/
def fuOn (m : Mach) (n : Nat) : Bool := m.flagOf (rFU_SNS_CFG n) 0
def fuKind (m : Mach) (n : Nat) : Nat := m.fldOf (rFU_SNS_CFG n) 1 3
def fuStream (m : Mach) (n : Nat) : Nat := m.fldOf (rFU_SNS_CFG n) 8 6
def fuOwner (m : Mach) : Nat := m.fldOf rFU_OWNER 0 6

/-- Sample-type entries: GYRO, ACCEL, MAG (R446). -/
def fuSampled (m : Mach) (n : Nat) : Bool := decide (fuKind m n ≤ 2)

/-- The engine runs: it is enabled and FUS is on (R464). -/
def fuRuns (m : Mach) : Bool := m.flagOf rFU_CTRL 0 && isOn m 24

/-- An entry's state, and the machine with it set. -/
def fuEnt (m : Mach) (n : Nat) : FuEnt := m.fu.ents.getD n (FuEnt.init 0)
def setFuEnt (m : Mach) (n : Nat) (e : FuEnt) : Mach := { m with fu := { m.fu with ents := m.fu.ents.set n e } }

/-- Enabled entries, ascending. -/
def fuEnts (m : Mach) : List Nat := (List.range 16).filter (fuOn m)

/-- STATES of R463: two bits an entry, 3 for a disabled one. -/
def fuStates (m : Mach) : Nat :=
  (List.range 16).foldl (fun a n => a + (if fuOn m n then (fuEnt m n).st else 3) * 4 ^ n) 0

/-- FU_SNS_STATE follows the entries. -/
def showStates (m : Mach) : Mach := m.setRegN rFU_SNS_STATE (if m.flagOf rFU_CTRL 0 then fuStates m else 0xFFFFFFFF)

/-- An entry becomes MASKED with a cause: 1 DROPOUT, 2 CONSISTENCY, 3 FORCED (R455–R458). -/
def maskEnt (m : Mach) (n cause : Nat) (openAt : Option Nat) : Mach :=
  let e := fuEnt m n
  let m := setFuEnt m n { e with st := 2, fails := 0, passes := 0, open' := false, openAt, silent := cause == 1 }
  showStates (m.setFldOf (rFU_SNS_FAILS n) 16 2 cause)

/-- FORCE_MASK of an entry (R457). -/
def forced (m : Mach) (n : Nat) : Bool := m.flagOf (rFU_SNS_CTRL n) 0

/-- An entry drops out (R455, R458): it is MASKED at once and FU_SENSOR_DROPOUT is raised. -/
def dropEnt (m : Mach) (n : Nat) : Mach := raiseT (maskEnt m n 1 none) 0x0A01 (fuOwner m) n

/-- Readmission opens, unless FORCE_MASK holds it closed (R457); a WHEEL entry starts its differences anew (R443). -/
def openEnt (m : Mach) (n : Nat) : Mach :=
  if forced m n then m
  else
    let e := fuEnt m n
    setFuEnt m n { e with open' := true, openAt := none, passes := 0, prev := none }

/-! ## Arrival and decoding -/

/-- Raw element AXIS_a of a record (R443): its FP64 value and whether it is saturated. -/
def rawElt (ty : Nat) (rec : List Byte) (at' : Nat) : Nat × Bool :=
  match ty with
  | 0 =>
    let i := signedOf 16 (byteFld rec at' 2)
    (dInt i, i == 32767 || i == -32768)
  | 1 =>
    let i := signedOf 32 (byteFld rec at' 4)
    (dInt i, i == 2147483647 || i == -2147483648)
  | _ => (widen (byteFld rec at' 4), false)

/-- Bytes of an element by TYPE. -/
def typeBytes (ty : Nat) : Nat := if ty = 0 then 2 else 4

/-- Decode a record for an entry (R443): the values, and whether any element is saturated. -/
def decodeSample (m : Mach) (n : Nat) (rec : List Byte) : List Nat × Bool :=
  let w := m.reg (rFU_SNS_DECODE n)
  let ofs := 32 + fld w 0 8
  match fuKind m n with
  | 3 => ([byteFld rec 32 4], false)
  | 4 => ([widen (byteFld rec ofs 4)], false)
  | _ =>
    let ty := fld w 8 2
    let axis := fun a =>
      let r := rawElt ty rec (ofs + fld w (12 + 2 * a) 2 * typeBytes ty)
      let s := widen (m.regN (rFU_SNS_SCALE n))
      (dAdd (dMul (if flag w (18 + a) then dNeg s else s) r.1) (widen (m.regN (rFU_SNS_BIAS n a))), r.2)
    ([(axis 0).1, (axis 1).1, (axis 2).1], (axis 0).2 || (axis 1).2 || (axis 2).2)

/-- Count a late or discarded sample (R446–R448). -/
def countLate (m : Mach) (n : Nat) : Mach := m.satFld (rFU_SNS_LATE n) 0 32 1

/-- A record arrives at an entry (R442, R448, R458). -/
def arriveAt (m : Mach) (rec : List Byte) (n : Nat) : Mach :=
  let stamp := byteFld rec 4 8
  let source := byteFld rec 16 1
  let invalid := (byteFld rec 13 1 &&& 0x5C) != 0
  let e := fuEnt m n
  if !invalid ∧ e.lastStamp.any (stamp ≤ ·) then countLate m n
  else
    let m :=
      if e.src.any (· != source) then
        let m := dropEnt m n
        openEnt (setFuEnt m n { fuEnt m n with samples := [], silent := false }) n
      else m
    let e := { fuEnt m n with src := some source }
    if invalid then setFuEnt m n { e with samples := e.samples ++ [{ stamp, arr := m.clk.now, valid := false, sat := false, x := [] }] }
    else if !fuSampled m n ∧ stamp ≤ m.fu.lastStep then countLate (setFuEnt m n { e with lastStamp := some stamp }) n
    else
      let (x, sat) := decodeSample m n rec
      setFuEnt m n { e with lastStamp := some stamp, samples := e.samples ++ [{ stamp, arr := m.clk.now, valid := true, sat, x }] }

/-- A stream's record arrives at the engine (R442): at every entry that binds the stream, in ascending order. -/
def fuArrive (m : Mach) (stream : Nat) (rec : List Byte) : Mach :=
  if fuRuns m then ((fuEnts m).filter (fun n => fuStream m n == stream)).foldl (fun m n => arriveAt m rec n) m else m

/-! ## The grid -/

/-- Grid time of point k (R444). -/
def gridTime (m : Mach) (k : Nat) : Nat := k * max 1 (m.regN rFU_GRID_PERIOD) + m.regN rFU_GRID_PHASE

/-- The grid interval in seconds (R449). -/
def gridDelta (m : Mach) : Nat := dDiv (dInt (m.regN rFU_GRID_PERIOD)) (dInt 38400000)

/-- An entry's value at a grid point (R446): the value, whether it was interpolated, and whether a bracketing sample was saturated. -/
def valueAt (m : Mach) (n t : Nat) : Option (List Nat) × Bool × Bool :=
  let ss := (fuEnt m n).samples.filter (fun s => decide (s.arr ≤ t + m.regN rFU_LAT))
  let before := ss.filter (fun s => decide (s.stamp ≤ t))
  let x0 := (before.filter (·.valid)).getLast?
  let x1 := (ss.filter (fun s => decide (t < s.stamp))).head?
  let whole := before.getLast?.all (·.valid)
  match x0, x1 with
  | some a, some b =>
    if whole ∧ b.valid then
      let w := dDiv (dInt (t - a.stamp : Nat)) (dInt (b.stamp - a.stamp : Nat))
      (some (vAdd a.x ((vScale (vSub b.x a.x) w))), true, a.sat || b.sat)
    else (some a.x, false, a.sat)
  | some a, none => (some a.x, false, a.sat)
  | none, _ => (none, false, false)

/-- The primary entry of a KIND: the lowest enabled one that is not MASKED (R449). -/
def primary (m : Mach) (kind : Nat) : Option Nat := (fuEnts m).find? (fun n => fuKind m n == kind && (fuEnt m n).st != 2)

/-- The value of the primary entry of a KIND at a grid point, where it has one; a MAG entry has one only where it is interpolated. -/
def primaryValue (m : Mach) (kind t : Nat) : Option (List Nat) :=
  (primary m kind).bind (fun n => let v := valueAt m n t; if kind = 2 ∧ !v.2.1 then none else v.1)

/-- Samples of the enabled sample-type entries are counted late where they do not bracket the point (R446). -/
def countLates (m : Mach) (t : Nat) : Mach :=
  ((fuEnts m).filter (fuSampled m)).foldl (fun m n =>
    if (valueAt m n t).2.1 then m else countLate { m with fu := { m.fu with late := true } } n) m

/-- The reported step (R461). -/
def fuStep (m : Mach) : Nat := m.fldOf rFU_STATUS 0 3

/-- The engine is initialised (R451). -/
def initDone (m : Mach) : Bool := m.flagOf rFU_STATUS 3

/-- The rates of R450 show the device at rest. -/
def atRest (m : Mach) (g a : List Nat) : Bool :=
  let d := dAbs (dSub (vNorm a) (widen (m.regN rFU_GRAVITY)))
  !dBelow (dDiv (dInt 1) (dInt 2)) d && dFinite d && dBelow (vNorm g) 0x3FA999999999999A

/-- The forward component of velocity is clamped to ±FU_VEL_MAX at F2 (R462). -/
def clampVel (m : Mach) (q v : List Nat) : List Nat :=
  let b := rotate (qConj q) v
  let mx := widen (m.regN rFU_VEL_MAX)
  if dBelow mx (el b 0) then rotate q [mx, el b 1, el b 2]
  else if dBelow (el b 0) (dNeg mx) then rotate q [dNeg mx, el b 1, el b 2]
  else v

/-- Advance the nominal state over one grid interval (R449, R462). Without a GYRO value nothing moves; without an ACCEL value only the
attitude does. -/
def strapdown (m : Mach) (t : Nat) : Mach :=
  match primaryValue m 0 t with
  | none => m
  | some gyro =>
    let dt := gridDelta m
    let th := vScale (vSub gyro (m.fu.bg.map widen)) dt
    let n := vNorm th
    let half := dDiv n (dInt 2)
    let dq := if n % 2 ^ 63 = 0 then [dInt 1, 0, 0, 0] else dCos half :: vScale th (dDiv (dSin half) n)
    let q := qNormalise (qMul m.fu.q dq)
    match primaryValue m 1 t with
    | none => { m with fu := { m.fu with q } }
    | some accel =>
      let f := vSub accel (m.fu.ba.map widen)
      let a := vAdd (rotate q f) [0, 0, dNeg (widen (m.regN rFU_GRAVITY))]
      let v := vAdd m.fu.v (vScale a dt)
      let v := if fuStep m = 2 then clampVel m q v else v
      let p := if fuStep m = 3 then m.fu.p else vAdd m.fu.p (vScale v dt)
      { m with fu := { m.fu with q, v, p } }

/-- Configuration words the filter rests on. -/
def kfConfig (m : Mach) : List Nat :=
  [m.regN rFU_GRID_PERIOD, m.regN rFU_FILT, m.regN rFU_GRAVITY] ++ (List.range 16).map (fun n => m.regN (rFU_SNS_NOISE n))

/-- The nominal state as the filter reads it. -/
def kfNominal (m : Mach) : List Nat := m.fu.q ++ m.fu.v ++ m.fu.p ++ m.fu.bg ++ m.fu.ba

/-- Average one grid point at rest, or start again; after 64 the engine is initialised (R451). -/
def initPoint (m : Mach) (t : Nat) : Mach :=
  match primaryValue m 0 t, primaryValue m 1 t with
  | some g, some a =>
    if !atRest m g a then { m with fu := { m.fu with still := 0, accSum := [], magSum := [] } }
    else
      let mag := (primary m 2).filter (fun n => (fuEnt m n).st == 0)
      let acc := if m.fu.still = 0 then a else vAdd m.fu.accSum a
      let ms := match mag.bind (fun n => let v := valueAt m n t; if v.2.1 then v.1 else none) with
        | some x => if m.fu.magSum.isEmpty then x ++ [1] else vAdd m.fu.magSum x ++ [el m.fu.magSum 3 + 1]
        | none => m.fu.magSum
      let k := m.fu.still + 1
      if k < 64 then { m with fu := { m.fu with still := k, accSum := acc, magSum := ms } }
      else
        let mean := fun (v : List Nat) (n : Nat) => (v.take 3).map (fun x => dDiv x (dInt n))
        let mg := if (primary m 2).all (fun n => (fuEnt m n).st != 0) then [] else mean ms (el ms 3)
        let q := (List.range 4).map (Config.fuAlign (mean acc 64) mg)
        let fu := { m.fu with q, v := [0, 0, 0], p := [0, 0, 0], bg := [0, 0, 0], ba := [0, 0, 0], kf := Config.kfInit (kfConfig m), still := 0,
                              accSum := [], magSum := [], lastOdo := t, owesReset := true }
        ({ m with fu } : Mach).setFlagOf rFU_STATUS 3 true
  | _, _ => { m with fu := { m.fu with still := 0, accSum := [], magSum := [] } }

/-! ## Tests and states -/

/-- What a filter step has applied so far: the measurements, as the filter's arguments, and CONTRIB; and the entries that disagree with
another of their KIND, as they stood before the tests (R468). -/
structure FuAcc where
  m : Mach
  args : List Nat
  contrib : Nat
  pairs : List Nat

/-- Count a failed test (FU_SNS_FAILS_n). -/
def countFail (m : Mach) (n : Nat) : Mach := m.satFld (rFU_SNS_FAILS n) 0 16 1

/-- A test result moves an entry between states (R456). Answers whether this measurement is applied. -/
def testResult (m : Mach) (n : Nat) (pass : Bool) : Mach × Bool :=
  let e := fuEnt m n
  let nmask := max 1 (m.fldOf (rFU_SNS_COUNTS n) 0 8)
  let nclear := max 1 (m.fldOf (rFU_SNS_COUNTS n) 8 8)
  let clear := fun (m : Mach) => showStates (setFuEnt m n { fuEnt m n with st := 0, fails := 0, passes := 0 })
  let mask := fun (m : Mach) =>
    raiseT (maskEnt m n 2 (some (m.clk.now + m.regN (rFU_SNS_MASK_HOLD n)))) 0x0A02 (fuOwner m) n
  let m := if pass then m else countFail m n
  match e.st, pass with
  | 0, true => (m, true)
  | 0, false =>
    let m := showStates (setFuEnt m n { e with st := 1, fails := 1, passes := 0 })
    (if nmask = 1 then mask m else m, false)
  | 1, true => if nclear ≤ e.passes + 1 then (clear m, true) else (setFuEnt m n { e with passes := e.passes + 1 }, false)
  | 1, false => (if nmask ≤ e.fails + 1 then mask m else setFuEnt m n { e with fails := e.fails + 1, passes := 0 }, false)
  | _, true =>
    if !e.open' ∨ forced m n then (m, false)
    else if nclear ≤ e.passes + 1 then (clear m, true)
    else (setFuEnt m n { e with passes := e.passes + 1 }, false)
  | _, false => (setFuEnt m n { e with passes := 0 }, false)

/-- The innovation gate (R454): the test fails if ν² / s exceeds GATE. -/
def gateFails (m : Mach) (n : Nat) (args : List Nat) : Bool :=
  let (nu, s) := Config.kfInnov m.fu.kf args
  let v := fmtFP32.decode nu
  let r := (fDiv fmtFP32 (fMul fmtFP32 v v).1 (fmtFP32.decode s)).1
  (fmtFP32.decode (m.regN (rFU_SNS_GATE n))).below r

/-- Two entries of one KIND that are not MASKED differ on an axis by more than the GATE of either (R454). -/
def pairFails (m : Mach) (n t : Nat) (x : List Nat) : Bool :=
  ((fuEnts m).filter (fun k => k != n && fuKind m k == fuKind m n && (fuEnt m k).st != 2)).any (fun k =>
    (fuEnt m n).st != 2 &&
    (match (valueAt m k t).1 with
     | some y => (List.range 3).any (fun i =>
         let d := dAbs (dSub (el x i) (el y i))
         dBelow (widen (m.regN (rFU_SNS_GATE n))) d || dBelow (widen (m.regN (rFU_SNS_GATE k))) d)
     | none => false))

/-- A field norm outside 20–70 µT (R454). -/
def fieldFails (x : List Nat) : Bool := dBelow (vNorm x) (dInt 20) || dBelow (dInt 70) (vNorm x)

/-- A measurement is applied (R450, R456): the filter updates, while the engine is initialised. -/
def applyMeas (a : FuAcc) (n : Nat) (args : List Nat) : FuAcc :=
  if initDone a.m then
    let m := { a.m with fu := { a.m.fu with kf := Config.kfUpdate a.m.fu.kf (a.args ++ args) } }
    { a with m, args := a.args ++ args, contrib := a.contrib ||| 2 ^ n }
  else a

/-- The entries that disagree with another of their KIND at a step. -/
def pairList (m : Mach) (t : Nat) : List Nat :=
  (fuEnts m).filter (fun n => decide (fuKind m n ≤ 1) && (valueAt m n t).1.any (pairFails m n t))

/-- A GYRO, ACCEL or MAG entry at a filter step (R446, R450, R454). -/
def stepSampled (t : Nat) (a : FuAcc) (n : Nat) : FuAcc :=
  let m := a.m
  let (x, whole, sat) := valueAt m n t
  match x with
  | none => a
  | some x =>
    if !whole then a
    else
      let kind := fuKind m n
      let win := (fuEnt m n).samples.any (fun s => s.sat && decide (m.fu.lastStep < s.stamp ∧ s.stamp ≤ t))
      let args := [kind, n] ++ x
      let fail := if kind = 2 then fieldFails x || gateFails m n (a.args ++ args) else sat || win || a.pairs.contains n
      let prim := primary m kind == some n
      let (m', applied) := testResult m n (!fail)
      let a := { a with m := m' }
      if kind = 0 then (if prim then { a with contrib := a.contrib ||| 2 ^ n } else a)
      else if kind = 1 then
        let a := if prim then { a with contrib := a.contrib ||| 2 ^ n } else a
        match primaryValue m' 0 t with
        | some g => if applied ∧ atRest m' g x then applyMeas a n args else a
        | none => a
      else if applied then applyMeas a n args else a

/-- The speed of an event-type entry's record (R443); none for the first WHEEL record after an enable or a readmission. -/
def eventSpeed (m : Mach) (n : Nat) (s : FuSample) : Option Nat × Mach :=
  if fuKind m n = 4 then (some (el s.x 0), m)
  else
    let e := fuEnt m n
    let m' := setFuEnt m n { e with prev := some (el s.x 0, s.stamp) }
    match e.prev with
    | none => (none, m')
    | some (p, st) =>
      let dp := signedOf 32 (el s.x 0 + 2 ^ 32 - p)
      (some (dDiv (dMul (widen (m.regN (rFU_SNS_SCALE n))) (dInt dp)) (dDiv (dInt (s.stamp - st : Nat)) (dInt 38400000))), m')

/-- One measurement of a WHEEL or STEP entry (R447, R454). -/
def stepMeas (t n : Nat) (a : FuAcc) (s : FuSample) : FuAcc :=
  let (sp, m) := eventSpeed a.m n s
  let a := { a with m }
  match sp with
  | none => a
  | some v =>
    let args := [fuKind m n, n, v]
    let (m', applied) := testResult m n (!gateFails m n (a.args ++ args))
    let a := { a with m := m' }
    if applied then
      let a := applyMeas a n args
      { a with m := { a.m with fu := { a.m.fu with lastOdo := t, odoSpeed := v } } }
    else a

/-- Records of an event-type entry that the step at `t` takes: stamped in its window, arrived by its deadline (R447). -/
def stepEvents (t : Nat) (a : FuAcc) (n : Nat) : FuAcc :=
  let e := fuEnt a.m n
  let due := e.samples.filter (fun s => decide (s.stamp ≤ t))
  let take' := due.filter (fun s => s.valid && decide (s.arr ≤ t + a.m.regN rFU_LAT))
  let late := (due.filter (fun s => s.valid && decide (t + a.m.regN rFU_LAT < s.arr))).length
  let m := setFuEnt a.m n { e with samples := e.samples.filter (fun s => decide (t < s.stamp)) }
  let m := (List.range late).foldl (fun m _ => countLate m n) m
  take'.foldl (stepMeas t n) { a with m }

/-- The dropout check of an entry (R455, R467): its last valid sample up to the previous step is DROPOUT or more older than the step. A valid
sample in this step's window then opens readmission (R457). -/
def dropCheck (t : Nat) (m : Mach) (n : Nat) : Mach :=
  let e := fuEnt m n
  let deadline := t + m.regN rFU_LAT
  let valid := e.samples.filter (fun s => s.valid && decide (s.arr ≤ deadline))
  let old := (valid.filter (fun s => decide (s.stamp ≤ m.fu.lastStep))).foldl (fun a s => max a s.stamp) e.lastValid
  let newest := (valid.filter (fun s => decide (s.stamp ≤ t))).foldl (fun a s => max a s.stamp) old
  let fresh := valid.any (fun s => decide (m.fu.lastStep < s.stamp ∧ s.stamp ≤ t))
  let m := if !e.silent ∧ m.regN (rFU_SNS_DROPOUT n) ≤ t - old then dropEnt m n else m
  let e := fuEnt m n
  let m := setFuEnt m n { e with lastValid := newest }
  if e.silent ∧ fresh then openEnt (setFuEnt m n { fuEnt m n with silent := false }) n else m

/-- Add the error estimate of the step's updates into the nominal state (R450); position stays frozen at F3. -/
def addErrors (kf0 : Nat) (a : FuAcc) : Mach :=
  let m := a.m
  if a.args.isEmpty then m
  else
    let e := Config.kfError kf0 a.args
    let add32 := fun (w i : Nat) => fmtFP32.encode (fAdd fmtFP32 (fmtFP32.decode w) (fmtFP32.decode (e i))).1
    let fu := { m.fu with q := (List.range 4).map (Config.kfAttitude m.fu.q [e 0, e 1, e 2]),
                          v := vAdd m.fu.v [widen (e 3), widen (e 4), widen (e 5)],
                          p := if fuStep m = 3 then m.fu.p else vAdd m.fu.p [widen (e 6), widen (e 7), widen (e 8)],
                          bg := [add32 (el m.fu.bg 0) 9, add32 (el m.fu.bg 1) 10, add32 (el m.fu.bg 2) 11],
                          ba := [add32 (el m.fu.ba 0) 12, add32 (el m.fu.ba 1) 13, add32 (el m.fu.ba 2) 14] }
    { m with fu }

/-! ## Degrade steps -/

/-- Entries of a KIND that are OK. -/
def someOk (m : Mach) (kinds : List Nat) : Bool := (fuEnts m).any (fun n => kinds.contains (fuKind m n) && (fuEnt m n).st == 0)

/-- Every entry of a KIND is MASKED. -/
def allMasked (m : Mach) (kind : Nat) : Bool := (fuEnts m).all (fun n => fuKind m n != kind || (fuEnt m n).st == 2)

/-- A standard deviation of the filter exceeds the bound in a register. -/
def sdAbove (m : Mach) (i reg : Nat) : Bool := (fmtFP32.decode (m.regN reg)).below (fmtFP32.decode (Config.kfSd m.fu.kf i))

/-- Every state element is finite (R460). -/
def stateFinite (m : Mach) : Bool :=
  (m.fu.q ++ m.fu.v ++ m.fu.p).all dFinite && (m.fu.bg ++ m.fu.ba).all (fun w => dFinite (widen w)) && Config.kfFinite m.fu.kf

/-- The condition step (R460). -/
def condStep (m : Mach) (t : Nat) : Nat :=
  let odo := someOk m [3, 4]
  if !initDone m ∨ allMasked m 0 ∨ sdAbove m 0 rFU_ATT_SD_MAX ∨ !stateFinite m then 4
  else if allMasked m 1 ∨ (!odo ∧ m.regN rFU_COAST_MAX < t - m.fu.lastOdo) ∨ sdAbove m 2 rFU_POS_SD_MAX then 3
  else if !odo then 2
  else if !someOk m [2] then 1
  else 0

/-- The reported step rises (R461, R462): F3 raises FU_DEGRADED, F4 FU_INVALID. -/
def riseStep (m : Mach) (s : Nat) : Mach :=
  let m := { m.setFldOf rFU_STATUS 0 3 s with fu := { m.fu with hold := 0 } }
  if s = 4 then raiseT m 0x0A05 (fuOwner m) 0 else if s = 3 then raiseT m 0x0A04 (fuOwner m) 0 else m

/-- The reported step falls (R461, R462): from F3 velocity is set from the latest odometry speed. -/
def fallStep (m : Mach) (s : Nat) : Mach :=
  let was := fuStep m
  let m := { m.setFldOf rFU_STATUS 0 3 s with fu := { m.fu with hold := 0 } }
  if was = 3 then
    let v := rotate m.fu.q [m.fu.odoSpeed, 0, 0]
    { m with fu := { m.fu with v, kf := Config.kfResetVel m.fu.kf, owesReset := true } }
  else m

/-- Step evaluation (R460–R462, R470): a condition F4 of an initialised engine asks for a new initialisation. -/
def evalStep (m : Mach) (t : Nat) : Mach :=
  let c := condStep m t
  let r := fuStep m
  let m := if c = 4 ∧ initDone m then ({ m with fu := { m.fu with still := 0, accSum := [], magSum := [] } } : Mach).setFlagOf rFU_STATUS 3 false else m
  let m :=
    if r < c then riseStep m c
    else if c < r then
      let h := m.fu.hold + 1
      if max 1 (m.fldOf rFU_STEP_HOLD 0 16) ≤ h then fallStep m c else { m with fu := { m.fu with hold := h } }
    else { m with fu := { m.fu with hold := 0 } }
  let m := (m.setFlagOf rFU_STATUS 4 (!someOk m [2])).setFlagOf rFU_STATUS 5 (!someOk m [3, 4])
  m.setFlagOf rFU_STATUS 6 (initDone m && !someOk m [3, 4] && fuStep m == 2)

/-- Confidence of quantity q: 0 ATT, 1 HDG, 2 VEL, 3 POS (R459). -/
def confidence (m : Mach) (q : Nat) : Nat :=
  let w := fun n => if q < 2 then m.fldOf (rFU_SNS_WEIGHT_LO n) (16 * q) 16 else m.fldOf (rFU_SNS_WEIGHT_HI n) (16 * (q - 2)) 16
  let loss := (fuEnts m).foldl (fun a n =>
    let s := (fuEnt m n).st
    a + (if s = 2 then w n else if s = 1 then w n / 2 else 0)) 0
  if fuStep m = 4 ∨ (fuStep m = 3 ∧ 2 ≤ q) then 0 else 65535 - loss

/-! ## Output -/

/-- Device time was coarse at a time (R404, R448). -/
def coarseAt (m : Mach) (t : Nat) : Bool :=
  (m.clk.refStopped && decide (m.clk.stopAt ≤ t)) || m.clk.coarsePast.any (fun i => decide (i.1 ≤ t ∧ t < i.2))

/-- FP32 words of a vector. -/
def f32s (v : List Nat) : List Byte := v.flatMap (fun d => leBytes 4 (narrow d))

/-- The output record of the filter step at `t` (R463). -/
def outRecord (m : Mach) (t contrib : Nat) : List Byte :=
  let st := fuStep m
  let inv := st == 4
  let flags := b2n (coarseAt m t) + 2 * b2n m.fu.late + 4 * b2n m.fu.owesReset + 8 * b2n inv
  let head := leBytes 4 (seqOf m.fu.count) ++ leBytes 8 t ++ leBytes 1 0xFF ++ leBytes 1 flags ++ leBytes 2 96 ++ leBytes 1 st ++ leBytes 1 0 ++
    leBytes 2 contrib ++ leBytes 4 (fuStates m) ++ leBytes 8 0
  if inv then slice head 0 128
  else
    let q := if dBelow (el m.fu.q 0) 0 then m.fu.q.map dNeg else m.fu.q
    let sub := fun (x : Option (List Nat)) (b : List Nat) => match x with | some v => vSub v (b.map widen) | none => [0, 0, 0]
    let body := f32s q ++ (if st = 3 then List.replicate 12 0 else f32s m.fu.v) ++ m.fu.p.flatMap (leBytes 8) ++
      f32s (sub (primaryValue m 0 t) m.fu.bg) ++ f32s (sub (primaryValue m 1 t) m.fu.ba) ++
      (List.range 4).flatMap (fun i => leBytes 2 (confidence m i)) ++ leBytes 4 (Config.kfSd m.fu.kf 1) ++ leBytes 4 (Config.kfSd m.fu.kf 2)
    slice (head ++ body) 0 128

/-- Write the output record (R463). -/
def writeOut (m : Mach) (t contrib : Nat) : Mach :=
  let bytes := outRecord m t contrib
  let w := m.reg rFU_OUT_RING
  let off := m.fu.count % (m.fldOf rFU_OUT_RECORDS 0 16 + 1) * 128
  let m := { m with fu := { m.fu with count := m.fu.count + 1, owesReset := false, late := false } }
  placeRecord m 255 (fuOwner m) (fld w 31 1) (fld w 0 31) m.fu.ringGen off bytes

/-- A filter step in the order of R452. -/
def filterStep (m : Mach) (t : Nat) : Mach :=
  let m := (fuEnts m).foldl (dropCheck t) m
  let m := if initDone m then strapdown m t else initPoint m t
  let m := if initDone m then { m with fu := { m.fu with kf := Config.kfPredict m.fu.kf (kfConfig m ++ kfNominal m) } } else m
  let kf0 := m.fu.kf
  let a := (fuEnts m).foldl (fun a n => if fuSampled a.m n then stepSampled t a n else stepEvents t a n) ({ m, args := [], contrib := 0, pairs := pairList m t } : FuAcc)
  evalStep (addErrors kf0 a) t |> fun m' =>
    let j := m.fu.nextK / max 1 (m.fldOf rFU_FILT 0 7)
    let m' := if j % max 1 (m.fldOf rFU_FILT 8 8) = 0 then writeOut m' t a.contrib else m'
    { m' with fu := { m'.fu with lastStep := t } }

/-- Samples that no later grid point needs go: all before the last valid one at or before the point. -/
def pruneSamples (t : Nat) (e : FuEnt) : FuEnt :=
  match ((e.samples.filter (fun s => s.valid && decide (s.stamp ≤ t))).getLast?) with
  | some s => { e with samples := e.samples.filter (fun x => decide (s.stamp ≤ x.stamp)) }
  | none => e

/-- Readmission of consistency-masked entries opens once MASK_HOLD is over (R457). -/
def openHolds (m : Mach) : Mach :=
  (List.range 16).foldl (fun m n => if (fuEnt m n).openAt.any (· ≤ m.clk.now) then openEnt m n else m) m

/-- The engine processes its next grid point, at its deadline (R445). -/
def gridPoint (m : Mach) : Mach :=
  if !fuRuns m then m
  else
    let k := m.fu.nextK
    let t := gridTime m k
    let m := openHolds (advanceTo m (t + m.regN rFU_LAT))
    let m := countLates m t
    let m := if k % max 1 (m.fldOf rFU_FILT 0 7) = 0 then filterStep m t else if initDone m then strapdown m t else initPoint m t
    { m with fu := { m.fu with nextK := k + 1, ents := m.fu.ents.map (pruneSamples t) } }

/-! ## Enabling -/

/-- The engine starts: sensor states at OK with every count zero, a new initialisation, the first grid point at or after now (R451, R464). -/
def startFusion (m : Mach) : Mach :=
  let p := max 1 (m.regN rFU_GRID_PERIOD)
  let k := ceilDiv (m.clk.now - m.regN rFU_GRID_PHASE) p
  let ent := fun n => if forced m n then { FuEnt.init m.clk.now with st := 2, open' := false } else FuEnt.init m.clk.now
  let fu := { m.fu with ents := (List.range 16).map ent, q := [dInt 1, 0, 0, 0], v := [0, 0, 0], p := [0, 0, 0], bg := [0, 0, 0], ba := [0, 0, 0],
                        kf := 0, still := 0, accSum := [], magSum := [], nextK := k, lastStep := m.clk.now - 1, hold := 0, lastOdo := m.clk.now,
                        odoSpeed := 0, owesReset := false, late := false }
  let m := (List.range 16).foldl (fun m n => m.setRegN (rFU_SNS_FAILS n) 0) { m with fu }
  showStates ((m.setFldOf rFU_STATUS 0 3 4).setFldOf rFU_STATUS 3 4 0)

/-- FUS returns to on (R451, R464, R473): a new initialisation, at step F4. -/
def restartFusion (m : Mach) : Mach :=
  if !m.flagOf rFU_CTRL 0 then m
  else
    let was := fuStep m
    let m := startFusion m
    if was < 4 then raiseT m 0x0A05 (fuOwner m) 0 else m

/-- Stream kinds that an entry KIND accepts (R441). -/
def kindAccepts (kind skind : Nat) : Bool :=
  match kind with
  | 0 => skind == 3 || skind == 6
  | 1 => skind == 3 || skind == 6
  | 2 => skind == 3 || skind == 6
  | 3 => skind == 4
  | 4 => skind == 5 || skind == 6
  | _ => false

/-- Payload bytes that an entry's decode reaches (R443). -/
def decodeReach (m : Mach) (n : Nat) : Nat :=
  let w := m.reg (rFU_SNS_DECODE n)
  match fuKind m n with
  | 3 => 20
  | 4 => fld w 0 8 + 4
  | _ => fld w 0 8 + (max 2 (max (fld w 12 2) (max (fld w 14 2) (fld w 16 2))) + 1) * typeBytes (fld w 8 2)

/-- The configuration passes the validation of R465. -/
def fusionOk (m : Mach) : Bool :=
  let es := fuEnts m
  let count := fun k => (es.filter (fun n => fuKind m n == k)).length
  let w := m.reg rFU_OUT_RING
  es.all (fun n => kindAccepts (fuKind m n) (strKind m (fuStream m n)) && strOwner m (fuStream m n) == fuOwner m &&
    decide (decodeReach m n + 32 ≤ strSize m (fuStream m n)) && !(fuSampled m n && fld (m.reg (rFU_SNS_DECODE n)) 8 2 == 3)) &&
  decide (1 ≤ count 0 ∧ count 0 ≤ 2 ∧ count 1 ≤ 2) && decide (1 ≤ m.fldOf rFU_FILT 0 7 ∧ m.fldOf rFU_FILT 0 7 ≤ 64 ∧ 1 ≤ m.fldOf rFU_FILT 8 8) &&
  ringOk m (fuOwner m) (fld w 31 1) (fld w 0 31) ((m.fldOf rFU_OUT_RECORDS 0 16 + 1) * 128)

/-- A write of FU_CTRL (R465). -/
def writeFuCtrl (m : Mach) (v : Word) : Mach :=
  let en := flag v 0
  if en = m.flagOf rFU_CTRL 0 then m
  else if en then
    if !fusionOk m then raiseT m 0x0A03 (fuOwner m) 0
    else
      let w := m.reg rFU_OUT_RING
      let m := m.setFlagOf rFU_CTRL 0 true
      let m := { m with fu := { m.fu with count := 0, ringGen := ringGen m (fld w 31 1) (fld w 0 31) } }
      startFusion (m.setRegN rFU_OUT_SEQ 0)
  else
    let m := m.setFlagOf rFU_CTRL 0 false
    showStates ((m.setFldOf rFU_STATUS 0 3 4).setFldOf rFU_STATUS 3 4 0)

/-- A write of FU_SNS_CTRL_n (R457, R469): FORCE_MASK masks an entry and keeps readmission closed; clearing it opens readmission at once. -/
def writeFuSnsCtrl (m : Mach) (n : Nat) (v : Word) : Mach :=
  let was := forced m n
  let m := m.setFlagOf (rFU_SNS_CTRL n) 0 (flag v 0)
  if !m.flagOf rFU_CTRL 0 ∨ !fuOn m n ∨ was = flag v 0 then m
  else if flag v 0 then maskEnt m n 3 none
  else openEnt m n

/-- GRID_POINT (R445). -/
def execGridPoint (s : State) : Host.Outcome State Fault Refusal := s.effect gridPoint

/-- MASK_HOLD_EXPIRY (R457): MASK_HOLD after a consistency mask of entry `n`. -/
def execMaskHoldExpiry (n : Fin 16) (s : State) : Host.Outcome State Fault Refusal :=
  s.effect (fun m =>
    match (fuEnt m n.val).openAt with
    | some d => if fuRuns m then openEnt (advanceTo m d) n.val else m
    | none => m)

end Sys2Proof.Machine
end

