-- ==== Sys2Proof/Machine/Sensor.lean ====
section
/-!
DEFINITION. Stream contexts (R403–R409), the camera receivers (R410–R417), the I3C and SPI controllers and the capture sequences (R418–R425), and
the wheel inputs (R426–R428).
-/
namespace Sys2Proof.Machine

/-! ## Records of streams -/

/-- A context's pending source takes effect at its sample boundary (R409). -/
def takeBind (m : Mach) (n : Nat) : Mach :=
  let c := sctx m n
  match c.bind with
  | none => m
  | some s =>
    let m := setSctx (m.setFldOf (rSN_STREAM_CFG n) 24 8 s) n { c with bind := none }
    if strKind m n = 2 ∧ s < 8 then m.setFldOf (rCM_VC_CFG s) 8 6 n else m

/-- A context of kind 2–6 writes a record (R407, R408, R442, R638); a context that was closed meanwhile writes none. -/
def produce (m : Mach) (n kind stamp flags len source : Nat) (extra payload : List Byte) : Mach :=
  if strKind m n ≠ kind then m
  else
    let c := sctx m n
    let size := strSize m n
    let bytes := slice (recHeader (seqOf c.count) stamp n (flags + 2 * b2n c.overrun) len source extra ++ payload) 0 size
    let off := c.count % (m.fldOf (rSN_STREAM_RECORDS n) 0 16 + 1) * size
    let m := setSctx m n { c with count := c.count + 1, overrun := false }
    let m := fuArrive m n bytes
    let m := forwardPeers m n (strOwner m n) 4 13 1 bytes
    placeRecord m n (strOwner m n) (strLoc m n) (m.regN (rSN_STREAM_RING n)) c.gen off bytes

/-- COARSE of a stamp taken now (R404). -/
def coarseFlag (m : Mach) : Nat := b2n (coarse m)

/-- The wait code of a command that waits for a stream's records to reach their ring. -/
abbrev waitRing : Nat := 4

/-- Commands that wait for a stream's records, once none is on its way. -/
def ringDone (m : Mach) (n : Nat) : Mach :=
  if m.sn.ring.any (fun r => r.stream == n && !r.mirror) then m
  else (m.hs.cmds.filter (fun c => c.wait == waitRing && c.objs.contains (objKey 7 n))).foldl (fun m c => setCmd m c.q c.cid 0 c.cpl) m

/-- The oldest record of a stream on its way to a DRAM ring is written, or dropped where CRANE or DMC is not on or its time is over (R408). -/
def ringWrite (m : Mach) (n : Nat) (mirror : Bool) (miss : Mach → Mach) : Mach :=
  match m.sn.ring.find? (fun r => r.stream == n && r.mirror == mirror) with
  | none => m
  | some r =>
    let m := { m with sn := { m.sn with ring := m.sn.ring.erase r } }
    let ok := isOn m 13 && isOn m 15 && decide (m.clk.now ≤ r.due) && (findGen m r.h r.gen).any (fun a => decide (r.off + r.bytes.length ≤ a.size))
    let m :=
      if ok then
        let m := storeAlloc m r.h r.gen r.off r.bytes
        if mirror then m else seqWritten m n (byteFld r.bytes 0 4)
      else miss (advanceTo m r.due)
    ringDone m n

/-- RING_RECORD_WRITE (R408, R463): of a stream context, or of the fusion output for 255. -/
def execRingRecordWrite (n : Nat) (s : State) : Host.Outcome State Fault Refusal :=
  s.effect (fun m => ringWrite m n false (fun m => missRecord m n))

/-! ## Stream commands -/

/-- A source index that a kind has (R406). -/
def sourceOk (kind src : Nat) : Bool :=
  match kind with
  | 1 => decide (src < 8)
  | 2 => decide (src < 8)
  | 3 => decide (src < 16)
  | 4 => decide (src < 4)
  | 5 => decide (src < 48)
  | 6 => decide (src < 256)
  | _ => false

/-- The lowest free context: one of KIND 0 whose last records have reached their ring (R406). -/
def freeCtx (m : Mach) : Option Nat :=
  (List.range 48).find? (fun n => strKind m n == 0 && !m.sn.ring.any (fun r => r.stream == n))

/-- Take a context (R406): its registers, counters and bindings start afresh. -/
def takeCtx (m : Mach) (n kind owner loc size src ring records : Nat) : Mach :=
  let m := m.setRegN (rSN_STREAM_CFG n) (kind + 2 ^ 8 * owner + 2 ^ 16 * loc + 2 ^ 17 * size + 2 ^ 24 * src)
  let m := (m.setRegN (rSN_STREAM_RING n) ring).setRegN (rSN_STREAM_RECORDS n) records
  let m := ((m.setRegN (rSN_STREAM_SEQ n) 0).setRegN (rSN_STREAM_OVR n) 0).setRegN (rSN_STREAM_MISSED n) 0
  setSctx (m.setRegN (rSN_BIND_NEXT n) 0) n { SCtx.init with gen := ringGen m loc ring }

/-- Release a context. -/
def freeStream (m : Mach) (n : Nat) : Mach := setSctx (m.setRegN (rSN_STREAM_CFG n) 0) n SCtx.init

/-- STREAM_OPEN (R406, R407, R561). -/
def execStreamOpen (cmd : CmdCtx) (kind src size : Nat) (dram : Bool) (ring records : Nat) (s : State) : Host.Outcome State Fault Refusal :=
  s.effect (fun m => beginCmd m cmd 0x38 0x0F02 noWait (fun m =>
    let t := cmd.q.val
    let loc := b2n dram
    if kind < 2 ∨ 6 < kind ∨ 3 ≤ size ∨ !sourceOk kind src ∨ 65536 ≤ records ∨ ((kind = 2 ∨ kind = 5) ∧ !dram) then refuse m t cmd.cid 0x38 0x0F02 0
    else if !streamGranted m t kind src then refuse m t cmd.cid 0x38 0x0D01 0
    else if !ringOk m t loc ring ((records + 1) * (64 * 2 ^ size)) then refuse m t cmd.cid 0x38 0x0F02 0
    else match freeCtx m with
      | none => refuse m t cmd.cid 0x38 0x0905 0
      | some n =>
        let m := takeCtx m n kind t loc size src ring records
        let m := if kind = 2 then m.setFldOf (rCM_VC_CFG src) 8 6 n else m
        complete m t cmd.cid 0x38 0 n 0))

/-- STREAM_CLOSE (R406): it completes once the last record is in its ring. -/
def execStreamClose (cmd : CmdCtx) (n : Nat) (s : State) : Host.Outcome State Fault Refusal :=
  s.effect (fun m => beginCmd m cmd 0x39 0x0F02 (naming (objKey 7 n)) (fun m =>
    let t := cmd.q.val
    if strKind m n < 2 ∨ strOwner m n ≠ t then refuse m t cmd.cid 0x39 0x0F02 0
    else
      let busy := m.sn.ring.any (fun r => r.stream == n)
      let m := freeStream m n
      if busy then running m t cmd.cid 0x39 waitRing (some ⟨t, cmd.cid, 0x39, 0, 0, 0, 0⟩) [objKey 7 n] 0 0
      else complete m t cmd.cid 0x39 0 0 0))

/-- STREAM_INJECT (R405, R406). -/
def execStreamInject (cmd : CmdCtx) (n stamp : Nat) (r : BufRef) (s : State) : Host.Outcome State Fault Refusal :=
  s.effect (fun m => beginCmd m cmd 0x3A 0x0F02 noWait (fun m =>
    let t := cmd.q.val
    if strKind m n ≠ 6 ∨ strOwner m n ≠ t ∨ strSize m n < 32 + refLen r then refuse m t cmd.cid 0x3A 0x0F02 0
    else withRef m cmd 0x3A r false (fun bs =>
      let seq := seqOf (sctx m n).count
      let m := produce m n 6 stamp 0 bs.length (strSource m n) [] bs
      if strLoc m n = 1 then running m t cmd.cid 0x3A waitRing (some ⟨t, cmd.cid, 0x3A, 0, seq, 0, 0⟩) [objKey 7 n] 0 0
      else complete m t cmd.cid 0x3A 0 seq 0)))

/-- A write of SN_BIND_COMMIT_n (R409): the source in SN_BIND_NEXT_n takes effect at the next sample boundary; between records, at once. -/
def writeBindCommit (m : Mach) (ctx n : Nat) (v : Word) : Mach :=
  let src := m.fldOf (rSN_BIND_NEXT n) 0 8
  let kind := strKind m n
  if !flag v 0 ∨ kind = 0 ∨ !sourceOk kind src then m
  else if !streamGranted m ctx kind src then raiseT m 0x0D01 ctx n
  else
    let m := setSctx m n { sctx m n with bind := some src }
    if kind = 5 ∨ kind = 6 then takeBind m n else m

/-! ## The camera -/

/-- A VC context, and the machine with it set. -/
def vctx (m : Mach) (v : Nat) : VCtx := tabGet m.sn.vc v VCtx.init
def setVctx (m : Mach) (v : Nat) (c : VCtx) : Mach := { m with sn := { m.sn with vc := tabSet m.sn.vc v c VCtx.init } }

/-- The CAMERA stream context that a VC context is bound to (R406). -/
def vcStream (m : Mach) (v : Nat) : Option Nat :=
  let n := m.fldOf (rCM_VC_CFG v) 8 6
  if strKind m n = 2 ∧ strSource m n = v then some n else none

/-- A receiver takes what its lanes bring: its domain is on and it is enabled (R410). -/
def rxRuns (m : Mach) (r : Nat) : Bool := isOn m (22 + r) && m.flagOf (rCM_RX_CFG r) 0

/-- A frame closes (R413): it owes its record. -/
def closeFrame (m : Mach) (v flags : Nat) : Mach :=
  let c := vctx m v
  match c.frame with
  | none => m
  | some f =>
    let f := { f with feStamp := m.clk.now, flags := f.flags ||| flags ||| coarseFlag m }
    (setVctx m v { c with frame := none, closed := c.closed ++ [f] }).setFlagOf (rCM_VC_STATE v) 1 false

/-- A pending commit is transferred at a Frame Start (R415, R417); `late` says that the receiver leaves one that became visible from F − 3 to
F to the next Frame Start, which it may only for a commit of these cycles: at most 12 reference cycles old. -/
def transferCommit (m : Mach) (v : Nat) (late : Bool) (count : Nat) : Mach :=
  let c := vctx m v
  match c.pend with
  | none => m
  | some (a, g, o) =>
    if late ∧ m.clk.now ≤ c.pendAt + 12 then m
    else
      let m := setVctx m v { c with alloc := a, gen := g, off := o, pend := none }
      (m.setFlagOf (rCM_VC_STATE v) 0 false).setRegN (rCM_STATUS v) count

/-- A Frame Start short packet (R412, R413, R415). -/
def frameStart (m : Mach) (v csi : Nat) (late : Bool) : Mach :=
  if !rxRuns m (v / 4) ∨ !m.flagOf (rCM_VC_CFG v) 0 then m
  else
    let m :=
      if (vctx m v).frame.isSome then
        let owner := ((vcStream m v).map (strOwner m)).getD 0
        raiseT (closeFrame m v 16) 0x0902 owner v
      else m
    match vcStream m v with
    | none => m
    | some n =>
      let m := takeBind m n
      if vcStream m v ≠ some n then m
      else
        let count := (m.regN (rCM_FRAME_COUNT v) + 1) % 2 ^ 32
        let m := transferCommit (m.setRegN (rCM_FRAME_COUNT v) count) v late count
        let c := vctx m v
        let lp := m.reg (rCM_LINE_PITCH v)
        let f : Frame := { stream := n, count, csi := csi % 65536, stamp := m.clk.now, feStamp := 0, alloc := c.alloc, gen := c.gen, off := c.off,
                           pitch := fld lp 0 15, maxLines := fld lp 16 13, seen := 0, lines := 0, byteCount := 0, bad := 0, flags := coarseFlag m,
                           phyRaised := false, ovfRaised := false }
        (setVctx m v { c with frame := some f }).setFlagOf (rCM_VC_STATE v) 1 true

/-- FRAME_START (R412). -/
def execFrameStart (v : Fin 8) (csi : Nat) (late : Bool) (s : State) : Host.Outcome State Fault Refusal :=
  s.effect (fun m => frameStart m v.val csi late)

/-- FRAME_END (R413). -/
def execFrameEnd (v : Fin 8) (s : State) : Host.Outcome State Fault Refusal :=
  s.effect (fun m => if rxRuns m (v.val / 4) ∧ m.flagOf (rCM_VC_CFG v.val) 0 then closeFrame m v.val 0 else m)

/-- Unpack RAW10 (0x2B): four pixels in five bytes, the fifth holding their low bits. -/
def unpack10 : Nat → List Byte → List Byte
  | 0, _ => []
  | fuel + 1, bs =>
    if bs.length < 5 then []
    else (List.range 4).flatMap (fun i => leBytes 2 (byteFld bs i 1 * 4 + bits (byteFld bs 4 1) (2 * i) 2)) ++ unpack10 fuel (bs.drop 5)

/-- Unpack RAW12 (0x2C): two pixels in three bytes. -/
def unpack12 : Nat → List Byte → List Byte
  | 0, _ => []
  | fuel + 1, bs =>
    if bs.length < 3 then []
    else (List.range 2).flatMap (fun i => leBytes 2 (byteFld bs i 1 * 16 + bits (byteFld bs 2 1) (4 * i) 4)) ++ unpack12 fuel (bs.drop 3)

/-- A line as it is stored (R411). -/
def storedLine (m : Mach) (v dt : Nat) (bs : List Byte) : List Byte :=
  if !m.flagOf (rCM_VC_CFG v) 1 then bs
  else if dt = 0x2B then unpack10 (bs.length + 1) bs
  else if dt = 0x2C then unpack12 (bs.length + 1) bs
  else bs

/-- Long-packet data types of R410. -/
def knownDt (dt : Nat) : Bool := [0x2A, 0x2B, 0x2C, 0x1E, 0x24].contains dt || decide (0x30 ≤ dt ∧ dt ≤ 0x37)

/-- The frame being received, changed. -/
def modFrame (m : Mach) (v : Nat) (f : Frame → Frame) : Mach := setVctx m v { vctx m v with frame := (vctx m v).frame.map f }

/-- CM_PHY_ERR, once a frame (R412). -/
def phyError (m : Mach) (v : Nat) : Mach :=
  let owner := ((vcStream m v).map (strOwner m)).getD 0
  match (vctx m v).frame with
  | some f => if f.phyRaised then m else raiseT (modFrame m v (fun f => { f with phyRaised := true })) 0x0904 owner v
  | none => raiseT m 0x0904 owner v

/-- A line of the frame under way (R412). -/
def frameLine (m : Mach) (v dt : Nat) (bs : List Byte) (crcBad lost : Bool) : Mach :=
  match (vctx m v).frame with
  | none => m
  | some f =>
    let m := if crcBad then m.satFld (rCM_RX_ERR (v / 4)) 16 8 1 else m
    let i := f.seen
    let m := modFrame m v (fun f => { f with seen := f.seen + 1 })
    if f.maxLines ≤ i then modFrame m v (fun f => { f with flags := f.flags ||| 16 })
    else if lost ∨ !isOn m 13 ∨ !isOn m 15 ∨ (findGen m f.alloc f.gen).isNone then
      let m := modFrame m v (fun f => { f with flags := f.flags ||| 32, ovfRaised := true })
      if f.ovfRaised then m else raiseT m 0x0903 (strOwner m f.stream) v
    else
      let line := storedLine m v dt bs
      let cut := line.take f.pitch
      let m := storeAlloc m f.alloc f.gen (f.off + i * f.pitch) cut
      modFrame m v (fun g => { g with lines := g.lines + 1, byteCount := g.byteCount + cut.length, bad := g.bad + b2n crcBad,
                                      flags := g.flags ||| (if f.pitch < line.length then 16 else 0) ||| (if crcBad then 8 else 0) })

/-- A long packet (R411, R412); `lost` says that the receiver's line buffer is full. -/
def longPacket (m : Mach) (v dt : Nat) (bs : List Byte) (ecc : Ecc) (crcBad lost : Bool) : Mach :=
  if !rxRuns m (v / 4) then m
  else if ecc = .double then phyError (m.satFld (rCM_RX_ERR (v / 4)) 8 8 1) v
  else
    let m := if knownDt dt then m else m.satFld (rCM_RX_ERR (v / 4)) 24 8 1
    if !m.flagOf (rCM_VC_CFG v) 0 then m
    else if m.fldOf (rCM_VC_CFG v) 2 6 ≠ dt ∨ !knownDt dt then m.setRegN (rCM_DT_DROP v) (m.regN (rCM_DT_DROP v) + 1)
    else frameLine m v dt bs crcBad lost

/-- LONG_PACKET (R411). -/
def execLongPacket (v : Fin 8) (dt : Nat) (bs : List Byte) (ecc : Ecc) (crcBad lost : Bool) (s : State) : Host.Outcome State Fault Refusal :=
  s.effect (fun m => longPacket m v.val dt bs ecc crcBad lost)

/-- FRAME_RECORD (R413): the oldest closed frame of a VC context writes its record. -/
def execFrameRecord (v : Fin 8) (s : State) : Host.Outcome State Fault Refusal :=
  s.effect (fun m =>
    let c := vctx m v.val
    match c.closed with
    | [] => m
    | f :: fs =>
      let m := setVctx m v.val { c with closed := fs }
      let extra := leBytes 4 f.count ++ leBytes 2 f.csi ++ leBytes 2 f.lines ++ leBytes 4 0
      let payload := leBytes 8 f.feStamp ++ leBytes 4 f.byteCount ++ leBytes 4 f.alloc ++ leBytes 4 f.off ++ leBytes 2 f.bad
      produce m f.stream 2 f.stamp f.flags 22 v.val extra payload)

/-- A write of CM_COMMIT_v (R414, R417). -/
def writeCmCommit (m : Mach) (v : Nat) (w : Word) : Mach :=
  if !flag w 0 then m
  else
    let owner := ((vcStream m v).map (strOwner m)).getD 0
    let h := m.regN (rCM_FRAME_ALLOC v)
    let o := m.regN (rCM_FRAME_BASE v)
    let lp := m.reg (rCM_LINE_PITCH v)
    match (ownAlloc m owner h).filter (fun a => (vcStream m v).isSome && a.flags == 1 && o % 64 == 0 && decide (o + fld lp 16 13 * fld lp 0 15 ≤ a.size)) with
    | none => raiseT (m.setFlagOf (rCM_VC_STATE v) 2 true) 0x0901 owner v
    | some a =>
      let c := vctx m v
      let m := if c.pend.isSome then m.setRegN (rCM_COMMIT_LOST v) (m.regN (rCM_COMMIT_LOST v) + 1) else m
      let m := setVctx m v { c with pend := some (h, a.gen, o), pendAt := m.clk.now }
      (m.setFlagOf (rCM_VC_STATE v) 2 false).setFlagOf (rCM_VC_STATE v) 0 true

/-- A write of CM_VC_CFG_v (R429, R430): EN requires a CAMERA stream and clears the frame count; while it is set, only EN takes writes. -/
def writeVcCfg (m : Mach) (v : Nat) (w : Word) : Mach :=
  let was := m.flagOf (rCM_VC_CFG v) 0
  let m := if was then m else m.setFldOf (rCM_VC_CFG v) 1 7 (fld w 1 7)
  if flag w 0 = was then m
  else if flag w 0 then
    if (vcStream m v).isNone then m else (m.setFlagOf (rCM_VC_CFG v) 0 true).setRegN (rCM_FRAME_COUNT v) 0
  else
    let m := setVctx (m.setFlagOf (rCM_VC_CFG v) 0 false) v { vctx m v with frame := none }
    m.setFlagOf (rCM_VC_STATE v) 1 false

/-- A write of a configuration register whose EN is its bit 0: while it is enabled, only EN takes writes (R430). -/
def writeEnCfg (m : Mach) (a : Nat) (w : Word) : Mach :=
  if m.flagOf a 0 then m.setFlagOf a 0 (flag w 0) else m.setReg a w

/-- CM_RX_STATUS_r from the states of the lanes in use. -/
def rxStatus (m : Mach) (r : Nat) : Mach :=
  let ls := (List.range (m.fldOf (rCM_RX_CFG r) 1 1 + 1)).map (fun l => tabGet m.sn.lanes (2 * r + l) 0)
  m.setFldOf (rCM_RX_STATUS r) 0 3 (b2n (ls.all (· == 0)) + 2 * b2n (ls.any (· == 1)) + 4 * b2n (ls.any (· == 2)))

/-- DPHY_LANE_STATE_CHANGE (R410): a start-of-transmission error is counted and raises CM_PHY_ERR. -/
def execDphyLaneStateChange (r l : Fin 2) (e : LaneEv) (s : State) : Host.Outcome State Fault Refusal :=
  s.effect (fun m =>
    if !rxRuns m r.val then m
    else
      let st := match e with | .stop => 0 | .ulps => 1 | _ => 2
      let m := rxStatus { m with sn := { m.sn with lanes := tabSet m.sn.lanes (2 * r.val + l.val) st 0 } } r.val
      if e = .hsSotError then raiseD (m.satFld (rCM_RX_ERR r.val) 0 8 1) 0x0904 r.val else m)

/-! ## Controllers -/

/-- A write of SN_I3C_CFG_k (R419): enabling runs RSTDAA, SETDASA and ENTDAA. `found` lists the table entries whose targets answered, in
ascending order of provisioned ID; which address each gets is the controller's choice, a free value (log 1). None answers while the pads have no supply. -/
def writeI3cCfg (m : Mach) (k : Nat) (found : List (Fin 11)) (w : Word) : Mach :=
  let was := m.flagOf (rSN_I3C_CFG k) 0
  let m := writeEnCfg m (rSN_I3C_CFG k) w
  if was ∨ !flag w 0 ∨ flag w 1 then m
  else
    let m := (List.range 11).foldl (fun m i => m.setFldOf (rSN_I3C_DEV k i) 8 7 0) m
    (if m.pd.vioA then found else []).foldl (fun m i =>
      if m.flagOf (rSN_I3C_DEV k i.val) 16 then m
      else
        let (x, m) := m.draw
        m.setFldOf (rSN_I3C_DEV k i.val) 8 7 (Config.freeValue x)) m

/-- A request that a controller NACKs (R418, R419). -/
def nackIbi (m : Mach) (k : Nat) : Mach := raiseD (m.emit (.pin "I3C_NACK" k)) 0x0908 k

/-! ## Capture sequences -/

/-- A sequence, and the machine with it set. -/
def seqSt (m : Mach) (n : Nat) : SeqSt := tabGet m.sn.seqs n SeqSt.init
def setSeqSt (m : Mach) (n : Nat) (c : SeqSt) : Mach := { m with sn := { m.sn with seqs := tabSet m.sn.seqs n c SeqSt.init } }

/-- Fields of SN_SEQ_CFG_n (R430). -/
def seqCtrl (m : Mach) (n : Nat) : Nat := m.fldOf (rSN_SEQ_CFG n) 0 2
def seqTrigger (m : Mach) (n : Nat) : Nat := m.fldOf (rSN_SEQ_CFG n) 2 2
def seqPolicy (m : Mach) (n : Nat) : Nat := m.fldOf (rSN_SEQ_CFG n) 4 2
def seqStream (m : Mach) (n : Nat) : Nat := m.fldOf (rSN_SEQ_CFG n) 8 6
def seqArmed (m : Mach) (n : Nat) : Bool := m.flagOf (rSN_SEQ_CFG n) 16

/-- Step i of a sequence (R421); past the last it reads as END. -/
def seqStep (m : Mach) (n i : Nat) : Nat := if i < 16 then m.reg64 (rSN_SEQ_STEP_LO n i) else 0

/-- A step that R421 allows on a controller. -/
def stepOk (m : Mach) (ctrl w : Nat) : Bool :=
  let op := bits w 0 4
  let tgt := bits w 8 8
  let nn := bits w 16 8
  let bus := 1 ≤ op && op ≤ 3
  bits w 4 4 == 0 && decide (op ≤ 4) &&
  (!bus || (if ctrl < 2 then decide (tgt < 11) && (m.fldOf (rSN_I3C_DEV ctrl tgt) 0 15 != 0) else decide (tgt < 4))) &&
  (match op with
   | 1 => decide (1 ≤ nn ∧ nn ≤ 4)
   | 2 => decide (1 ≤ nn ∧ nn ≤ 32)
   | 3 => decide (1 ≤ nn ∧ nn ≤ 32)
   | 4 => nn == 0 && decide (1 ≤ bits w 32 32 ∧ bits w 32 32 ≤ 38400)
   | _ => nn == 0)

/-- The steps of a sequence up to its END, or none where no END is reached. -/
def seqSteps (m : Mach) (n : Nat) : Option (List Nat) :=
  let ws := (List.range 16).map (seqStep m n)
  if ws.any (fun w => bits w 0 4 == 0) then some (ws.takeWhile (fun w => bits w 0 4 != 0)) else none

/-- The sequence passes the validation of R421. -/
def sequenceOk (m : Mach) (n : Nat) : Bool :=
  match seqSteps m n with
  | none => false
  | some ws =>
    let reads := (ws.map (fun w => if bits w 0 4 = 2 ∨ bits w 0 4 = 3 then bits w 16 8 else 0)).foldl (· + ·) 0
    let endWord := seqStep m n ws.length
    ws.all (stepOk m (seqCtrl m n)) && bits endWord 4 4 == 0 && strKind m (seqStream m n) == 3 && decide (reads + 32 ≤ strSize m (seqStream m n))

/-- Tenant for whom a sequence's faults are raised: its stream's owner. -/
def seqOwner (m : Mach) (n : Nat) : Nat := if strKind m (seqStream m n) = 3 then strOwner m (seqStream m n) else 0

/-- A trigger was dropped, or causes an abort (R425). -/
def overrun (m : Mach) (n : Nat) : Mach :=
  let x := seqStream m n
  if strKind m x ≠ 3 then m
  else
    let m := m.satFld (rSN_STREAM_OVR x) 0 16 1
    let c := sctx m x
    let m := setSctx m x { c with overrun := true, ovrRaised := true }
    if c.ovrRaised then m else raiseT m 0x0907 (strOwner m x) x

/-- A trigger of a sequence, with the data of its IBI (R422, R424, R425, R435). -/
def trigger (m : Mach) (n ibi : Nat) : Mach :=
  let c := seqSt m n
  if !seqArmed m n ∨ c.lastTrig = some m.clk.now then m
  else
    let c := { c with lastTrig := some m.clk.now }
    let m := setSeqSt m n c
    if !c.running then (if c.waiting.isSome then m else setSeqSt m n { c with waiting := some ibi })
    else match seqPolicy m n with
      | 0 => if c.waiting.isSome then overrun m n else setSeqSt m n { c with waiting := some ibi }
      | 2 => overrun (if c.abort.isSome then m else setSeqSt m n { c with abort := some ibi }) n
      | _ => overrun m n

/-- A run ends (R423, R425, R434): an aborted run writes no record, and its trigger starts a new run while the sequence is armed; the stream's pending source takes effect. -/
def endRun (m : Mach) (n : Nat) : Mach :=
  let c := seqSt m n
  let x := seqStream m n
  let idle := { c with running := false, step := 0, stamp := none, bytes := [], ibi := 0, err := false, coarse := false, abort := none, delay := none }
  match c.abort with
  | some d => setSeqSt m n (if seqArmed m n then { idle with waiting := some d } else idle)
  | none =>
    let m := setSeqSt m n idle
    let ofs := signedOf 32 (m.regN (rSN_SEQ_OFS n))
    let stamp := wrapInt 64 ((c.stamp.getD m.clk.now : Nat) + ofs)
    let m :=
      if strKind m x = 3 ∧ strSource m x = n then
        produce m x 3 stamp (b2n c.coarse + 4 * b2n c.err) c.bytes.length n (leBytes 4 n ++ leBytes 4 c.ibi) c.bytes
      else m
    takeBind m x

/-- A run goes on with its current step (R421, R423): END ends it, DELAY waits, a bus transaction is under way until it is done. -/
def runStep (m : Mach) (n : Nat) : Mach :=
  let c := seqSt m n
  let w := seqStep m n c.step
  match bits w 0 4 with
  | 0 => endRun m n
  | 4 => setSeqSt m n { c with delay := some (m.clk.now + bits w 32 32) }
  | _ => if c.stamp.isSome then m else setSeqSt m n { c with stamp := some m.clk.now, coarse := coarse m }

/-- A write of SN_SEQ_CTRL_n (R421, R422, R430): DISARM, ARM and TRIG, in this order where one write sets several. -/
def writeSeqCtrl (m : Mach) (n : Nat) (w : Word) : Mach :=
  let m :=
    if flag w 1 then setSeqSt (m.setFlagOf (rSN_SEQ_CFG n) 16 false) n { seqSt m n with waiting := none } else m
  let m :=
    if flag w 0 ∧ !seqArmed m n then
      if sequenceOk m n then m.setFlagOf (rSN_SEQ_CFG n) 16 true else raiseT m 0x090B (seqOwner m n) n
    else m
  if flag w 2 ∧ seqTrigger m n = 2 then trigger m n 0 else m

/-- The first point k × period + phase at or after a time. -/
def pointFrom (period phase t : Nat) : Nat := phase + ceilDiv (t - phase) (max 1 period) * max 1 period

/-- TIMER_TRIGGER (R422): device time reaches the sequence's next trigger point. -/
def execTimerTrigger (n : Fin 16) (s : State) : Host.Outcome State Fault Refusal :=
  s.effect (fun m =>
    if !seqArmed m n.val ∨ seqTrigger m n.val ≠ 0 then m
    else
      let frm := if (seqSt m n.val).lastTrig = some m.clk.now then m.clk.now + 1 else m.clk.now
      trigger (advanceTo m (pointFrom (m.regN (rSN_SEQ_PERIOD n.val)) (m.regN (rSN_SEQ_PHASE n.val)) frm)) n.val 0)

/-- SEQUENCE_RUN_START (R424): a waiting sequence starts once its controller is free, the lowest first. -/
def execSequenceRunStart (n : Fin 16) (s : State) : Host.Outcome State Fault Refusal :=
  s.effect (fun m =>
    let c := seqSt m n.val
    let same := (List.range 16).filter (fun k => seqCtrl m k == seqCtrl m n.val)
    match c.waiting with
    | none => m
    | some d =>
      if same.any (fun k => (seqSt m k).running) ∨ same.any (fun k => decide (k < n.val) && (seqSt m k).waiting.isSome) then m
      else
        runStep (setSeqSt m n.val { c with waiting := none, running := true, step := 0, stamp := none, source := strSource m (seqStream m n.val),
                                           bytes := [], ibi := d, err := false, coarse := false, abort := none, delay := none }) n.val)

/-- BUS_TRANSACTION_DONE (R423, R754): the step's transaction ended with a STOP; `ok` is false for a NACK, an arbitration loss or a timeout, and
a transaction of an unpowered bank fails. -/
def execBusTransactionDone (n : Fin 16) (ok : Bool) (bs : List Byte) (s : State) : Host.Outcome State Fault Refusal :=
  s.effect (fun m =>
    let c := seqSt m n.val
    let w := seqStep m n.val c.step
    let nn := if bits w 0 4 = 1 then 0 else bits w 16 8
    if !c.running ∨ c.delay.isSome then m
    else
      let c := { c with bytes := c.bytes ++ (if ok then slice bs 0 nn else bs.take nn) }
      if c.abort.isSome then endRun (setSeqSt m n.val c) n.val
      else if !ok ∨ !m.pd.vioA then endRun (raiseT (setSeqSt m n.val { c with err := true }) 0x0906 (seqOwner m n.val) n.val) n.val
      else runStep (setSeqSt m n.val { c with step := c.step + 1 }) n.val)

/-- SEQUENCE_DELAY_END (R421). -/
def execSequenceDelayEnd (n : Fin 16) (s : State) : Host.Outcome State Fault Refusal :=
  s.effect (fun m =>
    let c := seqSt m n.val
    match c.delay with
    | none => m
    | some d => runStep (setSeqSt (advanceTo m d) n.val { c with delay := none, step := c.step + 1 }) n.val)

/-- IBI (R419, R424): an in-band interrupt from an address, with its data bytes. -/
def execIbi (k : Fin 2) (addr : Nat) (data : List Byte) (s : State) : Host.Outcome State Fault Refusal :=
  s.effect (fun m =>
    if !m.flagOf (rSN_I3C_CFG k.val) 0 ∨ m.flagOf (rSN_I3C_CFG k.val) 1 ∨ !m.pd.vioA then m
    else match (List.range 11).find? (fun i => addr != 0 && m.fldOf (rSN_I3C_DEV k.val i) 8 7 == addr && !m.flagOf (rSN_I3C_DEV k.val i) 16) with
      | none => nackIbi m k.val
      | some i =>
        let d := m.reg (rSN_I3C_DEV k.val i)
        if !flag d 17 then nackIbi m k.val
        else
          let m := postEvent m (0x8900 + k.val) 0
          let n := fld d 20 4
          if flag d 24 ∧ seqTrigger m n = 1 ∧ seqCtrl m n = k.val then trigger m n (leNat (slice data 0 4)) else m)

/-- HOT_JOIN (R418). -/
def execHotJoin (k : Fin 2) (s : State) : Host.Outcome State Fault Refusal :=
  s.effect (fun m => if m.flagOf (rSN_I3C_CFG k.val) 0 && m.pd.vioA then nackIbi m k.val else m)

/-! ## Wheels -/

/-- A wheel input, and the machine with it set. -/
def wheelSt (m : Mach) (w : Nat) : Wheel := tabGet m.sn.wheels w Wheel.init
def setWheelSt (m : Mach) (w : Nat) (c : Wheel) : Mach := { m with sn := { m.sn with wheels := tabSet m.sn.wheels w c Wheel.init } }

/-- An input is the B line of a quadrature pair, and carries no stream (R426). -/
def isBLine (m : Mach) (w : Nat) : Bool := w % 2 == 1 && m.flagOf (rSN_WHL_CFG (w - 1)) 2

/-- The report of an input at its next report point (R428). -/
def wheelReport (m : Mach) (w : Nat) : Mach :=
  let c := wheelSt m w
  let x := m.fldOf (rSN_WHL_CFG w) 16 6
  let payload := leBytes 4 (m.regN (rSN_WHL_POS w)) ++ leBytes 4 c.edges ++ leBytes 8 (if c.any then c.last else 0) ++ leBytes 4 c.interval
  let live := strKind m x == 4 && strSource m x == w
  let m := setWheelSt m w { c with edges := if live then 0 else c.edges, quadErr := if live then false else c.quadErr,
                                   next := c.next + max 1 (m.regN (rSN_WHL_PERIOD w)) }
  if live then takeBind (produce m x 4 c.next (coarseFlag m + 64 * b2n c.quadErr) 20 w [] payload) x else m

/-- WHEEL_REPORT (R428). -/
def execWheelReport (w : Fin 4) (s : State) : Host.Outcome State Fault Refusal :=
  s.effect (fun m =>
    if !m.flagOf (rSN_WHL_CFG w.val) 0 ∨ isBLine m w.val then m
    else wheelReport (advanceTo m (wheelSt m w.val).next) w.val)

/-- The stamp of an edge that is accepted now: the first of its FILT + 1 samples (R427). -/
def edgeStamp (m : Mach) (w : Nat) : Nat :=
  let f := m.fldOf (rSN_WHL_CFG w) 4 6
  m.clk.now - (if coarse m then max 25 f else f)

/-- Count one edge (R426, R428). -/
def countEdge (m : Mach) (w : Nat) (d : Int) (stamp : Nat) : Mach :=
  let c := wheelSt m w
  let m := m.setRegN (rSN_WHL_POS w) (wrapInt 32 ((m.regN (rSN_WHL_POS w) : Int) + d))
  let m := setWheelSt m w { c with edges := (c.edges + 1) % 2 ^ 32, last := stamp, interval := if c.any then min (stamp - c.last) 0xFFFFFFFF else 0xFFFFFFFF, any := true }
  if m.flagOf (rSN_WHL_CFG w) 3 then postEvent (m.setFlagOf (rSN_WHL_CFG w) 3 false) (0x8A00 + w) 0 else m

/-- WHEEL_EDGE (R426–R428, R437): a filtered edge; one stamped at or after the next report point belongs to the record after it. -/
def execWheelEdge (w : Fin 4) (e : WheelEv) (s : State) : Host.Outcome State Fault Refusal :=
  s.effect (fun m =>
    let cfg := m.reg (rSN_WHL_CFG w.val)
    let quad := w.val % 2 == 0 && flag cfg 2
    let stamp := edgeStamp m w.val
    if !flag cfg 0 ∨ isBLine m w.val ∨ !m.pd.vioA then m
    else
      let m := if (wheelSt m w.val).next ≤ stamp then wheelReport m w.val else m
      match e with
      | .rise => if quad then m else countEdge m w.val 1 stamp
      | .fall => if quad ∨ !flag cfg 1 then m else countEdge m w.val 1 stamp
      | .up => if quad then countEdge m w.val 1 stamp else m
      | .down => if quad then countEdge m w.val (-1) stamp else m
      | .bothLines =>
        if !quad then m
        else
          let x := fld cfg 16 6
          raiseT (setWheelSt m w.val { wheelSt m w.val with quadErr := true }) 0x0909 (if strKind m x = 4 then strOwner m x else 0) w.val)

/-- A write of SN_WHL_CFG_w (R430): enabling starts the report points. -/
def writeWheelCfg (m : Mach) (w : Nat) (v : Word) : Mach :=
  let was := m.flagOf (rSN_WHL_CFG w) 0
  let m := writeEnCfg m (rSN_WHL_CFG w) v
  if was ∨ !flag v 0 then m
  else setWheelSt m w { Wheel.init with next := pointFrom (m.regN (rSN_WHL_PERIOD w)) (m.regN (rSN_WHL_PHASE w)) m.clk.now }

end Sys2Proof.Machine
end

