-- ==== Sys2Proof/Machine/Topology.lean ====
section
/-!
DEFINITION. Nodes and the topology of the fabric (R614–R623): HELLO, CERT and TOPO, the connected set, leader and assignment, routing tables,
link states (R612), and fabric time's place in a node (R624–R628).
-/
namespace Sys2Proof.Machine

/-! ## This node -/

/-- The 128-bit unique ID of this node (R558). -/
def selfUid : Nat := Config.uid % 2 ^ 128

/-- The running firmware's VERSION; 0 in recovery (R757). -/
def fwVersion (m : Mach) : Nat := (m.hm.fw.map (·.1)).getD 0

/-- The 16 bytes of CH_CONFIG_HASH. -/
def configHash (m : Mach) : List Byte := (List.range 4).flatMap (fun i => leBytes 4 (m.regN (rCH_CONFIG_HASH_0 + 4 * i)))

/-- A CBOR head: major type and argument, in the shortest form (R580). -/
def cborHead (major n : Nat) : List Byte :=
  if n < 24 then beBytes 1 (32 * major + n)
  else if n < 2 ^ 8 then beBytes 1 (32 * major + 24) ++ beBytes 1 n
  else if n < 2 ^ 16 then beBytes 1 (32 * major + 25) ++ beBytes 2 n
  else if n < 2 ^ 32 then beBytes 1 (32 * major + 26) ++ beBytes 4 n
  else beBytes 1 (32 * major + 27) ++ beBytes 8 n

/-- A CBOR byte string. -/
def cborBytes (bs : List Byte) : List Byte := cborHead 2 bs.length ++ bs

/-- A CERT report (R579). -/
def certReport : List Byte := cborHead 4 2 ++ cborBytes Config.devCert ++ cborBytes Config.caCert

/-- The payload of HELLO on a port (R615). -/
def helloData (m : Mach) (p : Nat) : List Byte :=
  leBytes 16 selfUid ++ leBytes 4 (fwVersion m) ++ leBytes 1 3 ++ leBytes 1 p ++ leBytes 2 (m.fldOf rCH_GEN 0 16) ++ configHash m ++
    leBytes 8 (ftime m) ++ leBytes 4 (m.regN rTK_PERIOD) ++ leBytes 12 0

/-- UID of the neighbour on a port, from its HELLO (R615); 0 for none. -/
def nbUid (m : Mach) (p : Nat) : Nat := ((port m p).hello.map (fun h => byteFld h 0 16)).getD 0

/-- UID of the admitted neighbour on a port, or 0 (R617). -/
def admittedUid (m : Mach) (p : Nat) : Nat := if admitted m p then nbUid m p else 0

/-- The payload of this node's TOPO (R617). -/
def topoData (m : Mach) (seq : Nat) : List Byte :=
  leBytes 16 selfUid ++ leBytes 2 seq ++ leBytes 1 3 ++ leBytes 1 (b2n (outOfStep m)) ++ leBytes 4 (fwVersion m) ++ configHash m ++
    leBytes 4 (m.regN rTK_PERIOD) ++ leBytes 20 0 ++ (List.range 4).flatMap (fun p => leBytes 16 (admittedUid m p))

/-- A TOPO message read (R617). -/
def readTopo (d : List Byte) : Topo :=
  { uid := byteFld d 0 16, seq := byteFld d 16 2, nbs := (List.range 4).map (fun p => byteFld d (64 + 16 * p) 16), data := slice d 0 128 }

/-! ## The graph -/

/-- The TOPO that the node holds of a UID. -/
def topoOf (m : Mach) (uid : Nat) : Option Topo := m.ch.topos.find? (·.uid == uid)

/-- A link takes part in the topology if the TOPO of each end names the other (R617). -/
def linkedTo (m : Mach) (a b : Nat) : Bool :=
  (topoOf m a).any (·.nbs.contains b) && (topoOf m b).any (·.nbs.contains a)

/-- The nodes within `d` hops of a list of nodes, nearest first, with their distance (R618, R621). -/
def reach (m : Mach) : Nat → Nat → List (Nat × Nat) → List (Nat × Nat)
  | 0, _, seen => seen
  | fuel + 1, d, seen =>
    let front := (seen.filter (·.2 == d)).map (·.1)
    let new := ((m.ch.topos.map (·.uid)).filter (fun u => front.any (fun f => linkedTo m f u) && !seen.any (·.1 == u))).eraseDups
    if new.isEmpty then seen else reach m fuel (d + 1) (seen ++ new.map (fun u => (u, d + 1)))

/-- Distances of nodes from a node. -/
def distFrom (m : Mach) (uid : Nat) : List (Nat × Nat) := reach m (m.ch.topos.length + 1) 0 [(uid, 0)]

/-- The connected set of this node, in ascending UID order (R618). -/
def connectedSet (m : Mach) : List Nat := sortOn id ((distFrom m selfUid).map (·.1))

/-- The leader's UID (R618). -/
def leaderUid (m : Mach) : Nat := if m.ch.leader = 0 then selfUid else m.ch.leader

/-- This node is its own leader. -/
def isLeader (m : Mach) : Bool := leaderUid m == selfUid

/-- The UIDs of the current assignment in ID order: this node alone where there is none (R620). -/
def nodeUids (m : Mach) : List Nat := ((m.ch.assign).map (·.uids)).getD [selfUid]

/-- The UID of a node of the current assignment. -/
def uidOf (m : Mach) (n : Nat) : Nat := (nodeUids m).getD n 0

/-- A node of the assignment is out of step, as its TOPO or its own state says (R628). -/
def nodeOut (m : Mach) (uid : Nat) : Bool := if uid = selfUid then outOfStep m else (topoOf m uid).any (fun t => bit (byteFld t.data 19 1) 0)

/-- A node of the assignment is transport-only (R619, R620). -/
def nodeTransport (m : Mach) (n : Nat) : Bool := (m.ch.assign).any (fun a => bit a.transport n)

/-- A node takes shards in strict jobs (R639). -/
def takesShards (m : Mach) (n : Nat) : Bool :=
  decide (n < (nodeUids m).length) && !nodeTransport m n && !nodeOut m (uidOf m n) && (connectedSet m).contains (uidOf m n)

/-! ## Fabric time -/

/-- Fabric time becomes device time and a constant, its tick numbers this node's own (R624). -/
def setLead (m : Mach) : Mach :=
  let o : Int := ((m.clk.tick * m.regN rTK_PERIOD : Nat) : Int) - (m.clk.tickStart : Int)
  let m := m.setReg64 rCH_TICK_OFS_LO 0
  { m with ch := { m.ch with oFrom := o * 65536, oTo := o * 65536, oAt := m.clk.now, rate := 0, oNext := none, stepNext := false, align := none } }

/-- A member of the assignment is noted as lost or out of step until the next seam (R641). -/
def noteLost (m : Mach) (uid cause : Nat) : Mach :=
  if m.ch.lost.any (·.1 == uid) then m else { m with ch := { m.ch with lost := m.ch.lost ++ [(uid, cause)] } }

/-- The topology as the node holds it, TOPO_SEQ left out. -/
def topoContent (m : Mach) : List (List Byte) :=
  (connectedSet m).filterMap (fun u => (topoOf m u).map (fun t => patch t.data 16 [0, 0]))

/-- The registers of a node alone (R620): node 0 of generation 0. -/
def aloneRegs (m : Mach) : Mach :=
  let m := { m with ch := { m.ch with assign := none } }
  let m := ((m.setFldOf rCH_NODE 0 6 0).setFldOf rCH_NODE 8 6 0).setFldOf rCH_NODE 16 7 1
  (m.setFldOf rCH_GEN 0 16 0).setFlagOf rCH_NODE 24 false

/-- The node falls out of step (R628). -/
def fallOut (m : Mach) : Mach :=
  let m := { m with ch := { m.ch with stepNext := !isLeader m, good := 0, bad := 0 } }
  let m := noteLost m selfUid 4
  if outOfStep m then m else raiseD (m.setFlagOf rCH_NODE 25 true) 0x0E06 0

/-- What follows from the topology the node holds (R618–R620, R628, R641). -/
def followTopology (m : Mach) : Mach :=
  let set := connectedSet m
  let content := topoContent m
  let m := if content = m.ch.topoNow then m else { m with ch := { m.ch with topoNow := content, topoAt := m.clk.now } }
  let m := (nodeUids m).foldl (fun m u =>
    if !set.contains u then noteLost m u 3 else if u != selfUid && nodeOut m u then noteLost m u 4 else m) m
  let lead := set.headD selfUid
  let m := if lead = leaderUid m then m
    else
      let m := { m with ch := { m.ch with leader := if lead = selfUid then 0 else lead } }
      fallOut (if lead = selfUid then setLead m else m)
  let m := if set.length ≤ 1 then aloneRegs m else m
  let tooMany := decide (64 ≤ (set.filter (· < selfUid)).length)
  let m := if tooMany ∧ !m.ch.full then raiseD m 0x0E04 0 else m
  let m := { m with ch := { m.ch with full := tooMany } }
  let differs := !isLeader m && (topoOf m (leaderUid m)).any (fun t => byteFld t.data 20 4 != fwVersion m || byteFld t.data 18 1 != 3)
  if differs = m.flagOf rCH_NODE 24 then m
  else if differs then raiseD (m.setFlagOf rCH_NODE 24 true) 0x0E07 0 else m.setFlagOf rCH_NODE 24 false

/-- The node sends TOPO (R617): its own copy is renewed, and it floods every admitted link. -/
def sendTopo (m : Mach) : Mach :=
  let seq := (m.ch.topoSeq + 1) % 65536
  let d := topoData m seq
  let m := { m with ch := { m.ch with topoSeq := seq, topoTick := m.clk.tick, topos := m.ch.topos.filter (·.uid != selfUid) ++ [readTopo d] } }
  flood (followTopology m) 4 8 d

/-- The node falls out of step and says so in TOPO (R628). -/
def outStep (m : Mach) : Mach := sendTopo (fallOut m)

/-! ## Link states -/

/-- A port leaves ACTIVE for a state (R612): its buffers are lost, CH_LINK_DOWN is raised, and the topology changes. -/
def leaveActive (m : Mach) (p st : Nat) : Mach :=
  if portState m p ≠ 2 then m
  else
    let was := admitted m p
    let m := raiseD (dropStatus (losePort m p) p st) 0x0E01 p
    let m := if st = 1 then setPort m p { port m p with trainAt := m.clk.now } else m
    if was then sendTopo m else m

/-- A port may run: its CH domain is on, and it is enabled. -/
def portRuns (m : Mach) (p : Nat) : Bool := isOn m (18 + p) && !inTrans m (18 + p) && m.flagOf (rCH_PORT_CFG p) 0

/-- Where a port goes from ACTIVE when the link fails (R612). -/
def linkFails (m : Mach) (p : Nat) : Mach := leaveActive m p (if portRuns m p then 1 else 0)

/-- The wake pattern is sent on a port (R613). -/
def sendWake (m : Mach) (p : Nat) : Mach :=
  let m := m.emit (.pin "CH_WAKE_PATTERN" p)
  if portState m p = 1 then setPort m p { port m p with trainAt := max (m.clk.now + 1344) (port m p).trainAt } else m

/-- A port's domain has reached on (R612, R613). -/
def portUp (m : Mach) (p : Nat) : Mach :=
  if !portRuns m p then m
  else
    let m := enterTrain m p m.clk.now
    if m.flagOf (rCH_PORT_CFG p) 2 then sendWake m p else m

/-- A port enters ACTIVE (R612, R615). -/
def enterActive (m : Mach) (p : Nat) : Mach :=
  let m := setPort m p ChPort.init
  let m := m.setFldOf (rCH_PORT_STATUS p) 0 2 2
  sendLink (sendLink m p 1 (helloData m p)) p 2 certReport

/-- TRAIN (R604, R612): `aligned` says that 64 valid sync headers were seen on each lane and the lanes are deskewed; `locked` and `ready` are
the peer's flags. -/
def execTrain (p : Fin 4) (aligned locked ready : Bool) (s : State) : Host.Outcome State Fault Refusal :=
  s.effect (fun m =>
    let p := p.val
    if !portRuns m p ∨ !(portState m p = 1 ∨ portState m p = 3) ∨ m.clk.now < (port m p).trainAt then m
    else
      let m := if portState m p = 3 then enterTrain m p m.clk.now else m
      let c := port m p
      let l := c.locked || aligned
      let r := c.ready || (l && locked)
      let m := (setPort m p { c with locked := l, ready := r }).emit (.link p (leBytes 8 (0x78 + 2 ^ 16 * b2n l + 2 ^ 17 * b2n r)))
      if r && ready then enterActive m p else m)

/-- TRAINING_TIMEOUT (R612). -/
def execTrainingTimeout (p : Fin 4) (s : State) : Host.Outcome State Fault Refusal :=
  s.effect (fun m =>
    let p := p.val
    if portState m p ≠ 1 then m
    else
      let c := port m p
      let m := advanceTo m (c.trainAt + 3840)
      let n := c.fails + 1
      let m := setPort m p { c with locked := false, ready := false, fails := n, failRaised := c.failRaised || decide (8 ≤ n), trainAt := m.clk.now + 38400 }
      if 8 ≤ n ∧ !c.failRaised then raiseD m 0x0E02 p else m)

/-- SLEEP (R604, R612). -/
def execSleep (p : Fin 4) (s : State) : Host.Outcome State Fault Refusal := s.effect (fun m => leaveActive m p.val 3)

/-- BLOCK_LOCK_LOSS (R612). -/
def execBlockLockLoss (p : Fin 4) (s : State) : Host.Outcome State Fault Refusal := s.effect (fun m => linkFails m p.val)

/-- FLIT (R606, R610, R616): the 80 bytes of a flit as received, and whether a block of it had a sync or block error. -/
def execFlit (p : Fin 4) (bs : List Byte) (blockErr : Bool) (s : State) : Host.Outcome State Fault Refusal :=
  s.effect (fun m => receiveFlit m p.val bs blockErr)

/-- Every unacknowledged flit of a port is sent again (R610); one resent eight times takes the link down. -/
def resend (m : Mach) (p : Nat) : Mach :=
  let c := port m p
  if c.sent.isEmpty then m
  else if c.sent.any (fun e => decide (8 ≤ e.2)) then linkFails m p
  else
    let m := (setPort m p { c with sent := c.sent.map (fun e => (e.1, e.2 + 1)), lastAdv := m.clk.now }).satFld (rCH_PORT_ERR p) 16 16 1
    c.sent.foldl (fun m e => m.emit (.link p e.1)) m

/-- ACK (R604, R608, R610): the body of the block. -/
def execAck (p : Fin 4) (body : Nat) (s : State) : Host.Outcome State Fault Refusal :=
  s.effect (fun m =>
    let p := p.val
    if portState m p ≠ 2 then m
    else
      let c := port m p
      let credits := c.credits.zipIdx.map (fun e => e.1 + bits body (17 + 4 * e.2) 4)
      let sent := match c.sent.findIdx? (fun e => byteFld e.1 76 1 == bits body 8 8) with
        | some i => c.sent.drop (i + 1)
        | none => c.sent
      let m := setPort m p { c with credits, sent, lastAdv := if sent.length < c.sent.length then m.clk.now else c.lastAdv }
      pumpPorts (if bit body 16 then resend m p else m))

/-- REPLAY_TIMEOUT (R610): 2 µs, 76.8 reference cycles, without an advance. -/
def execReplayTimeout (p : Fin 4) (s : State) : Host.Outcome State Fault Refusal :=
  s.effect (fun m =>
    let c := port m p.val
    if portState m p.val ≠ 2 ∨ c.sent.isEmpty then m else resend (advanceTo m (c.lastAdv + 77)) p.val)

/-! ## Messages -/

/-- The oldest received message that satisfies a test, taken from the inbox. -/
def takeMsg (m : Mach) (f : Msg → Bool) : Option (Msg × Mach) :=
  (m.ch.inbox.find? f).map (fun x => (x, { m with ch := { m.ch with inbox := m.ch.inbox.erase x } }))

/-- A control message of a code. -/
def ctrlMsg (code : Nat) (x : Msg) : Bool := x.typ == 0 && x.chan == code

/-- Decide a neighbour's admission once HELLO and CERT are held (R616): a failure holds until the link leaves ACTIVE. -/
def decideAdmission (m : Mach) (p : Nat) : Mach :=
  let c := port m p
  match c.hello, c.cert with
  | some h, some r =>
    if admitted m p ∨ c.denied then m
    else if Config.chainVerifies r && Config.certSerial r == byteFld h 0 16 then
      let m := (m.setFlagOf (rCH_PORT_STATUS p) 2 true).setFldOf (rCH_PORT_STATUS p) 4 2 (byteFld h 21 1)
      sendTopo m
    else raiseD (setPort m p { c with denied := true }) 0x0E03 p
  | _, _ => m

/-- HELLO (R615): a neighbour's TICK_PERIOD that differs from the leader's own shows in TOPO. -/
def execHello (s : State) : Host.Outcome State Fault Refusal :=
  s.effect (fun m => match takeMsg m (ctrlMsg 1) with
    | none => m
    | some (x, m) => decideAdmission (setPort m x.port { port m x.port with hello := some (slice x.data 0 64) }) x.port)

/-- CERT (R616). -/
def execCert (s : State) : Host.Outcome State Fault Refusal :=
  s.effect (fun m => match takeMsg m (ctrlMsg 2) with
    | none => m
    | some (x, m) => decideAdmission (setPort m x.port { port m x.port with cert := some x.data }) x.port)

/-- A 16-bit serial number is newer (R614). -/
def newer16 (a b : Nat) : Bool := decide (0 < (a + 65536 - b) % 65536 ∧ (a + 65536 - b) % 65536 < 32768)

/-- The leader's TICK_PERIOD, from its TOPO, differs from this node's (R628). -/
def periodDiffers (m : Mach) : Bool :=
  !isLeader m && (topoOf m (leaderUid m)).any (fun t => byteFld t.data 40 4 != m.regN rTK_PERIOD)

/-- TOPO (R614, R617, R618). -/
def execTopo (s : State) : Host.Outcome State Fault Refusal :=
  s.effect (fun m => match takeMsg m (ctrlMsg 8) with
    | none => m
    | some (x, m) =>
      let t := readTopo x.data
      if t.uid = selfUid ∨ (topoOf m t.uid).any (fun o => !newer16 t.seq o.seq) then m
      else
        let m := { m with ch := { m.ch with topos := m.ch.topos.filter (·.uid != t.uid) ++ [t] } }
        let was := outOfStep m
        let m := followTopology m
        let m := if periodDiffers m ∧ !outOfStep m then fallOut m else m
        let m := if outOfStep m ∧ !was then sendTopo m else m
        flood m x.port 8 t.data)

/-- TOPO_TIMER (R617): every 256 ticks. -/
def execTopoTimer (s : State) : Host.Outcome State Fault Refusal :=
  s.effect (fun m => if (m.clk.tick + 2 ^ 48 - m.ch.topoTick) % 2 ^ 48 < 256 then m else sendTopo m)

/-! ## Assignments -/

/-- TOPO_DIGEST: of both flits of every node in ascending UID (R619). -/
def topoDigest (m : Mach) : List Byte :=
  (sha384 ((connectedSet m).flatMap (fun u => ((topoOf m u).map (·.data)).getD []))).take 16

/-- The digest of the topology without TOPO_SEQ, for the leader's comparison with the last ASSIGN it sent (R619). -/
def contentDigest (m : Mach) : List Byte := (sha384 (topoContent m).flatten).take 16

/-- An ASSIGN read from its payload (R619). -/
def readAssign (d : List Byte) : Assign :=
  { leader := byteFld d 0 16, gen := byteFld d 16 2, swap := byteFld d 20 8 % 2 ^ 48, period := byteFld d 28 4, transport := byteFld d 32 8,
    outStep := byteFld d 56 8, digest := slice d 40 16, uids := (List.range (min 64 (byteFld d 18 1))).map (fun i => byteFld d (64 + 16 * i) 16) }

/-- The payload of an ASSIGN (R619). -/
def assignData (a : Assign) : List Byte :=
  leBytes 16 a.leader ++ leBytes 2 a.gen ++ leBytes 1 a.uids.length ++ leBytes 1 0 ++ leBytes 8 a.swap ++ leBytes 4 a.period ++
    leBytes 8 a.transport ++ slice a.digest 0 16 ++ leBytes 8 a.outStep ++ a.uids.flatMap (leBytes 16)

/-- Entry of a routing table for a node (R621): `dist` holds the distances from that node. -/
def routeEntry (m : Mach) (dist : List (Nat × Nat)) (uid : Nat) : Nat :=
  if uid = selfUid then 8
  else
    let at' := fun u => ((dist.find? (·.1 == u)).map (·.2))
    match at' selfUid with
    | none => 0
    | some d =>
      if d = 0 ∨ 6 < d then 0
      else match (List.range 4).find? (fun p => admittedUid m p != 0 && linkedTo m selfUid (admittedUid m p) && at' (admittedUid m p) == some (d - 1)) with
        | some p => 4 + p
        | none => 0

/-- A routing table is built for the nodes of an assignment (R621). -/
def buildRoutes (m : Mach) (table : Nat) (uids : List Nat) : Mach :=
  let es := uids.map (fun u => routeEntry m (distFrom m u) u)
  (List.range 8).foldl (fun m w =>
    m.setRegN (rCH_ROUTE table w) ((List.range 8).foldl (fun a k => a + es.getD (8 * w + k) 0 * 16 ^ k) 0)) m

/-- The node acts on an ASSIGN whose TOPO_DIGEST equals its own (R619). -/
def actOnAssign (m : Mach) (a : Assign) : Mach :=
  if a.digest ≠ topoDigest m then m
  else
    let m := buildRoutes m (1 - epoch m) a.uids
    { m with ch := { m.ch with pend := some a } }

/-- ASSIGN_TIMER (R619): the leader's topology has been unchanged for 100 µs and differs from that of its last ASSIGN. -/
def execAssignTimer (s : State) : Host.Outcome State Fault Refusal :=
  s.effect (fun m =>
    let set := connectedSet m
    if !isLeader m ∨ set.length ≤ 1 ∨ contentDigest m = m.ch.lastDigest then m
    else
      let m := advanceTo m (m.ch.topoAt + 3840)
      let uids := set.take 64
      let mine := topoOf m selfUid
      let mask := fun (f : Topo → Bool) => maskOf ((uids.zipIdx.filter (fun e => (topoOf m e.1).any f)).map (·.2))
      let same := fun (t : Topo) => mine.any (fun o => byteFld o.data 20 4 == byteFld t.data 20 4 && byteFld o.data 18 1 == byteFld t.data 18 1)
      let a : Assign := { leader := selfUid, gen := ((if m.ch.lastAssignLeader = selfUid then m.ch.lastGen else 0) + 1) % 65536,
                          swap := (fabricTick m + 16) % 2 ^ 48, period := m.regN rTK_PERIOD, transport := mask (fun t => !same t),
                          outStep := mask (fun t => nodeOut m t.uid), digest := topoDigest m, uids }
      let m := { m with ch := { m.ch with lastGen := a.gen, lastAssignLeader := selfUid, lastDigest := contentDigest m } }
      flood (actOnAssign m a) 4 9 (assignData a))

/-- ASSIGN (R614, R619, R645). -/
def execAssign (s : State) : Host.Outcome State Fault Refusal :=
  s.effect (fun m => match takeMsg m (ctrlMsg 9) with
    | none => m
    | some (x, m) =>
      let a := readAssign x.data
      if a.leader = m.ch.lastAssignLeader ∧ !newer16 a.gen m.ch.lastGen then m
      else
        let m := { m with ch := { m.ch with lastGen := a.gen, lastAssignLeader := a.leader } }
        flood (actOnAssign m a) x.port 9 x.data)

/-- The registers that describe an assignment (R643). -/
def assignRegs (m : Mach) (a : Assign) : Mach :=
  let self := (a.uids.findIdx? (· == selfUid)).getD 0
  let m := ((m.setFldOf rCH_NODE 0 6 self).setFldOf rCH_NODE 8 6 0).setFldOf rCH_NODE 16 7 a.uids.length
  let m := m.setFldOf rCH_GEN 0 16 a.gen
  let ds := distFrom m selfUid
  let m := (List.range 64).foldl (fun m n =>
    let u := a.uids.getD n 0
    let v := decide (n < a.uids.length)
    let m := (List.range 4).foldl (fun m i => m.setRegN (rCH_NODE_UID_0 n + 4 * i) (bits u (32 * i) 32)) m
    m.setRegN (rCH_NODE_INFO n) (if v then (((ds.find? (·.1 == u)).map (·.2)).getD 0) % 8 + 8 * b2n (bit a.transport n) + 16 * b2n (nodeOut m u) + 32 else 0)) m
  let m := (List.range 4).foldl (fun m p =>
    match a.uids.findIdx? (fun u => u == admittedUid m p && u != 0) with
    | some n => (m.setFldOf (rCH_PORT_STATUS p) 8 6 n).setFlagOf (rCH_PORT_STATUS p) 14 true
    | none => m.setFldOf (rCH_PORT_STATUS p) 8 7 0) m
  if bit a.transport self ∧ !m.flagOf rCH_NODE 24 then raiseD (m.setFlagOf rCH_NODE 24 true) 0x0E07 0 else m

/-- The seam swaps the routing tables where the pending assignment is due (R619, R623). Answers the IDs before it. -/
def routeSwap (m : Mach) : Mach :=
  match m.ch.pend with
  | none => m
  | some a =>
    if 2 ^ 47 ≤ (fabricTick m + 1 + 2 ^ 48 - a.swap) % 2 ^ 48 then m
    else
      let m := { m with ch := { m.ch with assign := some a, pend := none, oldUntil := some (m.clk.now + 768) } }
      assignRegs (m.setFldOf rCH_GEN 16 1 (1 - epoch m)) a

/-- ROUTE_TABLE_RELEASE (R623). -/
def execRouteTableRelease (s : State) : Host.Outcome State Fault Refusal :=
  s.effect (fun m => match m.ch.oldUntil with
    | none => m
    | some t => { (advanceTo m t) with ch := { m.ch with oldUntil := none } })

/-! ## Synchronisation -/

/-- The port towards the time parent (R625): none on the leader. -/
def parentPort (m : Mach) : Option Nat :=
  if isLeader m then none
  else
    let e := routeEntry m (distFrom m (leaderUid m)) (leaderUid m)
    if bit e 2 then some (e % 4) else none

/-- A follower sends SYNC_REQ to its time parent and keeps its departure (R625). -/
def sendSync (m : Mach) : Mach :=
  match parentPort m with
  | none => m
  | some p => sendLink (setPort m p { port m p with syncT1 := some (m.clk.now * 65536) }) p 3 (List.replicate 64 0)

/-- A stamp of fabric time, in 2⁻¹⁶ cycles, as messages carry it (log 62). -/
def stampBytes (t : Int) : List Byte := leBytes 10 (wrapInt 80 t)

/-- SYNC_REQ (R625): answered with its arrival and the answer's departure; `f2` and `f3` are the sub-cycle parts of the two stamps in 2⁻⁶ cycles. -/
def execSyncReq (f2 f3 : Fin 64) (s : State) : Host.Outcome State Fault Refusal :=
  s.effect (fun m => match takeMsg m (ctrlMsg 3) with
    | none => m
    | some (x, m) =>
      let t2 := ftime16 m x.at' + (f2.val * 1024 : Nat)
      let t3 := ftime16 m m.clk.now + (f3.val * 1024 : Nat)
      sendLink m x.port 4 (slice (stampBytes t2 ++ stampBytes t3) 0 64))

/-- Clamp to ±16 reference cycles, in 2⁻¹⁶ cycles (R626). -/
def clamp16 (x : Int) : Int := max (-1048576) (min 1048576 x)

/-- A measured offset updates fabric time (R626, R628). -/
def applyTheta (m : Mach) (theta : Int) : Mach :=
  if m.ch.stepNext then
    let m := idleRuns m
    let m := { m with ch := { m.ch with oFrom := theta, oTo := theta, oAt := m.clk.now, rate := 0, oNext := none, stepNext := false, bad := 0, good := 0 } }
    let f := ftime16 m m.clk.now / 65536
    let per : Int := max 1 (m.regN rTK_PERIOD)
    { m with ch := { m.ch with align := some (((f + per / 2 + per - 1) / per) % (2 ^ 48 : Nat)).toNat } }
  else
    let e := theta - (m.ch.oNext.getD m.ch.oTo)
    let r := clamp16 (m.ch.rate + e / 256)
    let o := (m.ch.oNext.getD m.ch.oTo) + clamp16 (r + e / 8)
    let bad := if 2516582 < e.natAbs then m.ch.bad + 1 else 0
    let good := if e.natAbs < 131072 then m.ch.good + 1 else 0
    let m := { m with ch := { m.ch with rate := r, oNext := some o, bad, good } }
    let m := m.setFldOf rCH_SYNC 0 16 (wrapInt 16 (max (-32768) (min 32767 (e / 4096))))
    if 4 ≤ bad then outStep m
    else if outOfStep m ∧ 16 ≤ good ∧ !periodDiffers m then sendTopo (m.setFlagOf rCH_NODE 25 false) else m

/-- SYNC_RESP (R625, R626): `f1` and `f4` are the sub-cycle parts of the follower's stamps in 2⁻⁶ cycles. -/
def execSyncResp (f1 f4 : Fin 64) (s : State) : Host.Outcome State Fault Refusal :=
  s.effect (fun m => match takeMsg m (ctrlMsg 4) with
    | none => m
    | some (x, m) =>
      match (port m x.port).syncT1 with
      | none => m
      | some t1 =>
        let t1 : Int := (t1 + f1.val * 1024 : Nat)
        let t4 : Int := (x.at' * 65536 + f4.val * 1024 : Nat)
        let a := signedOf 80 (wrapInt 80 ((byteFld x.data 0 10 : Nat) - t1))
        let b := signedOf 80 (wrapInt 80 ((byteFld x.data 10 10 : Nat) - t4))
        let m := setPort m x.port { port m x.port with syncT1 := none }
        let m := (m.setFldOf rCH_SYNC 16 2 x.port).setFldOf rCH_SYNC 18 3 (((distFrom m (leaderUid m)).find? (·.1 == selfUid)).map (·.2) |>.getD 0)
        applyTheta m ((a + b) / 2))

/-- The first device time, within some cycles of a guess, at which fabric time reaches a value in whole cycles (R627). -/
def edgeAt (m : Mach) (target : Int) : Nat :=
  let g := (target - (m.ch.oTo / 65536) - 40).toNat
  ((List.range 96).map (g + ·)).find? (fun d => decide (target * 65536 ≤ ftime16 m d)) |>.getD (g + 96)

/-- Device time of the boundary that ends the tick under way (R16, R18, R624, R627, R628). -/
def tickEnd (m : Mach) : Nat :=
  let own := m.clk.tickStart + m.regN rTK_PERIOD
  match m.ch.align with
  | some k => edgeAt m ((k * m.regN rTK_PERIOD : Nat) : Int)
  | none =>
    if isLeader m ∨ outOfStep m ∨ m.clk.refStopped then own
    else edgeAt m (((fabricTick m + 1) * m.regN rTK_PERIOD : Nat) : Int)

end Sys2Proof.Machine
end

