-- ==== Sys2Proof/Machine/Fabric.lean ====
section
/-!
DEFINITION. Transfers of the fabric (R629, R630), jobs and reductions (R631–R635), digests and verdicts (R636, R637), peer streams and cascade
hand-offs (R336, R337, R638, R639), splits (R641, R642), and what a seam does with them.
-/
namespace Sys2Proof.Machine

/-! ## Tensors in order -/

/-- The byte ranges of a tensor in the order of R629: rows, or block rows of a compressed tensor. -/
def tensorSpans (t : TDesc) : List (Int × Nat) :=
  if t.cmp = 0 then t.rows.map (fun x => (t.rowAddr 0 x.1 x.2.1 x.2.2, t.rowBytes))
  else t.blockRows.map (fun x => (t.blockRow 0 x.1 x.2.1 x.2.2, t.sz 0 / 8 * blockBytes (fmtBits t.fmt) t.cmp))

/-- Bytes of a tensor as the fabric carries it. -/
def tensorLen (t : TDesc) : Nat := (tensorSpans t).foldl (fun n x => n + x.2) 0

/-- A tensor read from berths in order (R629). -/
def tensorRead (m : Mach) (t : TDesc) : List Byte := (tensorSpans t).flatMap (fun x => readBerths m x.1.toNat x.2)

/-- Bytes landed in a tensor in order (R630). -/
def tensorLand (m : Mach) (t : TDesc) (bs : List Byte) : Mach :=
  ((tensorSpans t).foldl (fun (p : Mach × List Byte) x => (writeBerths p.1 x.1.toNat (p.2.take x.2), p.2.drop x.2)) (m, bs)).1

/-- The tensor lies in berths whose right to a tenant the rules grant (R563, R629). -/
def tensorGranted (m : Mach) (tenant right : Nat) (t : TDesc) : Bool :=
  (tensorSpans t).all (fun x => decide (0 ≤ x.1)) &&
    (bitList (t.berths 0) 64).all (fun b => granted m tenant 2 right (fun r => decide (r.a ≤ b ∧ b < r.a + r.b)))

/-! ## Jobs -/

/-- The active job of a tenant. -/
def jobOf (m : Mach) (t : Nat) : Option Job := m.ch.jobs.find? (fun j => j.tenant == t && j.halting.isNone)

/-- A group of a job. -/
def Job.group (j : Job) (g : Nat) : Option JGroup := j.groups.find? (·.group == g)

/-- A job stops on this node and its tenant is halted (R637, R641): CAUSE 1 DIVERGE, 2 MISSING, 3 SPLIT, 4 OUT_OF_STEP. -/
def haltJob (m : Mach) (j : Job) (code cause : Nat) : Mach :=
  let m := raiseT m code j.tenant 0
  let m := (m.setFldOf (rCH_JOB_STATE j.job) 0 2 2).setFldOf (rCH_JOB_STATE j.job) 17 3 cause
  { m with ch := { m.ch with jobs := mapIf (·.job == j.job) (fun x => { x with halting := some cause }) m.ch.jobs },
           tk := { m.tk with halted := m.tk.halted ||| 2 ^ j.tenant } }

/-- The reason for which JOB_OPEN is refused, or 0 (R631, R632). -/
def jobReason (m : Mach) (d : List Byte) : Nat :=
  let job := byteFld d 4 1
  let t := byteFld d 5 1
  let fl := byteFld d 6 1
  let n := byteFld d 7 1
  let mem := byteFld d 8 8
  let cut := byteFld d 32 4
  let g := fun i => 48 + 16 * i
  let gs := (List.range n).map (fun i => byteFld d (g i) 1)
  let self := selfId m
  let ms := bitList mem 64
  if d.length ≠ 48 + 16 * n ∨ byteFld d 0 4 ≠ 0x4B4C4A42 ∨ 16 ≤ job ∨ 64 ≤ t ∨ 2 ≤ fl ∨ 64 < n ∨ !zeroAt d 36 12 ∨
      (if fl = 1 then cut = 0 ∨ 38400 < cut else cut ≠ 0) ∨ gs.any (64 ≤ ·) ∨ gs.eraseDups.length ≠ n ∨
      (List.range n).any (fun i => byteFld d (g i + 8) 8 == 0 || !zeroAt d (g i + 2) 6 || !(ms.contains (byteFld d (g i + 1) 1))) ∨ !ms.contains self then 1
  else if m.ch.jobs.any (·.job == job) ∨ (jobOf m t).isSome then 2
  else if (fl = 1 ∧ isStrict m t) ∨ !tenantExists m t then 3
  else if ms.any (fun n => decide ((nodeUids m).length ≤ n) || nodeOut m (uidOf m n) || (fl == 0 && (nodeTransport m n || (n == self && m.flagOf rCH_NODE 24)))) ∨
      ms.any (fun a => let ds := distFrom m (uidOf m a); ms.any (fun b => !(ds.any (fun e => e.1 == uidOf m b && decide (e.2 ≤ 6))))) then 4
  else if ms.any (fun n => (if n = self then configHash m else ((topoOf m (uidOf m n)).map (fun t => slice t.data 24 16)).getD []) != slice d 16 16) then 5
  else 0

/-- JOB_OPEN (R631, R632): of tenant 0. -/
def execJobOpen (cmd : CmdCtx) (r : BufRef) (s : State) : Host.Outcome State Fault Refusal :=
  s.effect (fun m => beginCmd m cmd 0x58 0x0F02 noWait (fun m =>
    let q := cmd.q.val
    if q ≠ 0 then refuse m q cmd.cid 0x58 0x0D01 0
    else withRef m cmd 0x58 r false (fun d =>
      let k := jobReason m d
      if k ≠ 0 then refuse m q cmd.cid 0x58 0x0E08 k
      else
        let job := byteFld d 4 1
        let t := byteFld d 5 1
        let ms := bitList (byteFld d 8 8) 64
        let j : Job := { job, tenant := t, relaxed := byteFld d 6 1 == 1, members := byteFld d 8 8, cutoff := byteFld d 32 4,
                         groups := (List.range (byteFld d 7 1)).map (fun i =>
                           ⟨byteFld d (48 + 16 * i) 1, byteFld d (49 + 16 * i) 1, byteFld d (56 + 16 * i) 8⟩),
                         digest := sha384 d, closing := false, halting := none, uids := ms.map (fun n => (n, uidOf m n)), opened := fabricTick m + 1 }
        let m := { m with ch := { m.ch with jobs := m.ch.jobs ++ [j] } }
        let m := m.setRegN (rCH_JOB_STATE job) (1 + 256 * t + 65536 * b2n j.relaxed)
        complete m q cmd.cid 0x58 0 0 0)))

/-- JOB_CLOSE (R631): at the next seam. -/
def execJobClose (cmd : CmdCtx) (job : Nat) (s : State) : Host.Outcome State Fault Refusal :=
  s.effect (fun m => beginCmd m cmd 0x59 0x0F02 noWait (fun m =>
    let q := cmd.q.val
    if q ≠ 0 then refuse m q cmd.cid 0x59 0x0D01 0
    else if !m.ch.jobs.any (·.job == job) then refuse m q cmd.cid 0x59 0x0F02 0
    else complete { m with ch := { m.ch with jobs := mapIf (·.job == job) (fun x => { x with closing := true }) m.ch.jobs } } q cmd.cid 0x59 0 0 0))

/-! ## Sends -/

/-- A FREDUCE format suits its operation (R629). -/
def reduceFmt (op fmt : Nat) : Bool := if op = 1 then fmt == 12 else fmt == 13

/-- A record of a run that RAN and was not speculative is sent, or refused (R629). -/
def sendRecord (tenant slot : Nat) (m : Mach) (r : FabRec) : Mach :=
  if r.kind = 1 then m
  else
    let t := tdesc r.src
    let bad := raiseSlot m 0x0E0B tenant slot 0
    if 16777216 < tensorLen t ∨ !tensorGranted m tenant 0 t then bad
    else if r.kind = 0 then
      if !portGranted m tenant 1 r.node r.chan then bad
      else sendTo m r.node 1 tenant r.chan 0 (fabricTick m % 2) false (tensorRead m t)
    else
      match (jobOf m tenant).bind (fun j => j.group r.chan) with
      | none => bad
      | some g =>
        if !reduceFmt r.node t.fmt ∨ t.cmp ≠ 0 ∨ !bit g.shards t.shard then bad
        else sendTo m g.home 2 tenant r.chan t.shard (fabricTick m % 2) false (tensorRead m t)

/-- The records of a run that wait for data (R145, R630, R635). -/
def waitRecs (m : Mach) (tenant slot : Nat) (rs : List FabRec) (list : Option Nat) : Mach :=
  let ws := (rs.filter (·.kind != 0)).map (fun r =>
    ({ kind := r.kind, tenant, node := r.node, chan := r.chan, tick := fabricTick m, slot, dst := r.dst, list } : WaitRec))
  { m with ch := { m.ch with recs := m.ch.recs ++ ws } }

/-! ## Receipt -/

/-- The fabric tick that a parity names now: the current one or the one before it (R630). -/
def parityTick (m : Mach) (tp : Nat) : Nat := if fabricTick m % 2 = tp then fabricTick m else (fabricTick m + 2 ^ 48 - 1) % 2 ^ 48

/-- A waiting record's data has arrived (R145): the list that feeds its slot's next run may be complete. -/
def recArrived (m : Mach) (w : WaitRec) : Mach :=
  let m := { m with ch := { m.ch with recs := m.ch.recs.erase w } }
  match w.list.bind (findList m) with
  | some l => listEnd (putList m { l with fabric := l.fabric - 1 }) l.id
  | none => m

/-- Data is placed into a record's tensor (R630): bytes of another number are not landed. -/
def placeData (m : Mach) (w : WaitRec) (bs : List Byte) : Mach :=
  let t := tdesc w.dst
  if tensorLen t ≠ bs.length then raiseSlot { m with ch := { m.ch with recs := m.ch.recs.erase w } } 0x0E0B w.tenant w.slot 0
  else recArrived (tensorLand m t bs) w

/-- A received SEND transfer that has its record. -/
def sendRec (m : Mach) (x : Msg) : Option WaitRec :=
  m.ch.recs.find? (fun w => w.kind == 1 && w.tenant == x.ten && w.node == x.src && w.chan == x.chan && w.tick == parityTick m x.tp)

/-- SEND_TRANSFER (R246, R630, R651): it lands once its record exists and its berths are not held. -/
def execSendTransfer (s : State) : Host.Outcome State Fault Refusal :=
  s.effect (fun m =>
    match takeMsg m (fun x => x.typ == 1 && (sendRec m x).any (fun w => ((tdesc w.dst).berths 0 &&& heldBerths m) == 0)) with
    | none => m
    | some (x, m) => match sendRec m x with
      | some w => placeData m w x.data
      | none => m)

/-- The partials of a tenant's group and tick. -/
def partsOf (m : Mach) (tenant group tick : Nat) : Partials :=
  (m.ch.parts.find? (fun p => p.tenant == tenant && p.group == group && p.tick == tick)).getD ⟨tenant, group, tick, none, [], false, false, none⟩

/-- Set the partials of a tenant's group and tick. -/
def setParts (m : Mach) (p : Partials) : Mach :=
  let others := m.ch.parts.filter (fun x => !(x.tenant == p.tenant && x.group == p.group && x.tick == p.tick))
  { m with ch := { m.ch with parts := others ++ [p] } }

/-- One element of a reduction (R144, R166, R168, R172): 0 FP32 sum, 1 INT32 sum that saturates, 2 maximum, 3 minimum. -/
def redElt (op a b : Nat) : Nat :=
  match op with
  | 0 => (eAdd .f32 a b).1
  | 1 => wrapInt 32 (max (-(2 ^ 31 : Int)) (min (2 ^ 31 - 1) (signedOf 32 a + signedOf 32 b)))
  | 2 => (eMinMax true .f32 a b).1
  | _ => (eMinMax false .f32 a b).1

/-- Two partials combined element by element. -/
def redBytes (op : Nat) (a b : List Byte) : List Byte :=
  (List.range (a.length / 4)).flatMap (fun i => leBytes 4 (redElt op (byteFld a (4 * i) 4) (byteFld b (4 * i) 4)))

/-- An entry of the shard tree: an absent shard's partner passes up unchanged (R166). -/
def redPair (op : Nat) (a b : Option (List Byte)) : Option (List Byte) :=
  match a, b with
  | some x, some y => some (redBytes op x y)
  | some x, none => some x
  | none, y => y

/-- The canonical reduction over shard positions 0–63 (R166, R633). -/
def redTree (op : Nat) (ps : List (Nat × List Byte × Nat)) : List Byte :=
  (canonTree (redPair op) none 8 ((List.range 64).map (fun k => (ps.find? (·.1 == k)).map (·.2.1)))).getD []

/-- The operation of a group's reduction at its home: that of a FREDUCE record made there in the tick. -/
def redOp (m : Mach) (p : Partials) : Option Nat :=
  match p.op with
  | some o => some o
  | none => (m.ch.recs.find? (fun w => w.kind == 2 && w.tenant == p.tenant && w.chan == p.group && w.tick == p.tick)).map (·.node)

/-- A result, or NONE, is sent to every member (R635). -/
def sendResult (m : Mach) (j : Job) (p : Partials) (none' arr : Bool) (bs : List Byte) : Mach :=
  let m := setParts m { p with sent := true, none', parts := [] }
  (bitList j.members 64).foldl (fun m n => sendTo m n 3 p.tenant p.group (b2n none') (p.tick % 2) arr bs) m

/-- A group whose shards are all present is combined and its result sent (R633, R634). -/
def combine (m : Mach) (j : Job) (g : JGroup) (p : Partials) : Mach :=
  match redOp m p with
  | none => m
  | some op =>
    if p.sent ∨ p.none' ∨ !(bitList g.shards 64).all (fun k => p.parts.any (·.1 == k)) then m
    else match p.run with
      | some r => sendResult m j p false true r
      | none => sendResult m j p false false (redTree op p.parts)

/-- Arrival order begins (R634): the partials received so far are folded in the order they arrived. -/
def switchOrder (m : Mach) (p : Partials) : Partials :=
  match redOp m p, p.parts with
  | some op, x :: xs => { p with op := some op, run := some (xs.foldl (fun a y => redBytes op a y.2.1) x.2.1) }
  | _, _ => p

/-- A partial arrives at a group's home (R633–R635). -/
def partialArrives (m : Mach) (j : Job) (g : JGroup) (p : Partials) (shard at' : Nat) (bs : List Byte) : Mach :=
  if p.sent ∨ p.none' then m
  else if p.parts.any (fun x => x.1 == shard || x.2.1.length != bs.length) then
    setParts (raiseT m 0x0E0C j.tenant 0) { p with none' := true, parts := [] }
  else
    let late := j.relaxed && p.run.isNone && (p.parts.head?).any (fun x => decide (x.2.2 + j.cutoff < at'))
    let p := if late then switchOrder m p else p
    let p := { p with op := redOp m p, parts := p.parts ++ [(shard, bs, at')],
                      run := match p.run, redOp m p with
                        | some r, some op => some (redBytes op r bs)
                        | r, _ => r }
    combine (setParts m p) j g p

/-- RED_UP (R633). -/
def execRedUp (s : State) : Host.Outcome State Fault Refusal :=
  s.effect (fun m => match takeMsg m (fun x => x.typ == 2) with
    | none => m
    | some (x, m) =>
      match (jobOf m x.ten).bind (fun j => (j.group x.chan).map (fun g => (j, g))) with
      | some (j, g) =>
        if g.home = selfId m ∧ bit g.shards x.shard then
          partialArrives m j g (partsOf m x.ten x.chan (parityTick m x.tp)) x.shard x.at' x.data
        else m
      | none => m)

/-- The group that waits longest in a relaxed job, and when it is due: a reference cycle after CUTOFF from its first partial (R634, R647). -/
def cutoffDue (m : Mach) : Option (Partials × Nat) :=
  (sortOn (·.2) (m.ch.parts.filterMap (fun p =>
    match jobOf m p.tenant, p.parts with
    | some j, x :: _ => if j.relaxed ∧ p.run.isNone ∧ !p.sent ∧ !p.none' then some (p, x.2.2 + j.cutoff + 1) else none
    | _, _ => none))).head?

/-- CUTOFF_EXPIRY (R634, R647). -/
def execCutoffExpiry (s : State) : Host.Outcome State Fault Refusal :=
  s.effect (fun m =>
    match cutoffDue m with
    | none => m
    | some (p, t) => setParts (advanceTo m t) (switchOrder m p))

/-! ## Digests and verdicts -/

/-- The outcome of a group for a tick that a member holds. -/
def outcomeOf (m : Mach) (tenant group tick : Nat) : Option Outcome' :=
  m.ch.outs.find? (fun o => o.tenant == tenant && o.group == group && o.tick == tick)

/-- D_t of a job (R636). -/
def jobDigest (m : Mach) (j : Job) (t : Nat) : List Byte :=
  let gs := sortOn (·.group) j.groups
  (sha384 (j.digest.take 8 ++ leBytes 8 t ++ gs.flatMap (fun g =>
    [BitVec.ofNat 8 g.group] ++ ((outcomeOf m j.tenant g.group t).bind (·.res)).getD [0xFF]))).take 8

/-- The lowest member: the job leader (R636). -/
def Job.lead (j : Job) : Nat := (bitList j.members 64).headD 0

/-- A member that holds the outcome of every group sends its digest (R636); the payload holds D_t and t (log 62). -/
def trySendDigest (m : Mach) (j : Job) (t : Nat) : Mach :=
  if j.groups.all (fun g => (outcomeOf m j.tenant g.group t).isSome) then
    sendTo m j.lead 0 j.tenant 0x10 0 0 false (slice (jobDigest m j t ++ leBytes 8 t) 0 64)
  else m

/-- RED_DOWN (R634–R636). -/
def execRedDown (s : State) : Host.Outcome State Fault Refusal :=
  s.effect (fun m => match takeMsg m (fun x => x.typ == 3) with
    | none => m
    | some (x, m) =>
      let t := parityTick m x.tp
      match jobOf m x.ten with
      | none => m
      | some j =>
        if (outcomeOf m x.ten x.chan t).isSome ∨ (j.group x.chan).isNone then m
        else
          let res := if x.shard = 0 then some x.data else none
          let m := { m with ch := { m.ch with outs := m.ch.outs ++ [{ tenant := x.ten, tick := t, group := x.chan, res }] } }
          let m := if x.arr then countChoice m x.ten 1 else m
          let ws := m.ch.recs.filter (fun w => w.kind == 2 && w.tenant == x.ten && w.chan == x.chan && w.tick == t)
          let m := if x.shard = 0 then ws.foldl (fun m w => placeData m w x.data) m else m
          trySendDigest m j t)

/-- DIGEST (R636). -/
def execDigest (s : State) : Host.Outcome State Fault Refusal :=
  s.effect (fun m => match takeMsg m (ctrlMsg 0x10) with
    | none => m
    | some (x, m) =>
      { m with ch := { m.ch with digests := m.ch.digests ++ [{ tenant := x.ten, tick := byteFld x.data 8 8, node := x.src, value := x.data.take 8 }] } })

/-- VERDICT (R637): the payload holds t, and 1 for OK (log 62). -/
def execVerdict (s : State) : Host.Outcome State Fault Refusal :=
  s.effect (fun m => match takeMsg m (ctrlMsg 0x11) with
    | none => m
    | some (x, m) => { m with ch := { m.ch with verdicts := m.ch.verdicts ++ [(x.ten, byteFld x.data 0 8, byteFld x.data 8 1 == 1)] } })

/-- The job leader's verdict of a tick (R637). -/
def sendVerdict (m : Mach) (j : Job) (t : Nat) : Mach :=
  if j.lead ≠ selfId m then m
  else
    let ds := m.ch.digests.filter (fun d => d.tenant == j.tenant && d.tick == t)
    let ms := bitList j.members 64
    let ok := ms.all (fun n => ds.any (·.node == n)) && ds.all (fun d => (ds.head?).any (·.value == d.value))
    ms.foldl (fun m n => sendTo m n 0 j.tenant 0x11 0 0 false (slice (leBytes 8 t ++ leBytes 1 (b2n ok)) 0 64)) m

/-- A member's check of a tick's verdict (R637). -/
def checkVerdict (m : Mach) (j : Job) (t : Nat) : Mach :=
  let vs := m.ch.verdicts.filter (fun v => v.1 == j.tenant && v.2.1 == t)
  if vs.any (·.2.2) then m else haltJob m j 0x0E09 (if vs.isEmpty then 2 else 1)

/-! ## Peer streams and hand-offs -/

/-- The contexts that a PEER transfer is delivered into (R638): bound to a channel that names its node, channel and tenant. -/
def peerContexts (m : Mach) (x : Msg) : List Nat :=
  let chans := (List.range 48).filter (fun k =>
    let w := m.reg (rCH_PEER_IN k)
    flag w 0 && fld w 8 6 == x.src && fld w 16 6 == x.chan && fld w 24 6 == x.ten)
  (List.range 48).filter (fun n => strKind m n == 5 && chans.contains (strSource m n) && streamGranted m (strOwner m n) 5 (strSource m n))

/-- A PEER transfer's record is delivered into a context (R638). -/
def peerDeliver (x : Msg) (m : Mach) (n : Nat) : Mach :=
  let size := strSize m n
  let len := min (byteFld x.data 14 2) (size - 32)
  let cut := decide (size < x.data.length)
  let fl := (byteFld x.data 13 1 ||| (if outOfStep m then 1 else 0)) ||| (if cut then 16 else 0)
  let m := takeBind m n
  produce m n 5 (fromFabric m (byteFld x.data 4 8)) fl len (strSource m n) (slice x.data 20 12) (slice x.data 32 len)

/-- PEER_TRANSFER (R638). -/
def execPeerTransfer (s : State) : Host.Outcome State Fault Refusal :=
  s.effect (fun m => match takeMsg m (fun x => x.typ == 4) with
    | none => m
    | some (x, m) => (peerContexts m x).foldl (peerDeliver x) m)

/-- The decision of a received hand-off acts (R337), at a device time. -/
def applyHandoff (m : Mach) (x : Msg) (d : Nat) : Mach :=
  let w := byteFld x.data 0 4
  let t := bits w 0 6
  let j := bits w 16 3
  match cascOf m t with
  | none => raiseT m 0x0706 t 0
  | some c =>
    if !c.armed ∨ !(c.stage j).fromPeer ∨ c.peerNode ≠ x.src ∨ c.peerTenant ≠ bits w 8 6 then raiseT m 0x0706 t 0
    else (actOnSlot m t j (byteFld x.data 6 1) d none).1

/-- CASCADE (R337): one that arrives before the boundary of fabric tick t + 1 waits for it, a later one acts at its arrival. -/
def execCascade (s : State) : Host.Outcome State Fault Refusal :=
  s.effect (fun m => match takeMsg m (ctrlMsg 0x12) with
    | none => m
    | some (x, m) =>
      let t := byteFld x.data 16 8
      let past := (fabricTick m + 2 ^ 48 - t) % 2 ^ 48
      if past = 0 ∨ 2 ^ 47 ≤ past then { m with ch := { m.ch with early := m.ch.early ++ [x] } }
      else
        let m := applyHandoff m x x.at'
        if x.at' = m.clk.tickStart ∧ past = 1 then m else raiseT m 0x0705 (bits (byteFld x.data 0 4) 0 6) 0)

/-- Hand-offs that waited for this tick boundary act (R337). -/
def boundaryHandoffs (m : Mach) : Mach :=
  let due := m.ch.early.filter (fun x => (byteFld x.data 16 8 + 1) % 2 ^ 48 == fabricTick m)
  due.foldl (fun m x => applyHandoff m x m.clk.now) { m with ch := { m.ch with early := m.ch.early.filter (fun x => !due.contains x) } }

/-- The decisions of a tick for PEER successors are sent in its seam (R336, R639). -/
def seamHandoffs (m : Mach) : Mach :=
  m.cas.foldl (fun m c =>
    let m := match cascOf m c.tenant with | some c => putCasc m { c with sends := [] } | none => m
    c.sends.foldl (fun m s =>
      if !takesShards m c.peerNode then raiseT m 0x0706 c.tenant 0
      else
        let d := leBytes 4 (c.peerTenant + 256 * c.tenant + 65536 * c.peerStage) ++ leBytes 2 0 ++ leBytes 1 s.dec ++ leBytes 1 0 ++
          leBytes 2 s.value ++ leBytes 6 0 ++ leBytes 8 (fabricTick m)
        sendTo m c.peerNode 0 c.tenant 0x12 0 0 false (slice d 0 64)) m) m

/-! ## The seam -/

/-- Jobs that close, and jobs that lost a member, in a seam (R631, R641). -/
def jobsSeam (m : Mach) : Mach :=
  let closing := m.ch.jobs.filter (·.closing)
  let m := closing.foldl (fun m j => m.setRegN (rCH_JOB_STATE j.job) 0) m
  let m := { m with ch := { m.ch with jobs := m.ch.jobs.filter (!·.closing) } }
  let lost := m.ch.lost
  let m := { m with ch := { m.ch with lost := [] } }
  (m.ch.jobs.filter (·.halting.isNone)).foldl (fun m j =>
    match lost.find? (fun l => j.uids.any (·.2 == l.1)) with
    | some l => haltJob m j 0x0E0A l.2
    | none => m) m

/-- Verdicts, and groups that did not complete, in the seam of a fabric tick (R635–R637). -/
def digestSeam (m : Mach) (tick : Nat) : Mach :=
  let live := fun (m : Mach) => m.ch.jobs.filter (·.halting.isNone)
  let m := (live m).foldl (fun m j => if j.opened + 3 ≤ tick then checkVerdict m j (tick - 3) else m) m
  let m := (live m).foldl (fun m j => if j.opened + 2 ≤ tick then sendVerdict m j (tick - 2) else m) m
  let m := (live m).foldl (fun m j =>
    if j.opened + 1 ≤ tick then
      let m := if j.groups.isEmpty then trySendDigest m j (tick - 1) else m
      j.groups.foldl (fun m g =>
        let p := partsOf m j.tenant g.group (tick - 1)
        if g.home = selfId m ∧ !p.sent then sendResult m j p true false [] else m) m
    else m) m
  let fresh := fun (t : Nat) => decide (tick < t + 3)
  { m with ch := { m.ch with parts := m.ch.parts.filter (fun p => decide (tick < p.tick + 1)), outs := m.ch.outs.filter (fun o => fresh o.tick),
                             digests := m.ch.digests.filter (fun d => fresh d.tick), verdicts := m.ch.verdicts.filter (fun v => fresh v.2.1) } }

/-- Transfers and records whose time is over in the seam of a fabric tick (R630). -/
def staleSeam (m : Mach) (tick : Nat) : Mach :=
  let old := fun (x : Msg) => x.typ == 1 && x.tp != tick % 2
  let n := (m.ch.inbox.filter old).length
  let m := if n = 0 then m else countNoRecord m n
  { m with ch := { m.ch with inbox := m.ch.inbox.filter (fun x => !old x), recs := m.ch.recs.filter (fun w => decide (tick ≤ w.tick)) } }

/-- Jobs of more than one member whose IDs a swap changes are halted (R642). -/
def mergeSeam (m : Mach) (before : List Nat) : Mach :=
  if before = nodeUids m then m
  else (m.ch.jobs.filter (·.halting.isNone)).foldl (fun m j =>
    if 1 < j.uids.length ∧ j.uids.any (fun u => uidOf m u.1 != u.2) then haltJob m j 0x0E0A 3 else m) m

/-- The fabric's part of a seam, at step 3 of R35. -/
def fabricSeam (m : Mach) : Mach :=
  let tick := fabricTick m
  let m := jobsSeam m
  let m := digestSeam m tick
  let m := staleSeam m tick
  let m := seamHandoffs m
  let before := nodeUids m
  mergeSeam (routeSwap m) before

/-- The fabric's part of a tick boundary (R624, R625, R626, R628): offsets spread, tick numbers follow, hand-offs act, and a follower synchronises. -/
def fabricBoundary (m : Mach) : Mach :=
  let m := match m.ch.align with
    | some k =>
      let m := m.setReg64 rCH_TICK_OFS_LO ((k + 2 ^ 48 - m.clk.tick) % 2 ^ 48)
      { m with ch := { m.ch with align := none } }
    | none => m
  let m := match m.ch.oNext with
    | some o => { m with ch := { m.ch with oFrom := m.ch.oTo, oTo := o, oAt := m.clk.now, oNext := none } }
    | none => m
  let m := if isLeader m ∧ outOfStep m then
      (if 15 ≤ m.ch.good then sendTopo (m.setFlagOf rCH_NODE 25 false) else { m with ch := { m.ch with good := m.ch.good + 1 } }) else m
  sendSync (boundaryHandoffs m)

end Sys2Proof.Machine
end

