-- ==== Sys2Proof/Machine/Ecdsa.lean ====
section
/-!
DEFINITION. Verification of ECDSA signatures on curve P-384 with SHA-384 (R569, R570, R585). The curve is the public standard the spec refers to
by name (log 13, PRESUMED).
-/
namespace Sys2Proof.Machine

/-- The prime of the field of P-384. -/
def p384P : Nat := 2 ^ 384 - 2 ^ 128 - 2 ^ 96 + 2 ^ 32 - 1

/-- The order of the group of P-384. -/
def p384N : Nat := 0xffffffffffffffffffffffffffffffffffffffffffffffffc7634d81f4372ddf581a0db248b0a77aecec196accc52973

/-- The constant term of the curve's equation. -/
def p384B : Nat := 0xb3312fa7e23ee7e4988e056be3f82d19181d9c6efe8141120314088f5013875ac656398d8a2ed19d2a85c8edd3ec2aef

/-- The coordinates of the base point. -/
def p384Gx : Nat := 0xaa87ca22be8b05378eb1c71ef320ad746e1d3b628ba79b9859f741e082542a385502f25dbf55296c3a545e3872760ab7
def p384Gy : Nat := 0x3617de4a96262c6f5d9e98bf9292dc29f8f41dbd289a147ce9da3113b5f0b8c00a60b1ce1d7e819d7a431d7c90ea0e5f

/-- Arithmetic modulo the prime. -/
def pMul (a b : Nat) : Nat := a * b % p384P
def pSub (a b : Nat) : Nat := (a + p384P - b % p384P) % p384P

/-- Powers modulo a number, over the low `n` bits of the exponent. -/
def powMod (md : Nat) : Nat → Nat → Nat → Nat → Nat
  | 0, _, _, acc => acc
  | n + 1, b, e, acc => powMod md n (b * b % md) (e / 2) (if e % 2 = 1 then acc * b % md else acc)

/-- The inverse modulo a prime, as a power. -/
def invMod (md a : Nat) : Nat := powMod md 384 (a % md) (md - 2) 1

/-- A point in Jacobian coordinates; z = 0 is the point at infinity. -/
structure JPoint where
  x : Nat
  y : Nat
  z : Nat
  deriving DecidableEq, Repr

/-- The point at infinity. -/
def JPoint.inf : JPoint := ⟨1, 1, 0⟩

/-- Twice a point of a curve with a = −3. -/
def JPoint.dbl (p : JPoint) : JPoint :=
  if p.z = 0 ∨ p.y = 0 then .inf
  else
    let d := pMul p.z p.z
    let g := pMul p.y p.y
    let b := pMul p.x g
    let a := pMul (3 * pSub p.x d) (p.x + d)
    let x := pSub (pMul a a) (8 * b)
    let z := pMul 2 (pMul p.y p.z)
    let y := pSub (pMul a (pSub (4 * b) x)) (8 * pMul g g)
    ⟨x, y, z⟩

/-- The sum of two points. -/
def JPoint.add (p q : JPoint) : JPoint :=
  if p.z = 0 then q else if q.z = 0 then p
  else
    let z1 := pMul p.z p.z
    let z2 := pMul q.z q.z
    let u1 := pMul p.x z2
    let u2 := pMul q.x z1
    let s1 := pMul p.y (pMul q.z z2)
    let s2 := pMul q.y (pMul p.z z1)
    if u1 = u2 then (if s1 = s2 then p.dbl else .inf)
    else
      let h := pSub u2 u1
      let r := pSub s2 s1
      let h2 := pMul h h
      let h3 := pMul h h2
      let v := pMul u1 h2
      let x := pSub (pMul r r) (h3 + 2 * v)
      let y := pSub (pMul r (pSub v x)) (pMul s1 h3)
      ⟨x, y, pMul h (pMul p.z q.z)⟩

/-- A multiple of a point, over the low `n` bits of the factor. -/
def JPoint.mul : Nat → Nat → JPoint → JPoint → JPoint
  | 0, _, _, acc => acc
  | n + 1, k, p, acc => JPoint.mul n (k / 2) p.dbl (if k % 2 = 1 then acc.add p else acc)

/-- A public key, x ∥ y big-endian: a point of the curve, or none. -/
def p384Key (pub : List Byte) : Option JPoint :=
  let x := beNat (slice pub 0 48)
  let y := beNat (slice pub 48 48)
  if pub.length = 96 ∧ x < p384P ∧ y < p384P ∧ pMul y y = (x * x * x + p384B + 3 * (p384P - x)) % p384P then some ⟨x, y, 1⟩ else none

/-- Whether r ∥ s is a signature of a hash by a public key. -/
def ecdsaVerify (pub hash sig : List Byte) : Bool :=
  let r := beNat (slice sig 0 48)
  let s := beNat (slice sig 48 48)
  match p384Key pub with
  | none => false
  | some q =>
    if r = 0 ∨ s = 0 ∨ p384N ≤ r ∨ p384N ≤ s ∨ sig.length ≠ 96 then false
    else
      let w := invMod p384N s
      let u1 := beNat (slice hash 0 48) * w % p384N
      let u2 := r * w % p384N
      let t := (JPoint.mul 384 u1 ⟨p384Gx, p384Gy, 1⟩ .inf).add (JPoint.mul 384 u2 q .inf)
      if t.z = 0 then false
      else
        let zi := invMod p384P t.z
        pMul t.x (pMul zi zi) % p384N == r

end Sys2Proof.Machine
end

