-- ==== Sys2Proof/Machine/Boot.lean ====
section
/-!
DEFINITION. What the boot ROM accepts (R569–R571): the header of a firmware image, its signatures, and the order in which images are tried.
-/
namespace Sys2Proof.Machine

/-- Fields of a firmware header (R569). -/
def fwSvn (bs : List Byte) : Nat := byteFld bs 6 2
def fwLabel (bs : List Byte) : Nat := byteFld bs 8 4
def fwLen (bs : List Byte) : Nat := byteFld bs 12 4
def fwDigest (bs : List Byte) : List Byte := slice bs 16 48

/-- The header is one of R569: its magic, its format, its reserved bytes zero, an SVN of the fused counter's range, and the payload's length. -/
def headerOk (bs : List Byte) : Bool :=
  decide (512 ≤ bs.length) && byteFld bs 0 4 == 0x4B4C4657 && byteFld bs 4 2 == 1 && decide (fwSvn bs ≤ 63) && zeroAt bs 448 64 &&
    bs.length == 512 + fwLen bs

/-- A public key hashes to a fused hash, and its signature over bytes 0–63 verifies (R570). -/
def signedBy (bs : List Byte) (at' : Nat) (hash : List Byte) : Bool :=
  sha384 (slice bs at' 96) == hash && ecdsaVerify (slice bs at' 96) (sha384 (slice bs 0 64)) (slice bs (at' + 96) 96)

/-- The boot ROM accepts an image as it reads it (R570). -/
def bootAccepts (f : Fuses) (bs : List Byte) : Bool :=
  headerOk bs && signedBy bs 64 Config.vendorKeyHash && f.owner.all (signedBy bs 256) && decide (f.svn ≤ fwSvn bs) &&
    fwDigest bs == sha384 (bs.drop 512)

/-- The firmware images in the order in which they are tried (R570): the selector's first, then by descending VERSION. -/
def bootOrder (fl : Flash) : List Image :=
  let is := fl.images.filter (·.kind == 0)
  let sel := is.filter (fun i => fl.selector == some i.id)
  let rest := is.filter (fun i => fl.selector != some i.id)
  sel ++ sortOn (fun i => 2 ^ 32 - 1 - fwLabel i.bytes) rest

/-- The images tried, and the one that is accepted, the last of them (R570); `bad` lists images whose payload reads wrong. -/
def bootTry (f : Fuses) (bad : List Nat) : List Image → List Image × Option Image
  | [] => ([], none)
  | i :: is =>
    if bootAccepts f i.bytes && !bad.contains i.id then ([i], some i)
    else
      let r := bootTry f bad is
      (i :: r.1, r.2)

/-- The boot measurement (R571). -/
def measureBoot (f : Fuses) (bs : List Byte) (level : Nat) : List Byte :=
  let ext := fun (mb x : List Byte) => sha384 (mb ++ x)
  [slice Config.romId 0 8, fwDigest bs, leBytes 2 (fwSvn bs), f.owner.getD (List.replicate 48 0), leBytes 1 level].foldl ext (List.replicate 48 0)

end Sys2Proof.Machine
end

