-- ==== Sys2Proof/Machine/HostIf.lean ====
section
/-!
DEFINITION. The host interface (R653–R682): queue pairs, doorbells and fetching, completions and their vectors, link events, registered host
memory, and the commands that move data or set run notices.
-/
namespace Sys2Proof.Machine

/-- Count an access error with its cause (R664). -/
def accessError (m : Mach) (cause : Nat) : Mach := (m.satFld rHS_ACCESS_ERR 0 16 1).setFldOf rHS_ACCESS_ERR 16 4 cause

/-- READY was reached, or ROM recovery serves queue pair 0 (R695, R697). -/
def serving (m : Mach) (t : Nat) : Bool := if inRecovery m then t == 0 else m.flagOf rEF_START 6

/-! ## Queue pairs -/

/-- A queue pair stops (R657, R673): EN clears, and completions of what it fetched are discarded. -/
def stopQueue (m : Mach) (t : Nat) : Mach :=
  let q := queueOf m t
  let cids := (m.hs.cmds.filter (·.q == t)).map (·.cid)
  (setQueue m t { q with dropped := q.dropped ++ cids.filter (fun c => !q.dropped.contains c), unsig := 0 }).setFlagOf (rHS_Q_CFG t) 0 false

/-- A base and ring that R665 allows: aligned host memory, or inside the queue SRAM. -/
def ringPlaced (loc : Bool) (base bytes : Nat) : Bool :=
  if loc then base % 64 == 0 && decide (base + bytes ≤ 131072) else base % 4096 == 0

/-- A write of HS_Q_CFG_t (R665, R683): enables the queue pair after its checks, disables it, or sets its configuration. -/
def writeQCfg (m : Mach) (t v : Nat) : Mach :=
  if isResident m t then m
  else if qEnabled m t then (if bit v 0 then m else m.setFlagOf (rHS_Q_CFG t) 0 false)
  else if outstanding m t ≠ 0 then m
  else if !bit v 0 then m.setRegN (rHS_Q_CFG t) v
  else
    let loc := bit v 1
    let sq := bits v 4 12
    let cq := bits v 16 12
    if sq = 0 ∨ cq = 0 ∨ (!loc ∧ isQspi m) ∨ !ringPlaced loc (m.reg64 (rHS_SQ_BASE_LO t)) (64 * (sq + 1)) ∨
        !ringPlaced loc (m.reg64 (rHS_CQ_BASE_LO t)) (16 * (cq + 1)) then raiseT m 0x0F02 0 0
    else ((setQueue m t Queue.init).setRegN (rHS_Q_CFG t) v).setRegN (rHS_Q_STATUS t) (2 ^ 28)

/-- The checks of a doorbell write (R389, R656, R666): `ok32` says that it is an aligned 32-bit write. -/
def doorbell (m : Mach) (t : Nat) (ok32 : Bool) (n depth : Nat) (f : Mach) : Mach :=
  if !isOn m 17 then accessError m 1
  else if !ok32 then accessError m 3
  else if isResident m t then accessError m 4
  else if !qEnabled m t then accessError m 5
  else if depth ≤ n then raiseT m 0x0F05 t 0
  else f

/-- SQ_TAIL_DOORBELL (R666). -/
def sqDoorbell (m : Mach) (t n : Nat) (ok32 : Bool) : Mach := doorbell m t ok32 n (sqDepth m t) (setQueue m t { queueOf m t with tail := n })

/-- CQ_HEAD_DOORBELL (R666). -/
def cqDoorbell (m : Mach) (t n : Nat) (ok32 : Bool) : Mach :=
  let d := cqDepth m t
  let left := (m.fldOf (rHS_Q_STATUS t) 16 12 + d - n) % d
  doorbell m t ok32 n d (setQueue m t { queueOf m t with used := min (queueOf m t).used left })

/-- SQ_TAIL_DOORBELL (R666). -/
def execSqTailDoorbell (q : Fin 64) (v : Word) (ok32 : Bool) (s : State) : Host.Outcome State Fault Refusal :=
  s.effect (fun m => sqDoorbell m q.val v.toNat ok32)

/-- CQ_HEAD_DOORBELL (R666). -/
def execCqHeadDoorbell (q : Fin 64) (v : Word) (ok32 : Bool) (s : State) : Host.Outcome State Fault Refusal :=
  s.effect (fun m => cqDoorbell m q.val v.toNat ok32)

/-- The opcodes of the catalogue (R676). -/
def opcodes : List Nat :=
  [0x00, 0x01, 0x02, 0x10, 0x11, 0x12, 0x13, 0x14, 0x15, 0x18, 0x19, 0x20, 0x21] ++ (List.range 8).map (· + 0x28) ++
  [0x30, 0x31, 0x32, 0x33, 0x38, 0x39, 0x3A, 0x3C, 0x3D, 0x40, 0x48, 0x49, 0x4A] ++ (List.range 7).map (· + 0x50) ++ [0x58, 0x59]

/-- A command of an undefined opcode begins: it completes with HS_BAD_OPCODE (R676). -/
def badOpcode (m : Mach) (q : Fin 64) (cid op : Nat) : Mach :=
  beginCmd m { q, cid, resv := false } op 0x0F02 noWait (fun m => refuse m q.val cid op 0x0F01 0)

/-- A queue fetch or a CQ write failed on the host link: the queue stops (R673). -/
def stopFailed (m : Mach) (t : Nat) : Mach := raiseT ((stopQueue m t).setFlagOf (rHS_Q_STATUS t) 29 true) 0x0F04 t 0

/-- Completions of a queue pair are written over the host link now (R657, R658, R665). -/
def cqOnLink (m : Mach) (t : Nat) : Bool := qEnabled m t && !m.flagOf (rHS_Q_CFG t) 1 && !isResident m t && isOn m 17 && !inD3 m

/-- COMMAND_FETCH (R658, R667, R673, R695): the entry comes from the queue SRAM, or from host memory as `dma`, none where the access failed. -/
def fetchCmd (m : Mach) (q : Fin 64) (dma : Option (List Byte)) : Mach :=
  let t := q.val
  let st := m.reg (rHS_Q_STATUS t)
  let head := fld st 0 12
  let qq := queueOf m t
  if !qEnabled m t ∨ isResident m t ∨ !serving m t ∨ inD3 m ∨ !isOn m 17 ∨ head = qq.tail ∨ 64 ≤ outstanding m t ∨ cqFree m t ≤ outstanding m t then m
  else
    let loc := m.flagOf (rHS_Q_CFG t) 1
    if inRecovery m ∧ !loc then m else
    match (if loc then some (memRead m.hs.sram 0 (m.reg64 (rHS_SQ_BASE_LO t) + 64 * head) 64) else dma) with
    | none => stopFailed m t
    | some e =>
      let m := m.setFldOf (rHS_Q_STATUS t) 0 12 ((head + 1) % sqDepth m t)
      let cid := byteFld e 2 2
      let op := byteFld e 0 1
      let c : RunCmd := { q := t, cid, op, fence := bit (byteFld e 1 1) 0, begun := false, wait := 0, cpl := none, objs := [], lo := 0, hi := 0 }
      let m := { m with hs := { m.hs with cmds := m.hs.cmds ++ [c] } }
      if opcodes.contains op then m else badOpcode m q cid op

/-- COMMAND_FETCH (R667). -/
def execCommandFetch (q : Fin 64) (dma : Option (List Byte)) (s : State) : Host.Outcome State Fault Refusal := s.effect (fun m => fetchCmd m q dma)

/-- An image load that completed joins the load log of the allocation's owner (R572). -/
def logLoad (m : Mach) (c : RunCmd) : Mach :=
  match c.objs.find? (fun k => k / 2 ^ 40 == 1), c.objs.find? (fun k => k / 2 ^ 40 == 5) with
  | some h, some i =>
    match findAlloc m (h % 2 ^ 40) with
    | some a => logWeights m a.owner (i % 2 ^ 40) c.lo (beBytes 48 c.hi) a.h a.gen
    | none => m
  | _, _ => m

/-- The power domains through which a HOST_WRITE, a HOST_READ or an IMG_LOAD moves its bytes (R254, R482). -/
def cmdDomains (m : Mach) (c : RunCmd) : List Nat :=
  let tier := fun (a : Alloc) (p : Nat) => (match tierOf a p with | 0 => [15] | 1 => [15, 16] | _ => [17]) ++ (if inFlash a p then [16] else [])
  let of := fun (a : Alloc) => a.pg.flatMap (fun e =>
    if c.op ≠ 0x2D ∧ ¬(c.lo < (e.1 + 1) * pageSize ∧ e.1 * pageSize < c.hi) then [] else tier a e.1)
  if c.op = 0x12 ∨ c.op = 0x13 ∨ c.op = 0x2D then
    (if c.op = 0x2D then [16] else []) ++ (m.mem.allocs.filter (fun a => c.objs.contains (objKey 1 a.h))).flatMap of
  else []

/-- A begun command still waits for a domain that moves its bytes (R482). -/
def cmdHeld (m : Mach) (c : RunCmd) (p : Cpl) : Bool := p.status == 0 && !(cmdDomains m c).all (serves m)

/-- COMMAND_COMPLETE (R672, R673): the completion of a command that took time, once nothing remains of it; `lost` says that its CQ write fails on
the host link, or, where no such command is outstanding, that the write of an entry posted before has failed. -/
def endCmd (m : Mach) (q : Fin 64) (cid : Nat) (lost : Bool) : Mach :=
  match findCmd m q.val cid with
  | none => if lost ∧ cqOnLink m q.val then stopFailed m q.val else m
  | some c =>
    if !c.begun then (if opcodes.contains c.op then m else badOpcode m q cid c.op)
    else match c.cpl with
      | none => m
      | some p =>
        if c.wait ≠ 0 ∨ cmdHeld m c p then m
        else
          let m := if p.status = 0 then (if c.op = 0x2D then logLoad m c else m) else raiseT m p.status q.val p.detail
          let m := dropCmd m q.val cid
          if lost ∧ cqOnLink m q.val then stopFailed m q.val else postCpl m p

/-- An IMG_CLOSE that completes in ROM recovery for an image that the ROM accepts makes a recovery restart due (R697). -/
def closedForBoot (f : Fuses) (m : Mach) (q : Fin 64) (cid : Nat) : Bool :=
  inRecovery m && (findCmd m q.val cid).any (fun c => c.begun && c.op == 0x2A && c.wait == 0 &&
    c.cpl.any (fun p => p.status == 0 && (findImage m p.result).any (fun i => i.kind == 0 && bootAccepts f i.bytes)))

/-- COMMAND_COMPLETE (R672, R697). -/
def execCommandComplete (q : Fin 64) (cid : Nat) (lost : Bool) (s : State) : Host.Outcome State Fault Refusal :=
  s.effectF (fun f m =>
    let restart := closedForBoot f m q cid
    let m := endCmd m q cid lost
    if restart then { m with pm := { m.pm with start := some 2 } } else m)

/-- Reference cycles of `n` µs, rounded up. -/
def usToRef (n : Nat) : Nat := ceilDiv (384 * n) 10

/-- IRQ_COALESCE_TIMER (R675): TIME µs after the first completion not yet signalled. -/
def coalesceTimer (m : Mach) (t : Nat) : Mach :=
  let q := queueOf m t
  let time := m.fldOf (rHS_Q_IRQ t) 8 16
  if q.unsig = 0 ∨ time = 0 then m
  else sendVec (setQueue (advanceTo m (q.unsigAt + usToRef time)) t { q with unsig := 0 }) (2 * t)

/-- IRQ_COALESCE_TIMER (R675). -/
def execIrqCoalesceTimer (q : Fin 64) (s : State) : Host.Outcome State Fault Refusal := s.effect (fun m => coalesceTimer m q.val)

/-! ## The link -/

/-- Completions and vectors that were held are written and sent (R658, R682). -/
def postHeld (m : Mach) : Mach :=
  if inD3 m ∨ !isOn m 17 then m
  else
    let held := m.hs.held
    let owed := m.hs.owed
    let m := held.foldl writeCpl { m with hs := { m.hs with held := [], owed := [] } }
    owed.foldl sendVec m

/-- The queues that the external host serves. -/
def externalQueues (m : Mach) : List Nat := (List.range 64).filter (fun t => !isResident m t)

/-- The external host's queues are disabled and what they await is discarded (R657). -/
def dropExternal (m : Mach) : Mach :=
  let m := (externalQueues m).foldl (fun m t => if qEnabled m t then stopQueue m t else m) m
  { m with hs := { m.hs with held := m.hs.held.filter (fun c => isResident m c.q), owed := [] } }

/-- The MSI-X table and its pending bits return to their reset values (R657). -/
def resetMsix (m : Mach) : Mach := { m with regs := tabClear (tabClear m.regs 0x8000 0x800) 0x9000 0x10 }

/-- LINK_RESET (R657): FLR, PERST#, hot reset, or link down; `down` says that the link is down after it. -/
def linkReset (m : Mach) (down : Bool) : Mach :=
  if isQspi m then m
  else
    let m := (resetMsix (dropExternal m)).setFlagOf rHS_MODE 6 false
    let m := if down then m.setFldOf rHS_MODE 1 5 0 else m
    raiseT (m.setFlagOf rHS_EVENTS 0 true) 0x0F08 0 0

/-- LINK_RESET (R657). -/
def execLinkReset (down : Bool) (s : State) : Host.Outcome State Fault Refusal := s.effect (fun m => linkReset m down)

/-- Tenths of a GT/s of a link speed (R664). -/
def linkRate (speed : Nat) : Nat := [0, 25, 50, 80, 160].getD speed 0

/-- The figure of a host pool on a trained link, in units of 0.1 GB/s (R681). -/
def hostPool (speed width : Nat) : Nat := 31 * linkRate speed * width / 320

/-- LINK_TRAINED (R681). -/
def linkTrained (m : Mach) (speed width : Nat) : Mach :=
  if isQspi m ∨ !isOn m 17 then m
  else
    let p := hostPool speed width
    let m := (m.setFldOf rHS_MODE 1 3 speed).setFldOf rHS_MODE 4 2 width
    let m := (m.setFldOf (rCR_RES_POOL 1) 0 16 p).setFldOf (rCR_RES_POOL 2) 0 16 p
    if p < 31 ∧ (p < resSum m 1 ∨ p < resSum m 2) then raiseT (m.setFlagOf rHS_EVENTS 1 true) 0x0F09 0 0 else m

/-- LINK_TRAINED (R681): SPEED is 1 to 4 and WIDTH 1 or 2. -/
def execLinkTrained (speed : Fin 5) (width : Fin 3) (s : State) : Host.Outcome State Fault Refusal := s.effect (fun m => linkTrained m speed.val width.val)

/-- D3HOT_ENTRY (R658). -/
def execD3hotEntry (s : State) : Host.Outcome State Fault Refusal := s.effect (fun m => if isQspi m then m else m.setFlagOf rHS_MODE 6 true)

/-- D0_RETURN (R658). -/
def execD0Return (s : State) : Host.Outcome State Fault Refusal := s.effect (fun m => if isQspi m then m else postHeld (m.setFlagOf rHS_MODE 6 false))

/-! ## Host memory -/

/-- Pages registered by all tenants (R679). -/
def regionPages (m : Mach) : Nat := (m.hs.regions.map (·.pages.length)).foldl (· + ·) 0

/-- The page list of a HOSTMEM_REG is one that R679 allows. -/
def pageListOk (d : List Byte) : Bool :=
  d.length % 8 == 0 && decide (1 ≤ d.length / 8 ∧ d.length / 8 ≤ 1048576) &&
    (List.range (d.length / 8)).all (fun i => byteFld d (8 * i) 8 % 65536 == 0)

/-- HOSTMEM_REG (R661, R679). -/
def execHostmemReg (cmd : CmdCtx) (r : BufRef) (s : State) : Host.Outcome State Fault Refusal :=
  s.effect (fun m => beginCmd m cmd 0x14 0x0F02 noWait (fun m =>
    let t := cmd.q.val
    if isQspi m then refuse m t cmd.cid 0x14 0x0F03 0
    else withRef m cmd 0x14 r false (fun d =>
      let id := lowestFree (m.hs.regions.map (·.id))
      if !pageListOk d then refuse m t cmd.cid 0x14 0x0F02 0
      else if 1048576 < regionPages m + d.length / 8 ∨ 0xFFFF < id then refuse m t cmd.cid 0x14 0x0502 0
      else
        let g : HostRegion := { id, owner := t, pages := (List.range (d.length / 8)).map (fun i => byteFld d (8 * i) 8) }
        complete { m with hs := { m.hs with regions := m.hs.regions ++ [g] } } t cmd.cid 0x14 0 id 0)))

/-- HOSTMEM_UNREG (R679). -/
def execHostmemUnreg (cmd : CmdCtx) (region : Nat) (s : State) : Host.Outcome State Fault Refusal :=
  s.effect (fun m => beginCmd m cmd 0x15 0x0F02 (naming (objKey 2 region)) (fun m =>
    let t := cmd.q.val
    match m.hs.regions.find? (fun g => g.id == region && g.owner == t) with
    | none => refuse m t cmd.cid 0x15 0x0F02 0
    | some g =>
      if regionFree m g ≠ g.pages.length then refuse m t cmd.cid 0x15 0x0F07 0
      else complete { m with hs := { m.hs with regions := m.hs.regions.filter (·.id != region) } } t cmd.cid 0x15 0 0 0))

/-! ## Commands that move data -/

/-- Earlier data commands that hold one of a range back (R674): an overlapping range of the same allocation, one of the two a write. -/
def overlapping (h off n : Nat) (write : Bool) (c : RunCmd) : Bool :=
  (c.op == 0x12 || (c.op == 0x13 && write)) && c.objs.contains (objKey 1 h) && decide (c.lo < off + n ∧ off < c.hi)

/-- HOST_WRITE (R230, R273, R281, R298, R674, R676). -/
def execHostWrite (cmd : CmdCtx) (h off : Nat) (r : BufRef) (s : State) : Host.Outcome State Fault Refusal :=
  s.effect (fun m => beginCmd m cmd 0x12 0x0F02 (overlapping h off (refLen r) true) (fun m =>
    let t := cmd.q.val
    match ownAlloc m t h with
    | none => refuse m t cmd.cid 0x12 0x0F02 0
    | some a =>
      if off % 64 ≠ 0 ∨ a.size < off + refLen r then refuse m t cmd.cid 0x12 0x0F02 0
      else withRef m cmd 0x12 r true (fun bs =>
        if m.fl.readOnly ∧ (cutPages (bs.length / pageSize + 2) off bs).any (fun p => inFlash a (p.1 / pageSize)) then refuse m t cmd.cid 0x12 0x0601 0
        else taking (writeAlloc m a off bs t cmd.cid none) t cmd.cid 0x12 0 [objKey 1 h] off (off + bs.length))))

/-- HOST_READ (R266, R283, R674, R676); `reads` counts the flash pages read, by block. -/
def execHostRead (cmd : CmdCtx) (h off : Nat) (r : BufRef) (reads : List (Nat × Nat)) (s : State) : Host.Outcome State Fault Refusal :=
  s.effect (fun m => beginCmd m cmd 0x13 0x0F02 (overlapping h off (refLen r) false) (fun m =>
    let t := cmd.q.val
    let n := refLen r
    match ownAlloc m t h with
    | none => refuse m t cmd.cid 0x13 0x0F02 0
    | some a =>
      if off % 64 ≠ 0 ∨ a.size < off + n then refuse m t cmd.cid 0x13 0x0F02 0
      else if !refOk m t r true then refuse m t cmd.cid 0x13 0x0F03 0
      else if poisoned a off n then refuse m t cmd.cid 0x13 (poisonFault a (off / pageSize)) 0
      else taking (writeRef (addReads m reads) t cmd.cid r (readAlloc m a off n)) t cmd.cid 0x13 0 [objKey 1 h] off (off + n)))

/-- The partitions of a byte range of the lighthouse SRAM, as objects. -/
def partObjs (a n : Nat) : List Nat := (List.range ((a + n - 1) / 0x4000 + 1 - a / 0x4000)).map (fun k => objKey 9 (a / 0x4000 + k))

/-- LH_MEM_WRITE (R353, R676). -/
def execLhMemWrite (cmd : CmdCtx) (addr : Nat) (r : BufRef) (s : State) : Host.Outcome State Fault Refusal :=
  s.effect (fun m => beginCmd m cmd 0x3C 0x0F02 noWait (fun m =>
    let t := cmd.q.val
    if 0x100000 < addr + refLen r then refuse m t cmd.cid 0x3C 0x0F02 0
    else if !lhRangeOk m t addr (refLen r) then refuse m t cmd.cid 0x3C 0x0D01 0
    else withRef m cmd 0x3C r false (fun bs => taking (lhWrite m addr bs) t cmd.cid 0x3C 0 (partObjs addr bs.length) 0 0)))

/-- LH_MEM_READ (R353, R676). -/
def execLhMemRead (cmd : CmdCtx) (addr : Nat) (r : BufRef) (s : State) : Host.Outcome State Fault Refusal :=
  s.effect (fun m => beginCmd m cmd 0x3D 0x0F02 noWait (fun m =>
    let t := cmd.q.val
    let n := refLen r
    if 0x100000 < addr + n then refuse m t cmd.cid 0x3D 0x0F02 0
    else if !lhRangeOk m t addr n then refuse m t cmd.cid 0x3D 0x0D01 0
    else if !refOk m t r false then refuse m t cmd.cid 0x3D 0x0F03 0
    else taking (writeRef m t cmd.cid r (lhRead m addr n)) t cmd.cid 0x3D 0 (partObjs addr n) 0 0))

/-- RUN_NOTIFY (R677): each tenant has a setting of its own for every slot, whichever entry the slot holds. -/
def execRunNotify (cmd : CmdCtx) (slot : Nat) (on : Bool) (s : State) : Host.Outcome State Fault Refusal :=
  s.effect (fun m => beginCmd m cmd 0x40 0x0F02 noWait (fun m =>
    let t := cmd.q.val
    if 255 ≤ slot then refuse m t cmd.cid 0x40 0x0F02 0
    else complete { m with hs := { m.hs with notify := tabSet m.hs.notify (64 * slot + t) (b2n on) 0 } } t cmd.cid 0x40 0 0 0))

/-- NOP as a command (R676). -/
def nopCommand (m : Mach) (cmd : CmdCtx) : Mach := beginCmd m cmd 0x00 0x0F02 noWait (fun m => complete m cmd.q.val cmd.cid 0x00 0 0 0)

end Sys2Proof.Machine
end

