-- ==== Sys2Proof/Machine/Lighthouse.lean ====
section
/-!
DEFINITION. The lighthouse's registers and events between audio frames (R352–R389): partitions, the 32.768 kHz crystal and the RTC, capture
channels, the voice-activity detector, the mute, routing, touch, buttons, haptics and the resident host.
-/
namespace Sys2Proof.Machine

/-- x divided by a positive n, rounded to nearest, ties to even. -/
def rheDiv (x : Int) (n : Nat) : Int :=
  let q := x / (n : Int)
  let r := x % (n : Int)
  if 2 * r < n then q else if (n : Int) < 2 * r then q + 1 else if q % 2 = 0 then q else q + 1

/-! ## Partitions -/

/-- A write of LH_PART_OWNER_p (R353): partitions 0–7 are the firmware's; a new owner waits for the clearing. -/
def writePartOwner (m : Mach) (p v : Nat) : Mach :=
  if p < 8 ∨ m.fldOf (rLH_PART_OWNER p) 0 6 = v % 64 then m
  else
    let m := (endCmdsOn m (objKey 9 p)).setFldOf (rLH_PART_OWNER p) 0 6 v
    { m with lh := { m.lh with clearing := m.lh.clearing ||| 2 ^ p } }

/-- PARTITION_CLEAR_DONE (R353). -/
def execPartitionClearDone (p : Fin 64) (s : State) : Host.Outcome State Fault Refusal :=
  s.effect (fun m =>
    if !bit m.lh.clearing p.val then m
    else { m with lh := { m.lh with sram := tabClear m.lh.sram (0x4000 * p.val) 0x4000, clearing := m.lh.clearing - 2 ^ p.val } })

/-! ## The 32.768 kHz crystal and the RTC -/

/-- XTAL32_LOSS (R352). -/
def execXtal32Loss (s : State) : Host.Outcome State Fault Refusal :=
  s.effect (fun m => if m.flagOf rLH_STATUS 0 then m else raiseD (m.setFlagOf rLH_STATUS 0 true) 0x0806 0)

/-- XTAL32_RELOCK (R352, R705). -/
def execXtal32Relock (s : State) : Host.Outcome State Fault Refusal :=
  s.effect (fun m => (m.setFlagOf rLH_STATUS 0 false).setFlagOf rEF_START 7 true)

/-- XTAL32_START_TIMEOUT (R696): the crystal has not locked since the start. -/
def execXtal32StartTimeout (s : State) : Host.Outcome State Fault Refusal :=
  s.effect (fun m => if m.flagOf rEF_START 7 ∨ !m.flagOf rLH_STATUS 0 then m else raiseD m 0x1003 0)

/-- A write of the RTC (R385): it takes effect at the next crystal edge. -/
def writeRtc (m : Mach) (v : Nat) : Mach := { m with lh := { m.lh with rtc := { m.lh.rtc with count := v % 2 ^ 64, frac := 0 } } }

/-- The RTC's count over one audio frame (R350, R385): 4,096/125 counts, trimmed in units of 2⁻²⁰. -/
def runRtc (m : Mach) : Mach :=
  let r := m.lh.rtc
  let step := ((4096 * (2 ^ 20 + signedOf 16 (m.regN rLH_RTC_TRIM)) : Int)).toNat
  let unit := 125 * 2 ^ 20
  let n := (r.frac + step) / unit
  let alarm := m.reg64 rLH_RTC_ALARM_LO
  let per := m.regN rLH_RTC_PERIOD
  let since := r.sincePeriod + n
  let hit := (List.range n).any (fun k => (r.count + k + 1) % 2 ^ 64 == alarm)
  let r := { r with count := (r.count + n) % 2 ^ 64, frac := (r.frac + step) % unit, alarmDue := r.alarmDue || hit,
                    sincePeriod := if per = 0 then 0 else since % per, periodDue := if per = 0 then 0 else r.periodDue + since / per }
  { m with lh := { m.lh with rtc := r } }

/-- The RTC reached the alarm: the event (R385). -/
def rtcAlarm (m : Mach) : Mach :=
  if !m.lh.rtc.alarmDue then m
  else postEvent { m with lh := { m.lh with rtc := { m.lh.rtc with alarmDue := false } } } 0x8600 0

/-- The RTC's period elapsed: the event (R385). -/
def rtcPeriod (m : Mach) : Mach :=
  if m.lh.rtc.periodDue = 0 then m
  else postEvent { m with lh := { m.lh with rtc := { m.lh.rtc with periodDue := m.lh.rtc.periodDue - 1 } } } 0x8601 0

/-- RTC_ALARM (R385). -/
def execRtcAlarm (s : State) : Host.Outcome State Fault Refusal := s.effect rtcAlarm

/-- RTC_PERIOD (R385). -/
def execRtcPeriod (s : State) : Host.Outcome State Fault Refusal := s.effect rtcPeriod

/-! ## Capture channels -/

/-- Samples of a frame by RATE (R364, R365). -/
def rateSamples (rate : Nat) : Nat := [8, 16, 24, 48].getD (rate % 4) 8

/-- R364 accepts a rate with a divisor, and a gain of at most 5. -/
def capOk (div rate gain : Nat) : Bool :=
  (div == 1 || (div == 2 && decide (rate ≤ 2)) || (div == 3 && decide (rate ≤ 1))) && decide (gain ≤ 5)

/-- The AUDIO context of a channel (R406). -/
def capCtx (m : Mach) (c : Nat) : Option Nat := (List.range 48).find? (fun n => strKind m n == 1 && strSource m n == c)

/-- A channel is disabled and its context released (R364). -/
def capOff (m : Mach) (c : Nat) : Mach :=
  let m := m.setFlagOf (rLH_CAP_CFG c) 0 false
  match capCtx m c with
  | some n => freeStream m n
  | none => m

/-- A write of LH_CAP_CFG_c (R364). -/
def writeCapCfg (m : Mach) (c : Nat) (v : Word) : Mach :=
  let was := m.flagOf (rLH_CAP_CFG c) 0
  let m := m.setReg (rLH_CAP_CFG c) (setFlag v 0 was)
  if !flag v 0 then (if was then capOff m c else m)
  else if !capOk (m.fldOf rLH_PDM_CFG 0 2) (fld v 1 2) (fld v 3 3) then (capOff m c).setFlagOf rLH_STATUS 2 true
  else if was then m
  else match freeCtx m with
    | none => raiseT m 0x0805 0 c
    | some n =>
      let r := m.reg (rLH_CAP_RING c)
      takeCtx (m.setFlagOf (rLH_CAP_CFG c) 0 true) n 1 (fld v 8 6) 0 1 c (fld r 7 13 * 128) (fld r 20 10)

/-- A write of LH_PDM_CFG (R364, R392): DIV of 0 is discarded; a channel whose rate the divisor does not give is disabled. -/
def writePdmCfg (m : Mach) (v : Nat) : Mach :=
  if v % 4 = 0 then m
  else
    let m := m.setFldOf rLH_PDM_CFG 0 2 v
    (List.range 8).foldl (fun m c =>
      let w := m.reg (rLH_CAP_CFG c)
      if flag w 0 ∧ !capOk (v % 4) (fld w 1 2) (fld w 3 3) then (capOff m c).setFlagOf rLH_STATUS 2 true else m) m

/-- A mirror copy was missed (R366). -/
def missMirror (c : Nat) (m : Mach) : Mach :=
  let m := m.satFld (rLH_CAP_MISSED c) 0 32 1
  if bit m.lh.mirRaised c then m
  else raiseT { m with lh := { m.lh with mirRaised := m.lh.mirRaised ||| 2 ^ c } } 0x0809 (m.fldOf (rLH_CAP_CFG c) 8 6) c

/-- MIRROR_COPY (R366): the oldest record of a channel that waits for its mirror. -/
def execMirrorCopy (c : Fin 8) (s : State) : Host.Outcome State Fault Refusal := s.effect (fun m => ringWrite m c.val true (missMirror c.val))

/-! ## The voice-activity detector -/

/-- A write of LH_VAD_CFG (R367, R369). -/
def writeVadCfg (m : Mach) (v : Word) : Mach :=
  let was := m.flagOf rLH_VAD_CFG 0
  let h := fld v 8 8
  let m := if 4 ≤ h ∧ h ≤ 32 then m.setFldOf rLH_VAD_CFG 8 8 h else m
  let m := m.setFldOf rLH_VAD_CFG 16 8 (fld v 16 8)
  let n := popCount (fld v 16 8) 8
  let ok := decide (1 ≤ n ∧ n ≤ 4)
  let m := if flag v 0 ∧ !ok then m.setFlagOf rLH_STATUS 2 true else m
  let en := flag v 0 && ok
  let m := m.setFlagOf rLH_VAD_CFG 0 en
  if en ∧ !was then { m with lh := { m.lh with vad := { m.lh.vad with hop := false, frames := 0, xs := [], prev := 0, first := true, pend := none } } }
  else if !en ∧ was then { m with lh := { m.lh with vad := { m.lh.vad with hop := false, frames := 0, xs := [], pend := none } } }
  else m

/-- lg of R368: Q8.8 of the logarithm of a positive number. -/
def lgOf (u : Nat) : Int :=
  let k := Nat.log2 u
  ((256 * k + (u - 2 ^ k) * 256 / 2 ^ k : Nat) : Int)

/-- The confidence of a hop of H frames and the next noise floor (R368). -/
def vadConf (m : Mach) (q : Vad) : Nat × Int :=
  let xs := q.xs
  let ds := (xs.zip (q.prev :: xs))
  let e := lgOf (1 + (xs.map (fun x => (x * x).toNat)).foldl (· + ·) 0)
  let d := lgOf (1 + (ds.map (fun p => ((p.1 - p.2) * (p.1 - p.2)).toNat)).foldl (· + ·) 0)
  let z := (ds.filter (fun p => decide (0 ≤ p.1) != decide (0 ≤ p.2))).length
  let zf : Int := (256 * z / max 1 q.h : Nat)
  let n := if q.first then e else q.floor
  let s16 := fun a lo => signedOf 16 (m.fldOf a lo 16)
  let s := (s16 rLH_VAD_W 0 * (e - n) + s16 rLH_VAD_W 16 * (d - e) + s16 rLH_VAD_W2 0 * zf) / 256
  let conf := max 0 (min 65535 (s + s16 rLH_VAD_W2 16))
  (conf.toNat, if e < n then e else min (n + (m.fldOf rLH_VAD_NF 0 16 : Nat)) e)

/-- The hop's confidence is published, 64 AON cycles after its end, while the VAD is enabled (R369). -/
def vadPublish (m : Mach) : Mach :=
  match m.lh.vad.pend with
  | none => m
  | some (t, conf, nf) =>
    let m := advanceTo m t
    let m := { m with lh := { m.lh with vad := { m.lh.vad with pend := none, floor := nf, first := false } } }
    let m := m.setRegN rLH_VAD_CONF conf
    ((m.cas.filter (fun c => c.armed && (c.stage 0).kind == 1)).map (·.tenant)).foldl (fun m k => publish m k 0 conf m.clk.now) m

/-- VAD_PUBLISH (R369). -/
def execVadPublish (s : State) : Host.Outcome State Fault Refusal := s.effect vadPublish

/-! ## The mute -/

/-- A context that R371 lets write MUTE. -/
def muteWriter (m : Mach) (t : Nat) : Bool := t == 0 || (m.flagOf rLH_MUTE_DELEGATE 8 && m.fldOf rLH_MUTE_DELEGATE 0 6 == t)

/-- A change of MUTE is logged and posted (R374, R386). -/
def logMute (m : Mach) (t : Nat) (mute : Bool) : Mach :=
  let n := (m.lh.muteCount + 1) % 2 ^ 32
  let m := { m with lh := { m.lh with muteCount := n } }
  let m := (m.setRegN rLH_MUTE_LOG (n % 2 ^ 24 + 2 ^ 24 * t)).setReg64 rLH_MUTE_TICK_LO m.clk.tick
  postEvent m (if mute then 0x8C00 else 0x8C01) t

/-- A write of LH_MIC_MUTE by a tenant (R371–R374). -/
def writeMute (m : Mach) (t : Nat) (v : Word) : Mach :=
  if !muteWriter m t then
    raiseT (accessError (m.setRegN rLH_MUTE_DENIED (m.regN rLH_MUTE_DENIED + 1)) 2) 0x080A 0 t
  else
    let settle := fld v 8 6
    let m := if t = 0 ∧ 2 ≤ settle then m.setFldOf rLH_MIC_MUTE 8 6 settle else m
    let was := m.flagOf rLH_MIC_MUTE 0
    let mute := flag v 0
    if mute = was then m
    else
      let m := m.setFlagOf rLH_MIC_MUTE 0 mute
      let l := m.lh
      let m :=
        if mute then { m with lh := { l with muteAt := some (l.muteAt.getD m.clk.now), mutedPart := true, restart := false, settle := 0 } }
        else { m with lh := { l with mutedPart := true, restart := true } }
      logMute (if mute then m.emit (.pin "PDM_CLK" 0) else m) t mute

/-! ## Routing -/

/-- A write of AU_COMMIT (R379, R397). -/
def writeAuCommit (m : Mach) (v : Word) : Mach :=
  if !flag v 0 then m
  else
    let m := if m.lh.commit.isSome then m.setRegN rAU_COMMIT_LOST (m.regN rAU_COMMIT_LOST + 1) else m
    ({ m with lh := { m.lh with commit := some (flag v 1) } } : Mach).setFlagOf rAU_STATUS 0 true

/-- A write of AU_CFG (R393). -/
def writeAuCfg (m : Mach) (v : Word) : Mach :=
  if m.flagOf rAU_CFG 0 then m.setFlagOf rAU_CFG 0 (flag v 0)
  else if !flag v 0 then m.setReg rAU_CFG v
  else
    let bad := flag v 4 && !flag v 3
    (m.setReg rAU_CFG (setFlag v 0 (!bad))).setFlagOf rAU_STATUS 3 bad

/-- A write of AU_PB_BASE_p (R393): enabling sets RP to WP. -/
def writePbBase (m : Mach) (p : Nat) (v : Word) : Mach :=
  if m.flagOf (rAU_PB_BASE p) 0 then m.setFlagOf (rAU_PB_BASE p) 0 (flag v 0)
  else
    let m := m.setReg (rAU_PB_BASE p) v
    if flag v 0 then
      let m := m.setRegN (rAU_PB_RP p) (m.regN (rAU_PB_WP p))
      { m with lh := { m.lh with starved := m.lh.starved &&& (255 - 2 ^ p) } }
    else m

/-- Bytes of a playback ring, and of a sample of it (R393). -/
def pbSize (m : Mach) (p : Nat) : Nat := (m.fldOf (rAU_PB_BASE p) 20 12 + 1) * 64
def pbSample (m : Mach) (p : Nat) : Nat := if m.flagOf (rAU_PB_BASE p) 1 then 4 else 2

/-- A write of AU_PB_WP_p by its owner (R377, R393). -/
def writePbWp (m : Mach) (p v : Nat) : Mach :=
  if pbSize m p ≤ v ∨ v % pbSample m p ≠ 0 then m else m.setRegN (rAU_PB_WP p) v

/-! ## Touch -/

/-- What is kept for a touch channel, and the machine with it set. -/
def touchCh (m : Mach) (n : Nat) : TouchCh := tabGet m.lh.touch.chans n TouchCh.init
def setTouchCh (m : Mach) (n : Nat) (c : TouchCh) : Mach :=
  { m with lh := { m.lh with touch := { m.lh.touch with chans := tabSet m.lh.touch.chans n c TouchCh.init } } }

/-- A scan starts on the enabled channels (R380). -/
def startScan (m : Mach) : Mach :=
  let on := (List.range 8).filter (fun n => m.flagOf (rLH_TOUCH_CH n) 0)
  { m with lh := { m.lh with touch := { m.lh.touch with left := on, running := !on.isEmpty, queued := false, abort := false, began := m.clk.now } } }

/-- A scan trigger (R380, R381). -/
def triggerScan (m : Mach) : Mach :=
  let t := m.lh.touch
  let lost := fun (m : Mach) => m.setRegN rLH_TOUCH_OVR (m.regN rLH_TOUCH_OVR + 1)
  if !t.running then startScan m
  else match m.fldOf rLH_TOUCH_CFG 12 2 with
    | 0 => if t.queued then lost m else { m with lh := { m.lh with touch := { t with queued := true } } }
    | 2 => lost { m with lh := { m.lh with touch := { t with abort := true } } }
    | _ => lost m

/-- A write of LH_TOUCH_CFG (R380, R392). -/
def writeTouchCfg (m : Mach) (v : Word) : Mach :=
  let meas := fld v 0 11
  let per := fld v 16 10
  let m := if 64 ≤ meas ∧ meas ≤ 1024 then m.setFldOf rLH_TOUCH_CFG 0 11 meas else m
  let m := m.setFldOf rLH_TOUCH_CFG 12 2 (fld v 12 2)
  let m := if per ≤ 1000 then m.setFldOf rLH_TOUCH_CFG 16 10 per else m
  if flag v 14 then triggerScan m else m

/-- A write of LH_TOUCH_CH_n (R380): enabling starts the channel afresh. -/
def writeTouchCh (m : Mach) (n : Nat) (v : Word) : Mach :=
  let was := m.flagOf (rLH_TOUCH_CH n) 0
  let m := m.setFldOf (rLH_TOUCH_CH n) 0 4 (fld v 0 4)
  if flag v 0 ∧ !was then setTouchCh m n TouchCh.init else m

/-- TOUCH_SCAN_TIMER (R380): every PERIOD frames. -/
def touchTimer (m : Mach) : Mach :=
  if !m.lh.touch.due then m else triggerScan { m with lh := { m.lh with touch := { m.lh.touch with due := false } } }

/-- TOUCH_SCAN_TIMER (R380). -/
def execTouchScanTimer (s : State) : Host.Outcome State Fault Refusal := s.effect touchTimer

/-- The evaluation of a channel's count (R380). -/
def evalTouch (m : Mach) (n : Nat) (cnt : Nat) : Mach :=
  let c := touchCh m n
  let w := m.reg (rLH_TOUCH_CH n)
  let th : Int := m.fldOf (rLH_TOUCH_TH n) 0 16
  let hy : Int := m.fldOf (rLH_TOUCH_TH n) 16 16
  let deb := fld w 1 3 + 1
  let v : Int := cnt
  let (c, touched) := if c.first then ({ base := v, n := 0, first := false : TouchCh }, false) else (c, flag w 8)
  let delta := v - c.base
  let m := m.setFlagOf (rLH_TOUCH_CH n) 8 touched
  if !touched then
    if th ≤ delta then
      if c.n + 1 = deb then postEvent ((setTouchCh m n { c with n := 0 }).setFlagOf (rLH_TOUCH_CH n) 8 true) (0x8200 + n) 0
      else setTouchCh m n { c with n := c.n + 1 }
    else setTouchCh m n { c with n := 0, base := c.base + delta / 16 }
  else if delta < th - hy then
    if c.n + 1 = deb then postEvent ((setTouchCh m n { c with n := 0 }).setFlagOf (rLH_TOUCH_CH n) 8 false) (0x8300 + n) 0
    else setTouchCh m n { c with n := c.n + 1 }
  else setTouchCh m n { c with n := 0 }

/-- TOUCH_MEASUREMENT_END (R380, R381): an aborted scan evaluates nothing more, and a new one starts. -/
def touchEnd (m : Mach) (cnt : Nat) : Mach :=
  let t := m.lh.touch
  match t.left with
  | [] => m
  | n :: ns =>
    let m := advanceTo m (t.began + aonToRef (m.fldOf rLH_TOUCH_CFG 0 11))
    let m := m.setFldOf (rLH_TOUCH_CH n) 16 16 cnt
    if t.abort then startScan m
    else
      let m := if m.flagOf (rLH_TOUCH_CH n) 0 then evalTouch m n cnt else m
      if !ns.isEmpty then { m with lh := { m.lh with touch := { m.lh.touch with left := ns, began := m.clk.now } } }
      else
        let m := { m with lh := { m.lh with touch := { m.lh.touch with left := [], running := false } } }
        if t.queued then startScan m else m

/-- TOUCH_MEASUREMENT_END (R380). -/
def execTouchMeasurementEnd (cnt : BitVec 16) (s : State) : Host.Outcome State Fault Refusal := s.effect (fun m => touchEnd m cnt.toNat)

/-! ## Buttons -/

/-- What is kept for a button. -/
def btn (m : Mach) (b : Nat) : Btn := tabGet m.lh.btns b Btn.init

/-- A device time lies in the blind window of a lowering's handshake: AON cycles 1 to 4 (R495, R497). -/
def blindAt (m : Mach) (t : Nat) : Bool :=
  m.pm.trans.any (fun x => decide (x.src < x.tgt ∧ x.begun + 13 ≤ t ∧ t < x.begun + 50))

/-- A pad is a direct pad of a mode: 0 LEVEL, 1 EDGE (R382). -/
def directPad (m : Mach) (b mode : Nat) : Bool :=
  let w := m.reg (rLH_BTN_CFG b)
  flag w 0 && flag w 3 && fld w 2 1 == mode

/-- A direct pad reaches the power controller (R382, R499). -/
def padWake (m : Mach) (b : Nat) : Mach := wake m { cls := 0x7F, index := b, cascade := false }

/-- An edge-mode pad that was active from within a blind window to its end is an edge (R497, R505). -/
def lateEdge (m : Mach) (b : Nat) : Mach :=
  let x := btn m b
  if directPad m b 1 ∧ x.level = m.flagOf (rLH_BTN_CFG b) 1 ∧ blindAt m x.since ∧ !blindAt m m.clk.now then padWake m b else m

/-- BUTTON_INPUT (R382, R497): the pads of an unpowered bank read 0 (R723). -/
def buttonInput (m : Mach) (b : Nat) (level : Bool) : Mach :=
  if (btn m b).level = level ∨ !m.pd.vioA then m
  else
    let m := lateEdge m b
    let m := { m with lh := { m.lh with btns := tabSet m.lh.btns b { level, since := m.clk.now } Btn.init } }
    let active := level == m.flagOf (rLH_BTN_CFG b) 1
    if active ∧ (directPad m b 0 ∨ (directPad m b 1 ∧ !blindAt m m.clk.now)) then padWake m b else m

/-- BUTTON_INPUT (R382). -/
def execButtonInput (b : Fin 8) (level : Bool) (s : State) : Host.Outcome State Fault Refusal := s.effect (fun m => buttonInput m b.val level)

/-- BUTTON_DEBOUNCED (R382): a level has held for the debounce time; in EDGE mode only presses post events. -/
def buttonDebounced (m : Mach) (b : Nat) : Mach :=
  let w := m.reg (rLH_BTN_CFG b)
  let x := btn m b
  let pressed := x.level == flag w 1
  if !flag w 0 ∨ pressed = flag w 16 then m
  else
    let m := advanceTo m (x.since + 38400 * fld w 8 8)
    let m := m.setFlagOf (rLH_BTN_CFG b) 16 pressed
    if pressed then postEvent m (0x8400 + b) 0 else if flag w 2 then m else postEvent m (0x8500 + b) 0

/-- BUTTON_DEBOUNCED (R382). -/
def execButtonDebounced (b : Fin 8) (s : State) : Host.Outcome State Fault Refusal := s.effect (fun m => buttonDebounced m b.val)

/-! ## Haptics -/

/-- What is kept for a haptic driver, and the machine with it set and shown in LH_HAP_CTRL_h. -/
def hap (m : Mach) (h : Nat) : Haptic := tabGet m.lh.haps h Haptic.init
def setHap (m : Mach) (h : Nat) (x : Haptic) : Mach :=
  let m := { m with lh := { m.lh with haps := tabSet m.lh.haps h x Haptic.init } }
  (m.setFlagOf (rLH_HAP_CTRL h) 8 x.playing).setFldOf (rLH_HAP_CTRL h) 9 5 x.step

/-- A write of LH_HAP_CTRL_h (R383, R393): STOP goes before GO. -/
def writeHapCtrl (m : Mach) (h : Nat) (v : Word) : Mach :=
  let x := hap m h
  if flag v 1 then setHap m h { x with stop := true, go := false }
  else if flag v 0 ∧ 64 ≤ m.fldOf (rLH_HAP_CFG h) 0 16 then setHap m h { x with go := true, stop := false }
  else m

/-- The PWM of a driver changes: its duty in 1/256 of the period, and the period (R383). -/
def hapOut (m : Mach) (h duty : Nat) : Mach := if !m.pd.vioA then m else m.emit (.pin (if h = 0 then "HAPT0" else "HAPT1") (duty + 256 * m.fldOf (rLH_HAP_CFG h) 0 16))

/-- A step of a pattern begins (R383). -/
def hapStep (m : Mach) (h step reps : Nat) : Mach :=
  let w := m.reg (rLH_HAP_STEP h step)
  hapOut (setHap m h { playing := true, step, left := max 1 (fld w 8 8), reps, go := false, stop := false }) h (fld w 0 8)

/-- HAPTIC_STEP_END (R383): the step's frames are over; the next step, the next repeat, or the end. -/
def hapticStepEnd (m : Mach) (h : Nat) : Mach :=
  let x := hap m h
  if !x.playing ∨ x.left ≠ 0 then m
  else
    let last := m.flagOf (rLH_HAP_STEP h x.step) 16 || x.step == 31
    if !last then hapStep m h (x.step + 1) x.reps
    else if x.reps ≠ 0 then hapStep m h 0 (x.reps - 1)
    else hapOut (setHap m h { x with playing := false, step := 0 }) h 0

/-- HAPTIC_STEP_END (R383). -/
def execHapticStepEnd (h : Fin 2) (s : State) : Host.Outcome State Fault Refusal := s.effect (fun m => hapticStepEnd m h.val)

/-- A driver at an audio frame boundary (R383): a step's frames count down, STOP and GO take effect. -/
def hapFrame (m : Mach) (h : Nat) : Mach :=
  let m := hapticStepEnd m h
  let x := hap m h
  let m := if x.playing then setHap m h { x with left := x.left - 1 } else m
  let x := hap m h
  if x.stop then hapOut (setHap m h { Haptic.init with go := x.go }) h 0
  else if x.go then hapStep m h 0 (m.fldOf (rLH_HAP_CFG h) 16 8)
  else m

/-! ## Resident host -/

/-- The queue pairs that LH_RH_TENANTS asks the lighthouse to serve. -/
def rhWanted (m : Mach) : Nat := m.reg64 rLH_RH_TENANTS_LO

/-- RH_PENDING follows what is asked and what is served (R389). -/
def showRh (m : Mach) : Mach := m.setFlagOf rLH_STATUS 3 (rhWanted m != m.hs.resident)

/-- RESIDENT_HOST_SWITCH (R389): the change of one queue pair, once it has no command outstanding. -/
def rhSwitch (m : Mach) (t : Nat) : Mach :=
  let want := bit (rhWanted m) t
  if want = isResident m t ∨ outstanding m t ≠ 0 then m
  else showRh { m with hs := { m.hs with resident := if want then m.hs.resident + 2 ^ t else m.hs.resident - 2 ^ t } }

/-- RESIDENT_HOST_SWITCH (R389). -/
def execResidentHostSwitch (t : Fin 64) (s : State) : Host.Outcome State Fault Refusal := s.effect (fun m => rhSwitch m t.val)

/-- A write of LH_RH_TENANTS (R389): queue pairs without a command outstanding change at once. -/
def writeRh (m : Mach) (v : Nat) : Mach := (List.range 64).foldl rhSwitch (showRh (m.setReg64 rLH_RH_TENANTS_LO v))

/-! ## Stores of a task -/

/-- The earliest access of a task's run that is pending is a store to an address that satisfies a test. -/
def nextStore (r : SlotRun) (p : Nat → Bool) : Bool :=
  (nextCycle r).any (fun k => r.accs.any (fun a => a.cyc == k && (match a.act with | .store x _ _ => p x.toNat | _ => false)))

/-- MICRO_ARRAY_START (R360): the store to the command block that a task has issued takes place. -/
def execMicroArrayStart (h : Fin 128) (s : State) : Host.Outcome State Fault Refusal :=
  s.effect (fun m => if (findRun m (256 + h.val)).any (fun r => nextStore r (· == 0x100000)) then resultLand m (256 + h.val) else m)

/-- STAGE1_PUBLISH (R361): the store to the publication port that a task has issued takes place. -/
def execStage1Publish (h : Fin 128) (s : State) : Host.Outcome State Fault Refusal :=
  s.effect (fun m => if (findRun m (256 + h.val)).any (fun r => nextStore r (· == 0x100100)) then resultLand m (256 + h.val) else m)

end Sys2Proof.Machine
end

