-- ==== Sys2Proof/Machine/Frame.lean ====
section
/-!
DEFINITION. The audio frame (R350): what ends with a frame and what begins with the next, and the shares of lighthouse tasks (R357–R359).
-/
namespace Sys2Proof.Machine

/-! ## Task shares -/

/-- A share ends (R358): a task that has not issued END is truncated. -/
def endShare (m : Mach) (id : Nat) : Mach :=
  match findRun m id with
  | none => m
  | some r =>
    let m := advanceTo m (lhTime m (r.start + r.length))
    let (m, r) := closeRun m r
    if r.reachedEnd then m else raiseT m 0x0801 r.tenant 0

/-- TASK_SHARE_END (R358). -/
def execTaskShareEnd (h : Fin 128) (s : State) : Host.Outcome State Fault Refusal := s.effect (fun m => endShare m (256 + h.val))

/-- Every share of the frame that ends has ended. -/
def endShares (m : Mach) : Mach := ((m.st.runs.filter (·.isTask)).map (·.id)).foldl endShare m

/-- A task is runnable in a frame (R359, R362). -/
def runnable (m : Mach) (t : LhTask) : Bool := t.role == 1 || (cascOf m t.tenant).any (fun c => c.armed && (c.stage 1).kind == 2 && (c.stage 1).st == 2)

/-- The run of a task's share: from word 0, with its registers as they stand (R358). -/
def taskRun (t : LhTask) (start : Nat) : SlotRun :=
  { id := 256 + t.h, tenant := t.tenant, start, length := t.share, berths := 0, quad := 0, vec := 0, seqs := 0, cascade := false, stage := 0,
    spec := false, manifest := 0, inputs := 0, choice := 0,
    streams := [{ seq := 0, clusters := [], code := t.code, pc := 0, done := 0, cyc := 0, loops := [], delay := none, ctl := .none, ended := false,
                  busyT := 0, busyV := 0, busyM := 0 }],
    lands := [], accs := [], holds := [], nextHold := 0, ranged := [], ported := [], maBusy := 0, records := [], pilots := [], cut := false, skip := 0, heat := [] }

/-- Tasks in the order of their shares (R357): by tenant, STAGE1 before GENERAL. -/
def taskOrder (m : Mach) : List LhTask := sortOn (fun t => 2 * t.tenant + t.role) m.lh.tasks

/-- The shares of a frame begin after the firmware's 2,048 cycles (R357). -/
def startShares (m : Mach) : Mach :=
  (((taskOrder m).filter (runnable m)).foldl (fun (p : Mach × Nat) t =>
    ({ p.1 with st := { p.1.st with runs := p.1.st.runs ++ [taskRun t p.2] } }, p.2 + t.share)) (m, 2048)).1

/-! ## Capture -/

/-- Whether sample `i` of `n` in the frame counts as zero (R372, R373): it lies at or after the mute point, or the frame settles. -/
def isSilent (m : Mach) (n i : Nat) : Bool :=
  decide (0 < m.lh.settle) || m.lh.muteAt.any (fun t => decide (t ≤ m.lh.frameStart + i * 38400 / n))

/-- The samples of channel `c` over the frame that ends, after mute, gain and saturation, and whether one was clipped (R364, R372). -/
def capSamples (m : Mach) (f : FrameIn) (c : Nat) : List Int × Bool :=
  let w := m.reg (rLH_CAP_CFG c)
  let n := rateSamples (fld w 1 2)
  let raw := f.caps.getD c []
  let xs := (List.range n).map (fun i => if isSilent m n i then 0 else (raw.getD i 0).toInt * (2 ^ fld w 3 3 : Nat))
  (xs.map (satInt 16), xs.any (fun x => satInt 16 x != x))

/-- The record of a channel (R365). -/
def capRecord (m : Mach) (f : FrameIn) (c : Nat) : List Byte :=
  let n := rateSamples (m.fldOf (rLH_CAP_CFG c) 1 2)
  let (xs, clip) := capSamples m f c
  let flags := b2n m.lh.mutedPart + 2 * b2n (decide (0 < m.lh.settle)) + 4 * b2n (coarse m) + 8 * b2n clip
  let stamp := wrapInt 64 ((m.lh.frameStart : Int) - (12 * 38400 / n : Nat))
  slice (leBytes 4 (m.regN rLH_FRAME) ++ leBytes 8 stamp ++ leBytes 1 c ++ leBytes 1 flags ++ leBytes 2 n ++ List.replicate 16 0 ++
    xs.flatMap (fun x => leBytes 2 (wrapInt 16 x))) 0 128

/-- A mirror's allocation (R366): of the owner, with flags that set only TIER_D. -/
def mirrorAlloc (m : Mach) (owner h : Nat) : Option Alloc := (ownAlloc m owner h).filter (fun a => a.flags == 1 && decide (128 ≤ a.size))

/-- A channel's record of the frame that ends is written, mirrored and forwarded (R365, R366, R638). -/
def capture (f : FrameIn) (m : Mach) (c : Nat) : Mach :=
  let w := m.reg (rLH_CAP_CFG c)
  let r := m.reg (rLH_CAP_RING c)
  if !flag w 0 ∨ !bit m.lh.capOn c then m
  else
    let rec' := capRecord m f c
    let owner := fld w 8 6
    match capCtx m c with
    | none => m
    | some n =>
      let k := (sctx m n).count
      let at' := fld r 7 13 * 128 + k % (fld r 20 10 + 1) * 128
      let m := setSctx m n { sctx m n with count := k + 1 }
      let m := if lhRangeOk m owner at' 128 then lhWrite m at' rec' else m
      let m :=
        if !flag w 6 then m
        else match mirrorAlloc m owner (m.regN (rLH_CAP_MIRROR c)) with
          | none => missMirror c m
          | some a => queueRing m c true a.h a.gen (k % (a.size / 128) * 128) rec'
      forwardPeers m n (strOwner m n) 4 13 4 rec'

/-! ## The VAD -/

/-- The VAD's samples of the frame that ends (R367): the mean of the latched microphones, ties to even. -/
def vadSamples (m : Mach) (f : FrameIn) : List Int :=
  let mics := bitList m.lh.vad.mics 8
  (List.range 16).map (fun i =>
    if isSilent m 16 i then 0
    else rheDiv ((mics.map (fun c => ((f.vad.getD c []).getD i 0).toInt)).foldl (· + ·) 0) (max 1 mics.length))

/-- The hop takes the frame; at its end its confidence is computed, to be published 64 AON cycles later (R367–R369). -/
def vadEnd (m : Mach) (f : FrameIn) : Mach :=
  let q := m.lh.vad
  if !q.hop then m
  else
    let q := { q with xs := q.xs ++ vadSamples m f, frames := q.frames + 1 }
    if q.frames < q.h then { m with lh := { m.lh with vad := q } }
    else
      let (conf, nf) := vadConf m q
      { m with lh := { m.lh with vad := { q with hop := false, frames := 0, prev := q.xs.getLastD 0, xs := [],
                                                 pend := some (m.clk.now + aonToRef 64, conf, nf) } } }

/-- A hop begins at a boundary, with H and MICS as they stand (R367). -/
def vadStart (m : Mach) : Mach :=
  if !m.flagOf rLH_VAD_CFG 0 ∨ m.lh.vad.hop then m
  else { m with lh := { m.lh with vad := { m.lh.vad with hop := true, frames := 0, xs := [], h := m.fldOf rLH_VAD_CFG 8 8, mics := m.fldOf rLH_VAD_CFG 16 8 } } }

/-! ## Output -/

/-- The audio output runs: its domain and its port are on. -/
def outputOn (m : Mach) : Bool := isOn m 25 && m.flagOf rAU_CFG 0

/-- One sample of a playback stream, 24 bits (R377, R378): zero where it has run out of data. -/
def playOne (m : Mach) (p : Nat) : Int × Mach :=
  if !m.flagOf (rAU_PB_BASE p) 0 then (0, m)
  else
    let rp := m.regN (rAU_PB_RP p)
    if rp = m.regN (rAU_PB_WP p) then
      if bit m.lh.starved p then (0, m)
      else
        let m := ({ m with lh := { m.lh with starved := m.lh.starved ||| 2 ^ p } } : Mach).satFld (rAU_PB_UNDERRUN p) 0 16 1
        if bit m.lh.undRaised p then (0, m)
        else (0, raiseT { m with lh := { m.lh with undRaised := m.lh.undRaised ||| 2 ^ p } } 0x0808 (m.fldOf (rAU_PB_OWNER p) 0 6) p)
    else
      let n := pbSample m p
      let a := m.fldOf (rAU_PB_BASE p) 6 14 * 64 + rp
      let v := if lhRangeOk m (m.fldOf (rAU_PB_OWNER p) 0 6) a n then leNat (lhRead m a n) else 0
      let x := if n = 2 then signedOf 16 v * 256 else signedOf 24 v
      let m := m.setRegN (rAU_PB_RP p) ((rp + n) % pbSize m p)
      (x, { m with lh := { m.lh with starved := m.lh.starved &&& (255 - 2 ^ p) } })

/-- `n` samples of a playback stream. -/
def playN (p : Nat) : Nat → Mach → List Int × Mach
  | 0, m => ([], m)
  | n + 1, m =>
    let (x, m) := playOne m p
    let (xs, m) := playN p n m
    (x :: xs, m)

/-- The gain of an input to an output, active or next. -/
def gainOf (m : Mach) (i o : Nat) : Int := signedOf 16 (m.regN (rAU_MATRIX_ACTIVE (8 * i + o)))

/-- The sum of an output sample in the crossfade (R379): sample `n` of it, from the old gains to the new. -/
def fadeSum (old new : Int) (n : Nat) : Int := if n < 31 then rheDiv (old * (31 - n : Nat) + new * (n + 1 : Nat)) 32 else new

/-- The sample of an output from its sum (R378): 24 bits, or 16. -/
def outSample (m : Mach) (s : Int) : Nat :=
  let y := satInt 24 (rheDiv s 16384)
  if m.flagOf rAU_CFG 4 then wrapInt 24 y else wrapInt 16 (satInt 16 (rheDiv y 256))

/-- `n` samples of a crossfade pass (R379). -/
def fadeOn (m : Mach) (n : Nat) : Mach :=
  match m.lh.xfade with
  | none => m
  | some (g, d) =>
    let x := if d + n < 32 then some (g, d + n) else none
    ({ m with lh := { m.lh with xfade := x } } : Mach).setFlagOf rAU_STATUS 1 x.isSome

/-- The output of the frame that ends (R376–R379): a crossfade passes while the output is off as well. -/
def audioOut (m : Mach) (f : FrameIn) : Mach :=
  let rate := m.fldOf rAU_CFG 5 2
  let n := rateSamples rate
  if !outputOn m then fadeOn m n
  else
    let live := fun c => m.flagOf (rLH_CAP_CFG c) 0 && bit m.lh.capOn c
    let mism := (List.range 8).any (fun c => live c && m.fldOf (rLH_CAP_CFG c) 1 2 != rate)
    let caps := (List.range 8).map (fun c => if live c ∧ m.fldOf (rLH_CAP_CFG c) 1 2 = rate then (capSamples m f c).1.map (· * 256) else [])
    let (pbs, m) := (List.range 8).foldl (fun (a : List (List Int) × Mach) p =>
      let (xs, m) := playN p n a.2
      (a.1 ++ [xs], m)) ([], m)
    let ins := caps ++ pbs
    let m := m.setFlagOf rAU_STATUS 2 mism
    let slots := [2, 2, 4, 8].getD (m.fldOf rAU_CFG 1 2) 2
    let done := (m.lh.xfade.map (·.2)).getD 32
    let old := (m.lh.xfade.map (·.1)).getD []
    let sum := fun (g : Nat → Int) k => ((List.range 16).map (fun i => g i * ((ins.getD i []).getD k 0))).foldl (· + ·) 0
    let m := (List.range slots).foldl (fun m o => m.emit (.audio o ((List.range n).map (fun k =>
      let s := sum (fun i => gainOf m i o) k
      outSample m (if done + k < 32 then fadeSum (sum (fun i => signedOf 16 (old.getD (8 * i + o) 0)) k) s (done + k) else s))))) m
    fadeOn m n

/-- A commit applies at a boundary that no crossfade reaches past (R379, R397). -/
def routeApply (m : Mach) : Mach :=
  match m.lh.commit with
  | none => m
  | some fade =>
    if m.lh.xfade.isSome then m
    else
      let old := (List.range 128).map (fun k => m.regN (rAU_MATRIX_ACTIVE k))
      let m := (List.range 128).foldl (fun m k => m.setRegN (rAU_MATRIX_ACTIVE k) (m.regN (rAU_MATRIX_NEXT k))) m
      let m := { m with lh := { m.lh with commit := none, xfade := if fade then some (old, 0) else none } }
      (m.setFlagOf rAU_STATUS 0 false).setFlagOf rAU_STATUS 1 fade

/-! ## CHG_DET -/

/-- A debounced change of CHG_DET (R384, R515, R612, R710). -/
def chgEffect (m : Mach) (dock : Bool) : Mach :=
  let m := m.setFlagOf rLH_STATUS 1 dock
  let m := showIlim { m with pd := { m.pd with profileNext := some dock } }
  let m := postEvent m (if dock then 0x8700 else 0x8701) 0
  if dock then m
  else (List.range 4).foldl (fun m p =>
    if m.flagOf (rCH_PORT_CFG p) 1 then (let m := leaveActive m p 0; m.setFldOf (rCH_PORT_STATUS p) 0 2 0) else m) m

/-- A boundary sample of CHG_DET (R384, R401). -/
def sampleChg (m : Mach) (level : Bool) : Mach :=
  if level = m.flagOf rLH_STATUS 1 then { m with lh := { m.lh with chgCount := 0 } }
  else
    let deb := if m.lh.chgCount = 0 then m.fldOf rLH_CHG_CFG 0 8 else m.lh.chgDeb
    if deb ≤ m.lh.chgCount + 1 then chgEffect { m with lh := { m.lh with chgCount := 0 } } level
    else { m with lh := { m.lh with chgCount := m.lh.chgCount + 1, chgDeb := deb } }

/-! ## The boundary -/

/-- What the frame that ends owes and has not had: shares, the VAD's publication, a scan's trigger, the RTC's events. -/
def settleFrame (m : Mach) : Mach :=
  let m := rtcAlarm (touchTimer (vadPublish (endShares m)))
  (List.range m.lh.rtc.periodDue).foldl (fun m _ => rtcPeriod m) m

/-- A frame ends (R350). -/
def frameEnd (m : Mach) (f : FrameIn) : Mach :=
  let m := (List.range 8).foldl (capture f) m
  audioOut (vadEnd m f) f

/-- The mute's part of a boundary (R372, R373): PDM_CLK restarts, settling frames count down, a muted frame is muted from its start. -/
def muteFrame (m : Mach) : Mach :=
  let l := m.lh
  let mute := m.flagOf rLH_MIC_MUTE 0
  let settle := if l.restart then m.fldOf rLH_MIC_MUTE 8 6 else l.settle - 1
  { m with lh := { l with settle := if mute then 0 else settle, restart := false, mutedPart := mute, muteAt := if mute then some m.clk.now else none } }

/-- The touch timer at a boundary (R380). -/
def touchFrame (m : Mach) : Mach :=
  let per := m.fldOf rLH_TOUCH_CFG 16 10
  let t := m.lh.touch
  let n := t.frames + 1
  let t := if per = 0 then { t with frames := 0 } else if per ≤ n then { t with frames := 0, due := true } else { t with frames := n }
  { m with lh := { m.lh with touch := t } }

/-- A frame begins (R350, R357, R364): AUDIO contexts take pending sources, and a channel enabled now records from here. -/
def frameStartAll (m : Mach) : Mach :=
  let m := ({ m with lh := { m.lh with frameStart := m.clk.now } } : Mach).setRegN rLH_FRAME (m.regN rLH_FRAME + 1)
  let m := ((List.range 48).filter (fun n => strKind m n == 1)).foldl takeBind m
  let m := muteFrame (routeApply m)
  let on := maskOf ((List.range 8).filter (fun c => m.flagOf (rLH_CAP_CFG c) 0))
  let m := vadStart { m with lh := { m.lh with capOn := on } }
  let m := hapFrame (hapFrame (touchFrame m) 0) 1
  startShares m

/-- AUDIO_FRAME (R350): the frame that ends, and the one that begins at its boundary; the microphones of an unpowered bank read zero (R723, R754). -/
def audioFrame (m : Mach) (f0 : FrameIn) : Mach :=
  let f := if m.pd.vioA then f0 else { f0 with caps := f0.caps.map (·.map (fun _ => 0)), vad := f0.vad.map (·.map (fun _ => 0)) }
  let m := advanceTo (settleFrame m) f.time
  let m := runRtc (frameEnd m f)
  let m := sampleThermal m f
  frameStartAll (sampleChg m f.chg)

/-- AUDIO_FRAME (R350). -/
def execAudioFrame (f : FrameIn) (s : State) : Host.Outcome State Fault Refusal := s.effect (fun m => audioFrame m f)

end Sys2Proof.Machine
end

