-- ==== Sys2Proof/Machine/Powers.lean ====
section
/-!
DEFINITION. The power commands (R484–R489), the wake inputs (R490–R492), the start of lowerings (R482, R495) and the end of transitions (R476–R478,
R495–R497).
-/
namespace Sys2Proof.Machine

/-! ## The commands -/

/-- A power command is tenant 0's (R479); its reserved bits are PM_BAD_REQUEST (R484). -/
def powerCmd (m : Mach) (cmd : CmdCtx) (op : Nat) (f : Mach → Mach) : Mach :=
  beginCmd m { cmd with resv := false } op 0x0B02 noWait (fun m =>
    if cmd.q.val ≠ 0 then refuse m cmd.q.val cmd.cid op 0x0B01 0
    else if cmd.resv then refuse m 0 cmd.cid op 0x0B02 0
    else f m)

/-- A wait code that no COMMAND_COMPLETE ends: the power controller completes the command itself. -/
abbrev waitPower : Nat := 5

/-- PWR_SET (R478–R485, R756): with WAIT it completes when its transitions have ended; a lowering of HOST by the external host completes first
(R482). -/
def execPwrSet (cmd : CmdCtx) (p : List Byte) (s : State) : Host.Outcome State Fault Refusal :=
  s.effect (fun m => powerCmd m cmd 0x48 (fun m =>
    let q := pwrParams p
    let f := pwrFault m q
    if f ≠ 0 then refuse m 0 cmd.cid 0x48 f 0
    else
      let id := m.pm.nextReq + 1
      let (m', chg, off) := acceptPower { m with pm := { m.pm with nextReq := id } } q.mask q.st true id
      if q.wait ∧ !(q.st ≠ 0 ∧ bit chg 17 ∧ !isResident m 0) then
        let m' := running m' 0 cmd.cid 0x48 waitPower none [] 0 0
        pumpPower { m' with pm := { m'.pm with reqs := m'.pm.reqs ++ [{ id, q := 0, cid := cmd.cid, changed := chg, offline := off }] } }
      else pumpPower (complete (setMasks m' chg off) 0 cmd.cid 0x48 0 (popCount chg 96) (popCount off 96))))

/-- PERF_SET (R33, R486). -/
def execPerfSet (cmd : CmdCtx) (p : List Byte) (s : State) : Host.Outcome State Fault Refusal :=
  s.effect (fun m => powerCmd m cmd 0x49 (fun m =>
    let q := perfParams p
    let f := perfFault m q
    if f ≠ 0 then refuse m 0 cmd.cid 0x49 f 0
    else if q.wait ∧ !(q.pl = 0xFF ∧ q.s = 0xFF) then
      let m := running (acceptPerf m q) 0 cmd.cid 0x49 waitPower none [] 0 0
      { m with pm := { m.pm with perfWait := m.pm.perfWait ++ [(0, cmd.cid)] } }
    else complete (acceptPerf m q) 0 cmd.cid 0x49 0 0 0))

/-- The fault that refuses a STANDING_ORDER, or 0 (R487). -/
def orderFault (m : Mach) (p : List Byte) : Nat :=
  let b := fun i => byteFld p i 1
  let ps := slice p 16 16
  if 32 ≤ b 0 ∨ 8 ≤ b 1 ∨ 4 ≤ b 6 ∨ !zeroAt p 7 9 ∨ !zeroAt p 32 24 then 0x0B02
  else if bit (b 1) 1 then (if b 1 ≠ 2 ∨ !zeroAt p 2 54 then 0x0B02 else 0)
  else if b 6 = 1 then pwrFault m (pwrParams ps)
  else if b 6 = 2 then perfFault m (perfParams ps)
  else 0x0B02

/-- A standing order is set, or removed, and shown (R487, R499). -/
def setOrder (m : Mach) (k : Nat) (o : Option SOrder) : Mach :=
  let m := { m with pm := { m.pm with orders := tabSet m.pm.orders k o none } }
  match o with
  | some o => m.setRegN (rPM_SO k) (o.event % 65536 + 65536 * (o.mask % 32768) + 2 ^ 31)
  | none => m.setRegN (rPM_SO k) 0

/-- STANDING_ORDER (R487). -/
def execStandingOrder (cmd : CmdCtx) (p : List Byte) (s : State) : Host.Outcome State Fault Refusal :=
  s.effect (fun m => powerCmd m cmd 0x4A (fun m =>
    let f := orderFault m p
    let b := byteFld p 1 1
    if f ≠ 0 then refuse m 0 cmd.cid 0x4A f 0
    else
      let o : SOrder := { event := byteFld p 2 2, mask := byteFld p 4 2, rept := bit b 0, notify := bit b 2, action := byteFld p 6 1, params := slice p 16 16 }
      complete (setOrder m (byteFld p 0 1) (if bit b 1 then none else some o)) 0 cmd.cid 0x4A 0 0 0))

/-! ## Wakes -/

/-- A port's wake (R491, R492): its CH domain is in retention, and its mode is the detector's. -/
def linkWake (m : Mach) (p mode : Nat) : Mach :=
  if domSt m (18 + p) = 1 ∧ !inTrans m (18 + p) ∧ m.fldOf rPM_LINK_WAKE (2 * p) 2 = mode then postEvent m (0x8800 + p) 0 else m

/-- SQUELCH_BREAK (R492). -/
def execSquelchBreak (p : Fin 4) (s : State) : Host.Outcome State Fault Refusal := s.effect (fun m => linkWake m p.val 1)

/-- WAKE_PATTERN (R492). -/
def execWakePattern (p : Fin 4) (s : State) : Host.Outcome State Fault Refusal := s.effect (fun m => linkWake m p.val 2)

/-- A host-link wake posts its event, and raises HOST whatever LH_WAKE_EN enables (R490, R661, R691). -/
def hostWake (m : Mach) (i : Nat) : Mach :=
  let m := postEvent m (0x8B00 + i) 0
  if m.flagOf rLH_WAKE_EN 11 then m else wake m { cls := 0x0B, index := i, cascade := false }

/-- CLKREQ_ASSERT (R491, R654): in PCIe mode, while HOST is not on. -/
def execClkreqAssert (s : State) : Host.Outcome State Fault Refusal :=
  s.effect (fun m => if isQspi m ∨ isOn m 17 then m else hostWake m 0)

/-- PERST_DEASSERT (R491, R691). -/
def execPerstDeassert (s : State) : Host.Outcome State Fault Refusal := s.effect (fun m => if isQspi m then m else hostWake m 1)

/-- QSPI_CS_ASSERT (R661): in QSPI mode, while HOST is not on. -/
def execQspiCsAssert (s : State) : Host.Outcome State Fault Refusal :=
  s.effect (fun m => if !isQspi m ∨ isOn m 17 then m else hostWake m 2)

/-! ## The start of a lowering -/

/-- Work that was issued and still needs a domain (R295, R482). -/
def busyFor (m : Mach) (d : Nat) : Bool :=
  m.mem.xfers.any (fun x => decide (1 ≤ x.st) && (findGen m x.h x.gen).any (fun a => (xferDomains a x).contains d)) ||
  (d != 13 && m.mem.allocs.any (fun a => (d != 16 || a.home == 1) && a.pg.any (fun e => e.2.copy == 1))) ||
  (d == 16 && m.fl.writes.any (fun w => !w.held && !w.done))

/-- A port whose CH domain leaves on sends SLEEP and enters SLEEP (R612). -/
def sleepPort (m : Mach) (p : Nat) : Mach :=
  if portState m p = 2 then leaveActive (m.emit (.link p (leBytes 8 0x66))) p 3 else m

/-- LOWERING_START (R482, R495): a lowering of CRANE, TMOV, DMC or FLC begins once its issued work has completed; a port whose domain is being
lowered sleeps. -/
def loweringStart (m : Mach) (d : Nat) : Mach :=
  if 18 ≤ d ∧ d ≤ 21 ∧ m.pm.trans.any (fun t => t.dom == d && decide (t.src < t.tgt)) then sleepPort m (d - 18)
  else if busyFor m d then m
  else pumpPower { m with pm := { m.pm with acts := mapIf (fun a => a.dom == d && a.drain) (fun a => { a with drain := false }) m.pm.acts } }

/-- LOWERING_START (R482). -/
def execLoweringStart (d : Fin 96) (s : State) : Host.Outcome State Fault Refusal := s.effect (fun m => loweringStart m d.val)

/-! ## The end of a transition -/

/-- The address of a captured or held word: `wideKey` puts the access path above it. -/
abbrev wideSpan : Nat := 134217728

/-- The registers of a domain return to their reset values, and the captured and held words of its wide values are cleared (R13, R14, R475); what
the start set stands (R653, R757). -/
def resetRegs (m : Mach) (d : Nat) : Mach :=
  let other := fun (a : Nat) => (regFind a).all (fun r => r.1.dom != d)
  let keep := fun (x : Mach) => (x.setRegN rHS_MODE (m.regN rHS_MODE % 2)).setRegN rHS_FW_VERSION (m.regN rHS_FW_VERSION)
  let m' := { m with regs := m.regs.filter (fun e => other e.1), shadow := m.shadow.filter (fun e => other (e.1 % wideSpan)),
                     held := m.held.filter (fun e => other (e.1 % wideSpan)) }
  if d = 17 then keep m' else m'

/-- The sequencer block shows the store (R104, R105). -/
def showStore (m : Mach) : Mach :=
  let used := fun t => ((m.sto.progs.filter (fun p => t == 64 || p.tenant == t)).map (·.words)).foldl (· + ·) 0
  let m := (m.setRegN rSQ_STORE_FREE (524288 - used 64)).setRegN rSQ_PROG_COUNT m.sto.progs.length
  (List.range 64).foldl (fun m t => m.setRegN (rSQ_USED t) (used t)) m

/-- The tick programs of the store are unloaded (R68). -/
def unloadAll (m : Mach) : Mach :=
  let m := m.sto.progs.foldl (fun m p => unlogProgram m p.tenant 1 p.h) m
  showStore { m with sto := { m.sto with progs := [] } }

/-- The pages of every allocation, changed. -/
def mapPages (m : Mach) (f : Alloc → Pg → Pg) : Mach :=
  { m with mem := { m.mem with allocs := m.mem.allocs.map (fun a => a.pg.foldl (fun (b : Alloc) e => b.setPage e.1 (f a e.2)) a) } }

/-- What is lost beside registers when a domain goes off (R68, R225, R272, R475, R476, R755). -/
def loseDomain (m : Mach) (d : Nat) : Mach :=
  if 4 ≤ d ∧ d < 12 then { m with st := { m.st with v := tabClear m.st.v (32 * (d - 4)) 32 } }
  else if d = 12 then
    unloadAll { m with st := { m.st with s := tabClear m.st.s 0 256, p := tabClear m.st.p 0 32, d := tabClear m.st.d 0 64 } }
  else if d = 13 then
    let m := (List.range 255).foldl (fun m n => m.setFldOf (rCR_MAN_STATE n) 0 2 0) m
    { m with mem := { m.mem with mans := [], lists := [], xfers := [] } }
  else if d = 14 then mapPages m (fun _ g => { g with heat := 0, acc := 0, copy := 0 })
  else if d = 15 then
    let gone := (m.mem.allocs.filter (fun a => !a.persist)).map (·.h)
    mapPages (gone.foldl dropAlloc m) (fun a g => { g with dram := false, copy := 0, old := false, poison := g.poison && a.home == 1 && !g.dram })
  else if d = 16 then
    let gone := (m.mem.allocs.filter (fun a => a.home == 1 && !a.persist)).map (·.h)
    (gone.foldl dropAlloc m).setFlagOf rFL_STATUS 0 false
  else if d = 17 then
    let m := dropExternal m
    { m with hs := { m.hs with sram := [], stage := [], qspiBuf := [] } }
  else if 18 ≤ d ∧ d < 22 then setPort m (d - 18) ChPort.init
  else if d = 22 ∨ d = 23 then
    { m with sn := { m.sn with vc := tabClear m.sn.vc (4 * (d - 22)) 4, lanes := tabClear m.sn.lanes (2 * (d - 22)) 2 } }
  else if d = 25 then { m with lh := { m.lh with commit := none, xfade := none, starved := 0, undRaised := 0 } }
  else if 32 ≤ d then { m with st := { m.st with berth := tabClear m.st.berth (524288 * (d - 32)) 524288 } }
  else m

/-- A domain's state is set. -/
def setDom (m : Mach) (d st : Nat) : Mach := { m with pm := { m.pm with dom := tabSet m.pm.dom d st 2 } }

/-- A domain reaches on (R294, R464, R568, R612, R658, R682, R701). -/
def domainOn (m : Mach) (d src : Nat) (mountOk : Bool) : Mach :=
  let m := if src = 2 then { m with tk := { m.tk with pendScrub := m.tk.pendScrub &&& (2 ^ 96 - 1 - (if d = 12 then 0xF000 else 2 ^ d)) } } else m
  if d = 16 then
    if src = 1 then (if m.flagOf rFL_STATUS 0 then ({ m with fl := { m.fl with clean := false } } : Mach).setFlagOf rFL_STATUS 3 true else m)
    else if mountOk then mountFlash m else mountFail m
  else if d = 17 then postHeld m
  else if 18 ≤ d ∧ d < 22 then portUp m (d - 18)
  else if d = 24 then restartFusion m
  else if d = 26 then flushHeldRecs m
  else m

/-- A domain has left on, or gone off from retention (R295, R612). -/
def domainLow (m : Mach) (d tgt : Nat) : Mach :=
  let m := if 18 ≤ d ∧ d < 22 then sleepPort m (d - 18) else m
  let m := if d = 16 then { m with fl := { m.fl with clean := true } } else m
  if tgt = 2 then resetRegs (loseDomain m d) d else m

/-- The device ends a transition of a domain (R476, R496, R497): the state takes effect; a lowering's end begins the wakes that were latched. -/
def endTrans (m : Mach) (t : Trans) (mountOk : Bool) : Mach :=
  let m := setDom { advanceTo m t.due with pm := { m.pm with trans := m.pm.trans.filter (·.dom != t.dom) } } t.dom t.tgt
  let m := if t.tgt = 0 then domainOn m t.dom t.src mountOk else domainLow m t.dom t.tgt
  let m := if t.src < t.tgt then (List.range 8).foldl lateEdge m else m
  pumpPower (if t.src < t.tgt then replayWakes m else m)

/-- Accepted changes that wait for one that was abandoned, of the same request (R477, R478). -/
def waitsOn (t : Trans) (a : Act) : Bool :=
  a.req == t.req && (if t.tgt = 0 then a.tgt == 0 && (requires a.dom).contains t.dom else a.tgt == t.tgt && (requirers a.dom).contains t.dom)

/-- A transition is abandoned (R477): the domain stays in the state it left, and its request reports it unchanged. -/
def abandon (m : Mach) (t : Trans) : Mach :=
  let gone := (m.pm.acts.filter (waitsOn t)).map (·.dom)
  let cut := fun (r : PwrReq) => if r.id = t.req then { r with changed := r.changed &&& (2 ^ 96 - 1 - maskOf (t.dom :: gone)) } else r
  { m with pm := { m.pm with trans := m.pm.trans.filter (·.dom != t.dom), acts := m.pm.acts.filter (fun a => !waitsOn t a),
                             reqs := m.pm.reqs.map cut } }

/-- No latched wake is lost (R496): where no lowering is left to complete, those that are latched begin. -/
def freeWakes (m : Mach) : Mach := if lowering m then m else replayWakes m

/-- TRANSITION_TIMEOUT (R477): a transition has taken twice its time. -/
def execTransitionTimeout (d : Fin 96) (s : State) : Host.Outcome State Fault Refusal :=
  s.effect (fun m =>
    match m.pm.trans.find? (·.dom == d.val) with
    | none => m
    | some t =>
      if t.xtal then m
      else
        let hand := if t.src < t.tgt then 50 else 0
        let m := advanceTo m (t.begun + hand + 2 * (t.due - t.begun - hand))
        pumpPower (freeWakes (raiseD (abandon m t) 0x0B05 0)))

/-- CRYSTAL_START_TIMEOUT (R494): the restart is not complete within 6,144 AON cycles; the transitions that wait for it are abandoned. -/
def execCrystalStartTimeout (s : State) : Host.Outcome State Fault Refusal :=
  s.effect (fun m =>
    if !m.clk.xtalStarting then m
    else
      let ts := m.pm.trans.filter (·.xtal)
      let first := (ts.map (·.begun)).foldl min (ts.headD ⟨0, 0, 0, m.clk.now, 0, false, 0⟩).begun
      let m := advanceTo m (first + aonToRef 6144)
      let m := ts.foldl abandon { m with clk := { m.clk with xtalStarting := false } }
      pumpPower (freeWakes (raiseD m 0x0B06 0)))

end Sys2Proof.Machine
end

