-- ==== Sys2Proof/Machine/Load.lean ====
section
/-!
DEFINITION. Loading and unloading of tick programs and lighthouse tasks (R68–R73, R100–R103, R356, R357, R572), and the self-test (R176, R177).
-/
namespace Sys2Proof.Machine

/-! ## The program store -/

/-- A wait code that PROGRAM_VALIDATION_DONE ends. -/
abbrev waitLoad : Nat := 6

/-- The parameters of a PROG_LOAD beside its reference (R676). -/
structure LoadParams where
  dest : Nat
  role : Nat
  tenant : Nat
  src : Nat
  image : Nat
  deriving DecidableEq, Repr

/-- The bytes that a PROG_LOAD names, or the fault that refuses it (R100, R292, R671). `corrupt` says that a stored image as read fails its
digest. -/
def loadSource (m : Mach) (t : Nat) (r : BufRef) (p : LoadParams) (corrupt : Bool) : Except Nat (List Byte) :=
  if p.src = 0 then (if refOk m t r false then readRef m t r else .error 0x0F03)
  else match findImage m p.image with
    | none => .error 0x0F02
    | some i =>
      if (t ≠ 0 ∧ i.owner ≠ t) ∨ i.kind ≠ 1 then .error 0x0F02
      else if !mounted m then .error 0x060B
      else if corrupt ∨ sha384 i.bytes ≠ i.digest then .error 0x0608
      else .ok i.bytes

/-- PROG_LOAD (R100): the image is ingested and its validation begins. -/
def execProgLoad (cmd : CmdCtx) (r : BufRef) (dest role tenant src image : Nat) (corrupt : Bool) (s : State) : Host.Outcome State Fault Refusal :=
  s.effect (fun m => beginCmd m cmd 0x20 0x0F02 noWait (fun m =>
    let t := cmd.q.val
    let p : LoadParams := ⟨dest, role, tenant, src, image⟩
    if 1 < dest ∨ 1 < role ∨ 63 < tenant ∨ 1 < src then refuse m t cmd.cid 0x20 0x0F02 0
    else if t ≠ 0 ∧ tenant ≠ t then refuse m t cmd.cid 0x20 0x0D01 0
    else if !tenantExists m tenant then refuse m t cmd.cid 0x20 0x0F02 0
    else match loadSource m t r p corrupt with
      | .error e => refuse m t cmd.cid 0x20 e 0
      | .ok bs =>
        let objs := objKey 8 tenant :: (if src = 1 then [objKey 5 image] else [])
        let m := running m t cmd.cid 0x20 waitLoad none objs 0 0
        ({ m with sto := { m.sto with loading := m.sto.loading ++ [⟨t, cmd.cid, tenant, dest, role, bs⟩] } } : Mach).setFlagOf rSQ_LOAD_STATUS 24 true))

/-- The sequencers and a lighthouse task: registers of a task's bank are zero at load (R358). -/
def zeroBank (m : Mach) (h : Nat) : Mach :=
  { m with st := { m.st with s := tabClear m.st.s (64 * (256 + h)) 64, p := tabClear m.st.p (8 * (256 + h)) 8, d := tabClear m.st.d (16 * (256 + h)) 16 } }

/-- Bytes of partitions that a tenant owns and may use (R353, R356). -/
def partRoom (m : Mach) (t : Nat) : Nat := 0x4000 * ((List.range 64).filter (partOk m t)).length

/-- A valid image for the sequencers (R71, R101 step 8): the new handle. -/
def placeProg (m : Mach) (l : Loading) (ps : List SlotProg) : Except Nat (Mach × Nat) :=
  let words := progWords ps
  if m.regN rSQ_STORE_FREE < words ∨ m.fldOf (rSQ_QUOTA l.tenant) 0 20 < m.regN (rSQ_USED l.tenant) + words then .error 0x0208
  else match freeHandles m.sto ps.length with
    | none => .error 0x0208
    | some h =>
      let d := sha384 l.image
      let m := { m with sto := { m.sto with progs := m.sto.progs ++ [⟨h, l.tenant, ps, words, d⟩] } }
      .ok (logProgram (showStore m) l.tenant 1 h d, h)

/-- A valid image for the lighthouse (R356, R357): the new handle. -/
def placeTask (m : Mach) (l : Loading) (ps : List SlotProg) : Except Nat (Mach × Nat) :=
  let words := progWords ps
  let held := ((m.lh.tasks.filter (·.tenant == l.tenant)).map (fun t => 8 * t.code.length)).foldl (· + ·) 0
  let share := (ps.headD ⟨0, 0, [], 0, 0, []⟩).maxCycles
  let h := lowestFree (m.lh.tasks.map (·.h))
  if m.lh.tasks.any (fun t => t.tenant == l.tenant && t.role == l.role) ∨ partRoom m l.tenant < held + 8 * words ∨ 127 < h then .error 0x0208
  else if 22528 < (m.lh.tasks.map (·.share)).foldl (· + ·) 0 + share then .error 0x0804
  else
    let d := sha384 l.image
    let code := ((ps.headD ⟨0, 0, [], 0, 0, []⟩).code).headD []
    let m := zeroBank { m with lh := { m.lh with tasks := m.lh.tasks ++ [⟨h, l.tenant, l.role, share, code, d⟩] } } h
    .ok (logProgram m l.tenant 2 h d, h)

/-- What the validation of an image answers (R101): the fault and SQ_LOAD_WHERE, or the machine that holds it and its handle. -/
def validateLoad (m : Mach) (l : Loading) : Except (Nat × Nat) (Mach × Nat) :=
  match validateImage (l.dest == 1) l.image with
  | .error e => .error e
  | .ok ps =>
    match (if l.dest = 0 then placeProg m l ps else placeTask m l ps) with
    | .error c => .error (c, 0)
    | .ok r => .ok r

/-- PROGRAM_VALIDATION_DONE (R101, R102): the load is accepted or rejected. -/
def validationDone (m : Mach) (q cid : Nat) : Mach :=
  match m.sto.loading.find? (fun l => l.q == q && l.cid == cid) with
  | none => m
  | some l =>
    if l.dest = 0 ∧ !isOn m 12 then m
    else
      let m := { m with sto := { m.sto with loading := m.sto.loading.filter (fun l => !(l.q == q && l.cid == cid)) } }
      let m := m.setFlagOf rSQ_LOAD_STATUS 24 (!m.sto.loading.isEmpty)
      match validateLoad m l with
      | .error (c, w) => refuse ((m.setFldOf rSQ_LOAD_STATUS 16 8 c).setRegN rSQ_LOAD_WHERE w) q cid 0x20 c w
      | .ok (m, h) => complete ((m.setFldOf rSQ_LOAD_STATUS 16 8 0).setFldOf rSQ_LOAD_STATUS 0 16 h) q cid 0x20 0 h 0

/-- PROGRAM_VALIDATION_DONE (R101). -/
def execProgramValidationDone (q : Fin 64) (cid : Nat) (s : State) : Host.Outcome State Fault Refusal :=
  s.effect (fun m => validationDone m q.val cid)

/-- A tick program that a valid entry of the active table or of a pending submission names (R103). -/
def progInUse (m : Mach) (p : TickProg) : Bool := anyNaming m (fun e => decide (p.h ≤ e.program ∧ e.program < p.h + p.progs.length))

/-- A tick program leaves the store. -/
def unloadProg (m : Mach) (p : TickProg) : Mach :=
  showStore (unlogProgram { m with sto := { m.sto with progs := m.sto.progs.filter (·.h != p.h) } } p.tenant 1 p.h)

/-- A lighthouse task is unloaded: its share ends. -/
def unloadTask (m : Mach) (t : LhTask) : Mach :=
  unlogProgram { m with lh := { m.lh with tasks := m.lh.tasks.filter (·.h != t.h) },
                        st := { m.st with runs := m.st.runs.filter (·.id != 256 + t.h) } } t.tenant 2 t.h

/-- PROG_UNLOAD (R103, R676). -/
def execProgUnload (cmd : CmdCtx) (h dest tenant : Nat) (s : State) : Host.Outcome State Fault Refusal :=
  s.effect (fun m => beginCmd m cmd 0x21 0x0F02 (naming (objKey (if dest = 0 then 4 else 10) h)) (fun m =>
    let t := cmd.q.val
    if 1 < dest ∨ 63 < tenant then refuse m t cmd.cid 0x21 0x0F02 0
    else if t ≠ 0 ∧ tenant ≠ t then refuse m t cmd.cid 0x21 0x0D01 0
    else if dest = 0 then
      match m.sto.progs.find? (fun p => p.h == h && p.tenant == tenant) with
      | none => refuse m t cmd.cid 0x21 0x0F02 0
      | some p => if progInUse m p then refuse m t cmd.cid 0x21 0x0209 0 else complete (unloadProg m p) t cmd.cid 0x21 0 0 0
    else
      match m.lh.tasks.find? (fun p => p.h == h && p.tenant == tenant) with
      | none => refuse m t cmd.cid 0x21 0x0F02 0
      | some p => complete (unloadTask m p) t cmd.cid 0x21 0 0 0))

/-! ## The self-test -/

/-- Quadrants and clusters that a self-test word names, as in QY_OFFLINE. -/
def testMask (v : Nat) : Nat := bits v 0 4 + 256 * bits v 8 8

/-- A power domain's place in QY_OFFLINE, back from a bit of it (R176). -/
def testDom (i : Nat) : Nat := if i < 4 then i else i - 4

/-- A write of QY_SELFTEST by tenant 0 (R177): QUAD and VEC are stored, and GO starts a test of what they name. -/
def writeSelftest (m : Mach) (v : Word) : Mach :=
  let mask := testMask v.toNat
  let store := fun (m : Mach) => (m.setFldOf rQY_SELFTEST 0 4 v.toNat).setFldOf rQY_SELFTEST 8 8 (v.toNat / 256)
  if !flag v 16 ∨ mask = 0 then store m
  else
    let named := fun (e : Entry) => (e.quad &&& bits mask 0 4) != 0 || (e.vec &&& bits mask 8 8) != 0
    if m.flagOf rQY_SELFTEST 17 ∨ anyNaming m named then raiseT m 0x0304 0 0
    else
      let m := (store m).setFlagOf rQY_SELFTEST 17 true
      { m with tk := { m.tk with testNamed := mask, testLeft := some 65536, testFail := none, testAt := if m.clk.inSeam then 2 ^ 64 else quayNow m } }

/-- Quay cycles of the slot region of the tick under way that the test has still to come or has had, from where it counts (R177). -/
def testRegion (m : Mach) : Nat := ((m.regN rTK_PERIOD - m.tk.seam) * plQuay (curPl m) / 48 - m.tk.stretched) - m.tk.testAt

/-- SELFTEST_COMPLETE (R177): the test's last cycle, in the slot region of the tick; `fail` holds the resources that fail, as in QY_OFFLINE. -/
def execSelftestComplete (fail : BitVec 16) (s : State) : Host.Outcome State Fault Refusal :=
  s.effect (fun m =>
    match m.tk.testLeft with
    | none => m
    | some n =>
      if m.tk.testFail.isSome ∨ m.clk.inSeam ∨ m.clk.coarseTick ∨ testRegion m < n then m
      else
        let m := advanceTo m (quayTime m (m.tk.testAt + n))
        { m with tk := { m.tk with testLeft := some 0, testFail := some (fail.toNat &&& m.tk.testNamed) } })

/-- A quadrant or cluster is held off from now on (R176): it loses what it holds. -/
def takeOffline (m : Mach) (i : Nat) : Mach :=
  let d := testDom i
  let m := m.setFlagOf rQY_OFFLINE i true
  let m := { m with pm := { m.pm with acts := m.pm.acts.filter (·.dom != d), trans := m.pm.trans.filter (·.dom != d) } }
  resetRegs (loseDomain (setDom m d 2) d) d

/-- The tick's seam counts the slot region for a running test, and acts on a result that is known (R176, R177). -/
def seamSelftest (m : Mach) : Mach :=
  match m.tk.testLeft, m.tk.testFail with
  | some _, some f =>
    let ok := m.tk.testNamed &&& (0xFFFF - f)
    let m := (bitList ok 16).foldl (fun m i => m.setFlagOf rQY_OFFLINE i false) m
    let m := (bitList f 16).foldl takeOffline m
    let m := (m.setFlagOf rQY_SELFTEST 17 false).setFlagOf rQY_SELFTEST 18 (f == 0)
    let m := { m with tk := { m.tk with testLeft := none, testFail := none } }
    if f = 0 then m else raiseD m 0x0303 0
  | some n, none => { m with tk := { m.tk with testLeft := some (n - (if m.clk.coarseTick then 0 else testRegion m)), testAt := 0 } }
  | none, _ => m

end Sys2Proof.Machine
end

