-- ==== Sys2Proof/Machine/Tenant.lean ====
section
/-!
DEFINITION. The harbourmaster (R550–R591): tenants, access rules and their fence, attestation, the owner key, the security version, the entropy
source, and the debug lock.
-/
namespace Sys2Proof.Machine

/-! ## Commands of tenant 0 -/

/-- A command of R553: only tenant 0 issues it; a reserved bit is HM_BAD_REQUEST. -/
def harbourCmd (m : Mach) (cmd : CmdCtx) (op : Nat) (waits : RunCmd → Bool) (f : Mach → Mach) : Mach :=
  beginCmd m { cmd with resv := false } op 0x0D02 waits (fun m =>
    if cmd.q.val ≠ 0 then refuse m cmd.q.val cmd.cid op 0x0D01 0
    else if cmd.resv then refuse m 0 cmd.cid op 0x0D02 0
    else f m)

/-- What is kept for a tenant, and the machine with it set. -/
def tenRec (m : Mach) (t : Nat) : TenRec := tabGet m.hm.ten t TenRec.init
def setTenRec (m : Mach) (t : Nat) (r : TenRec) : Mach := { m with hm := { m.hm with ten := tabSet m.hm.ten t r TenRec.init } }

/-- A destroy of a tenant was accepted and is not complete (R556). -/
def destroying (m : Mach) (t : Nat) : Bool := m.flagOf (rHM_TENANT_CFG t) 2

/-- The reason for which R554 refuses a create, or 0. -/
def createReason (m : Mach) (t : Nat) : Nat :=
  if destroying m t then 3 else if tenantExists m t ∨ (tenRec m t).creating then 1 else if !mounted m then 2
  else if m.flagOf rHM_STATUS 2 then 4 else 0

/-- The reservations of a tenant on every pool become zero (R252, R554, R556). -/
def clearRes (m : Mach) (t : Nat) : Mach :=
  (List.range 5).foldl (fun m x =>
    let m := m.setFldOf (rCR_RES t x) 0 16 0
    m.setFldOf (rCR_RES_SUM x) 0 16 (resSum m x)) m

/-- The counters and quotas of a tenant as its creation leaves them (R52, R554). -/
def freshTenant (m : Mach) (t mode quota : Nat) : Mach :=
  let m := ((clearRes m t).setRegN (rTM_DRAM_QUOTA t) 0).setRegN (rSQ_QUOTA t) 0
  let m := (m.setRegN (rTK_CHOICE t) 0).setRegN (rTK_CHOICE_CAUSE t) 0
  (m.setFldOf (rHM_TENANT_CFG t) 1 1 mode).setRegN (rHM_IMG_QUOTA t) quota

/-- TENANT_CREATE (R553, R554): the tenant exists once its record is durable. -/
def execTenantCreate (cmd : CmdCtx) (t mode quota : Nat) (s : State) : Host.Outcome State Fault Refusal :=
  s.effect (fun m => harbourCmd m cmd 0x50 noWait (fun m =>
    if 63 < t ∨ 1 < mode ∨ 65535 < quota then refuse m 0 cmd.cid 0x50 0x0D02 0
    else
      let k := createReason m t
      if k ≠ 0 then refuse m 0 cmd.cid 0x50 0x0D03 k
      else if m.fl.readOnly then refuse m 0 cmd.cid 0x50 0x0601 0
      else
        let (d, m) := m.draw
        let m := freshTenant m t mode quota
        let m := setTenRec m t { TenRec.init with nonce := Config.freeValue d % 2 ^ 128, key := true, creating := true }
        finish (addWrite m (.record t) 0 cmd.cid none) 0 cmd.cid 0x50 0 0 [objKey 8 t]))

/-- Steps 1 and 2 of R556: the tenant's transfers are aborted as revoked ones, and its key is zeroed. -/
def dropKey (m : Mach) (t : Nat) : Mach :=
  let m := abortXfers m (fun x => x.tenant == t) 2
  let m := abortWrites m (fun w => w.xf.any (·.2.2.1 == t))
  setTenRec m t { tenRec m t with key := false }

/-- Step 3 of R556: the cascade is disarmed and destroyed, its bonds wait for their scrub, and the tenant's streams are closed. -/
def dropCascade (m : Mach) (t : Nat) : Mach :=
  let bonds := ((cascOf m t).map (fun c => c.bonds.foldl (fun k b => k ||| b.berths) 0)).getD 0
  let m := endCmdsOn (disarmNow m t) (objKey 6 t)
  let m := { m with cas := m.cas.filter (·.tenant != t), tk := { m.tk with pendScrub := m.tk.pendScrub ||| (bonds * 2 ^ 32) } }
  (List.range 48).foldl (fun m n =>
    if strKind m n = 0 ∨ strOwner m n ≠ t then m
    else
      let m := endCmdsOn m (objKey 7 n)
      if strKind m n = 1 then capOff m (strSource m n) else freeStream m n) m

/-- Step 4 of R556: allocations, manifests, images, rules, loads and reservations; the tenant's run notices end with it. -/
def dropObjects (m : Mach) (t : Nat) : Mach :=
  let hs := (m.mem.allocs.filter (fun a => a.owner == t && a.zeroing.isNone)).map (·.h)
  let m := hs.foldl dropAlloc m
  let ms := (m.mem.mans.filter (·.tenant == t)).map (·.h)
  let m := ms.foldl (fun m h => endCmdsOn m (objKey 3 h)) { m with mem := { m.mem with mans := m.mem.mans.filter (·.tenant != t) } }
  let ls := m.mem.lists.filter (·.tenant == t)
  let m := ls.foldl (fun m l => listEnd (putList m { l with abandoned := true }) l.id) m
  let is := (m.fl.images.filter (·.owner == t)).map (·.id)
  let m := is.foldl (fun m i => endCmdsOn m (objKey 5 i)) { m with fl := { m.fl with images := m.fl.images.filter (·.owner != t) } }
  let m := if m.fl.ingest.any (·.owner == t) then setIngest m none else m
  let m := endCmdsOn m (objKey 8 t)
  let m := { m with hm := { m.hm with rules := m.hm.rules.filter (·.tenant != t) },
                    hs := { m.hs with notify := m.hs.notify.filter (fun n => n.1 % 64 != t) },
                    sto := { m.sto with loading := m.sto.loading.filter (·.tenant != t), unloadTenants := m.sto.unloadTenants ||| 2 ^ t } }
  clearRes (m.setFlagOf rSQ_LOAD_STATUS 24 (!m.sto.loading.isEmpty)) t

/-- Step 5 of R556: resources whose last owner was the tenant wait for a scrub; its partitions are cleared and its tasks go with them. -/
def dropPlaces (m : Mach) (t : Nat) : Mach :=
  let ds := (m.tk.owner.filter (·.2 == t)).map (·.1)
  let m := { m with tk := { m.tk with pendScrub := m.tk.pendScrub ||| maskOf ds, owner := m.tk.owner.filter (·.2 != t) } }
  let m := (m.lh.tasks.filter (·.tenant == t)).foldl unloadTask m
  (List.range 64).foldl (fun m p => if m.fldOf (rLH_PART_OWNER p) 0 6 = t then writePartOwner m p 0 else m) m

/-- TENANT_DESTROY (R556): steps 1 to 5 at once, and the completion once the record is erased durably. -/
def execTenantDestroy (cmd : CmdCtx) (t : Nat) (s : State) : Host.Outcome State Fault Refusal :=
  s.effect (fun m => harbourCmd m cmd 0x51 (naming (objKey 8 t)) (fun m =>
    if t = 0 ∨ 63 < t then refuse m 0 cmd.cid 0x51 0x0D02 0
    else if destroying m t then refuse m 0 cmd.cid 0x51 0x0D03 3
    else if !tenantExists m t then refuse m 0 cmd.cid 0x51 0x0D03 5
    else if anyNaming m (fun e => e.tenant == t) then refuse m 0 cmd.cid 0x51 0x0D04 0
    else if m.fl.readOnly then refuse m 0 cmd.cid 0x51 0x0601 0
    else
      let m := m.setFlagOf (rHM_TENANT_CFG t) 2 true
      let m := dropPlaces (dropObjects (dropCascade (dropKey m t) t) t) t
      finish (addWrite m (.erase t) 0 cmd.cid none) 0 cmd.cid 0x51 0 0 [objKey 8 t]))

/-! ## Access rules -/

/-- Entry `i` of a rule set (R561). -/
def ruleEnt (d : List Byte) (i : Nat) : Rule :=
  let o := 16 * i
  { kind := byteFld d o 1, tenant := byteFld d (o + 1) 1, rights := byteFld d (o + 2) 1, a := byteFld d (o + 4) 4, b := byteFld d (o + 8) 4,
    c := byteFld d (o + 12) 4 }

/-- An entry of a rule set keeps to the table of R561. -/
def ruleOk (m : Mach) (d : List Byte) (i : Nat) : Bool :=
  let r := ruleEnt d i
  zeroAt d (16 * i + 3) 1 && decide (r.kind ≤ 4 ∧ r.tenant < 64 ∧ r.rights < 4) &&
  (match r.kind with
   | 0 => true
   | 1 => tenantExists m r.tenant && decide (r.rights < 2) && (findAlloc m r.a).any (fun a =>
            a.sharedRo && a.owner != r.tenant && decide (1 ≤ r.c ∧ r.b + r.c ≤ a.pages))
   | 2 => tenantExists m r.tenant && decide (1 ≤ r.b ∧ r.b ≤ 64 ∧ r.a + r.b ≤ 64 ∧ r.c = 0)
   | 3 => let okw := fun w => w == bits w 0 6 + 256 * bits w 8 6 && decide (bits w 0 6 ≤ bits w 8 6)
          tenantExists m r.tenant && okw r.a && okw r.b && r.c == 0
   | _ => tenantExists m r.tenant && decide (r.rights < 2 ∧ 1 ≤ r.a ∧ r.a ≤ 6 ∧ 1 ≤ r.c) && sourceOk r.a (r.b + r.c - 1))

/-- A wait code that RULE_FENCE ends. -/
abbrev waitFence : Nat := 7

/-- A write-back whose flash program is under way still reads berths that the rules grant it (R564). -/
def writeGranted (m : Mach) (w : FWrite) : Bool :=
  match w.xf with
  | none => true
  | some (_, _, t, b) => (List.range (b / 64 + 1 - b % 64)).all (fun k => granted m t 2 0 (fun r => decide (r.a ≤ b % 64 + k ∧ b % 64 + k < r.a + r.b)))

/-- A new rule set is installed (R562, R564): transfers that use a right it withdraws are revoked. -/
def installRules (m : Mach) (rules : List Rule) : Mach :=
  let m := { m with hm := { m.hm with rules } }
  let m := m.setFldOf rHM_RULE_EPOCH 0 16 (m.fldOf rHM_RULE_EPOCH 0 16 + 1)
  let m := abortXfers m (fun x => x.st == 1 && !xferGranted m x) 2
  abortWrites m (fun w => !writeGranted m w)

/-- RULES_UPDATE (R561, R562): its completion waits for the fence. -/
def execRulesUpdate (cmd : CmdCtx) (r : BufRef) (s : State) : Host.Outcome State Fault Refusal :=
  s.effect (fun m => harbourCmd m cmd 0x52 noWait (fun m => withRef m cmd 0x52 r false (fun d =>
    if m.flagOf rHM_STATUS 1 then refuse m 0 cmd.cid 0x52 0x0D06 0
    else if d.length % 16 ≠ 0 ∨ 8192 < d.length ∨ !(List.range (d.length / 16)).all (ruleOk m d) then refuse m 0 cmd.cid 0x52 0x0D05 0
    else
      let m := installRules m (((List.range (d.length / 16)).map (ruleEnt d)).filter (·.kind != 0))
      let m := running (m.setFlagOf rHM_STATUS 1 true) 0 cmd.cid 0x52 waitFence none [] 0 0
      { m with hm := { m.hm with fence := some (0, cmd.cid) } })))

/-- RULE_FENCE (R565): every revoked transfer has completed. -/
def execRuleFence (s : State) : Host.Outcome State Fault Refusal :=
  s.effect (fun m =>
    match m.hm.fence with
    | none => m
    | some (q, cid) =>
      if m.mem.xfers.any (·.st == 2) ∨ m.fl.writes.any (fun w => w.unmapped && !w.done && w.xf.isSome) then m
      else
        let m := (m.setFlagOf rHM_STATUS 1 false).setFldOf rHM_RULE_EPOCH 16 16 (m.fldOf rHM_RULE_EPOCH 0 16)
        complete { m with hm := { m.hm with fence := none } } q cid 0x52 0 0 0)

/-! ## CBOR -/

/-- Further items of CBOR: unsigned and negative integers, text strings, arrays, maps and truth values. -/
def cborUint (n : Nat) : List Byte := cborHead 0 n
def cborNeg (n : Nat) : List Byte := cborHead 1 (n - 1)
def cborText (t : String) : List Byte := cborHead 3 t.toList.length ++ t.toList.map (fun c => BitVec.ofNat 8 c.toNat)
def cborArray (items : List (List Byte)) : List Byte := cborHead 4 items.length ++ items.flatten
def cborMap (items : List (List Byte × List Byte)) : List Byte := cborHead 5 items.length ++ items.flatMap (fun e => e.1 ++ e.2)
def cborBool (b : Bool) : List Byte := [if b then 0xF5 else 0xF4]

/-! ## Attestation -/

/-- The tenants that exist, ascending. -/
def tenants (m : Mach) : List Nat := (List.range 64).filter (tenantExists m)

/-- The entry of the loads claim for a tenant (R572, R580). -/
def loadsClaim (m : Mach) (t : Nat) : List Byte :=
  let r := tenRec m t
  cborArray [cborBytes (slice r.log 0 48), cborArray (r.progs.map (fun p => cborArray [cborUint p.2.1, cborBytes p.2.2])),
             cborArray (r.weights.map (fun w => cborArray [cborUint w.1, cborUint w.2.1, cborBytes w.2.2.1])), cborBool r.overflow]

/-- The payload of a FULL report (R573, R574, R580). -/
def fullClaims (m : Mach) (scope : Nat) (nonce : List Byte) : List Byte :=
  let fw := m.hm.fw.getD (0, 0, List.replicate 48 0)
  let neg := fun k => cborNeg (70000 + k)
  cborMap [
    (cborUint 10, cborBytes nonce),
    (cborUint 256, cborBytes (0x01 :: leBytes 16 Config.uid)),
    (neg 0, cborText "K256-P1"),
    (neg 1, cborText "A1"),
    (neg 2, cborUint 3),
    (neg 3, cborArray [cborUint fw.1, cborUint fw.2.1, cborBytes fw.2.2]),
    (neg 4, cborBytes m.hm.mb),
    (neg 5, cborUint (m.fldOf rDB_STATE 2 2)),
    (neg 6, cborUint (m.regN rHM_BOOT_COUNT)),
    (neg 7, cborUint m.clk.tick),
    (neg 8, cborUint (m.fldOf rHM_RULE_EPOCH 16 16)),
    (neg 9, cborArray ((tenants m).map (fun t => cborArray [cborUint t, cborUint (if t = 0 then 0 else m.fldOf (rHM_TENANT_CFG t) 1 1),
      cborUint (m.regN (rTK_CHOICE t)), cborUint (m.fldOf (rTK_CHOICE_CAUSE t) 0 16), cborUint (m.fldOf (rTK_CHOICE_CAUSE t) 16 16)]))),
    (neg 10, cborMap (((tenants m).filter (fun t => scope == 64 || t == scope)).map (fun t => (cborUint t, loadsClaim m t)))),
    (neg 11, cborArray [cborUint (m.lh.muteCount % 2 ^ 32), cborUint (m.reg64 rLH_MUTE_TICK_LO), cborUint (m.fldOf rLH_MUTE_LOG 24 6),
      cborBool (m.flagOf rLH_MIC_MUTE 0), cborUint (m.regN rLH_MUTE_DENIED)]),
    (neg 12, cborUint scope)]

/-- A FULL report (R580): its signature over the Sig_structure is made with a fresh value. -/
def fullReport (m : Mach) (scope : Nat) (nonce : List Byte) : List Byte × Mach :=
  let (d, m) := m.draw
  let prot : List Byte := [0xA1, 0x01, 0x38, 0x22]
  let claims := fullClaims m scope nonce
  let tbs := cborArray [cborText "Signature1", cborBytes prot, cborBytes [], cborBytes claims]
  let sig := beBytes 96 (Config.identitySign (Config.freeValue d) tbs)
  let kid := (sha384 Config.identityKey).take 8
  (0xD2 :: cborArray [cborBytes prot, cborMap [(cborUint 4, cborBytes kid)], cborBytes claims, cborBytes sig], m)

/-- A tenant may request a report of a kind at a scope (R581). -/
def mayAttest (m : Mach) (t kind scope : Nat) : Bool := t == 0 || (scope == 0 && m.flagOf (rHM_ATT_POLICY t) kind)

/-- ATTEST (R581, R582): the report covers the state in which the command begins. -/
def execAttest (cmd : CmdCtx) (kind scope nlen : Nat) (r : BufRef) (nonce : List Byte) (s : State) : Host.Outcome State Fault Refusal :=
  s.effect (fun m => beginCmd m cmd 0x53 0x0D02 noWait (fun m =>
    let t := cmd.q.val
    if 1 < kind ∨ 1 < scope ∨ nlen < 8 ∨ 24 < nlen then refuse m t cmd.cid 0x53 0x0D02 0
    else if !mayAttest m t kind scope then refuse m t cmd.cid 0x53 0x0D08 0
    else if !refOk m t r false then refuse m t cmd.cid 0x53 0x0F03 0
    else
      let (bs, m) := if kind = 1 then (certReport, m) else fullReport m (if scope = 1 then 64 else t) (slice nonce 0 nlen)
      if refLen r < bs.length then refuse m t cmd.cid 0x53 0x0D08 0
      else taking (writeRef m t cmd.cid r bs) t cmd.cid 0x53 bs.length [] 0 0))

/-! ## Owner, version, consent and entropy -/

/-- A command of R553 has its effect: nothing holds it back and nothing refuses it before. -/
def harbourRuns (m : Mach) (cmd : CmdCtx) (op : Nat) (waits : RunCmd → Bool) : Bool :=
  mayBegin m cmd.q.val cmd.cid waits && !(findCmd m cmd.q.val cmd.cid).any (·.op != op) && (!inRecovery m || recoveryOps.contains op) &&
    cmd.q.val == 0 && !cmd.resv

/-- The bytes of a source reference that R671 allows and whose access succeeds. -/
def refBytes (m : Mach) (q : Nat) (r : BufRef) : Option (List Byte) :=
  if !refOk m q r false then none
  else match readRef m q r with
    | .ok bs => some bs
    | .error _ => none

/-- The owner-key hash that OWNER_ENROLL fuses, or none (R575). -/
def enrolled (f : Fuses) (m : Mach) (cmd : CmdCtx) (r : BufRef) : Option (List Byte) :=
  if harbourRuns m cmd 0x54 noWait && refLen r == 96 && f.owner.isNone then (refBytes m 0 r).map sha384 else none

/-- OWNER_ENROLL (R575): the hash of the key is fused, once. -/
def execOwnerEnroll (cmd : CmdCtx) (r : BufRef) (s : State) : Host.Outcome State Fault Refusal :=
  let go := fun (m : Mach) => harbourCmd m cmd 0x54 noWait (fun m =>
    if refLen r ≠ 96 then refuse m 0 cmd.cid 0x54 0x0F03 0
    else withRef m cmd 0x54 r false (fun _ =>
      if s.fuses.owner.isSome then refuse m 0 cmd.cid 0x54 0x0D0A 0
      else complete (m.setFlagOf rHM_STATUS 0 true) 0 cmd.cid 0x54 0 0 0))
  .next { s with fuses := { s.fuses with owner := s.fuses.owner.or (enrolled s.fuses s.mach cmd r) }, mach := runEffect go s.mach }

/-- The fused counter after SVN_COMMIT (R576, R577). -/
def svnAfter (f : Fuses) (m : Mach) : Nat := max f.svn ((m.hm.fw.map (·.2.1)).getD 0)

/-- SVN_COMMIT (R577): the fused counter rises to the running firmware's version; it never falls. -/
def execSvnCommit (cmd : CmdCtx) (s : State) : Host.Outcome State Fault Refusal :=
  let n := svnAfter s.fuses s.mach
  let go := fun (m : Mach) => harbourCmd m cmd 0x55 noWait (fun m => complete (m.setRegN rHM_SVN n) 0 cmd.cid 0x55 0 0 0)
  .next { s with fuses := { s.fuses with svn := if harbourRuns s.mach cmd 0x55 noWait then n else s.fuses.svn }, mach := runEffect go s.mach }

/-- RMA_CONSENT (R590). -/
def execRmaConsent (cmd : CmdCtx) (s : State) : Host.Outcome State Fault Refusal :=
  s.effect (fun m => harbourCmd m cmd 0x56 noWait (fun m => complete (m.setFlagOf rHM_STATUS 3 true) 0 cmd.cid 0x56 0 0 0))

/-- ENTROPY_HEALTH_TEST (R560). -/
def execEntropyHealthTest (pass : Bool) (s : State) : Host.Outcome State Fault Refusal :=
  s.effect (fun m => if pass then m.setFlagOf rHM_STATUS 2 false else raiseD (m.setFlagOf rHM_STATUS 2 true) 0x0D0B 0)

/-! ## Locks and debug -/

/-- A write of HM_LOCK_SET by tenant 0 (R552). -/
def writeLockSet (m : Mach) (v : Word) : Mach := m.setReg rHM_LOCK_STATE (m.reg rHM_LOCK_STATE ||| BitVec.ofNat 32 (fld v 0 20))

/-- Bytes of consecutive registers, each word little-endian (R7). -/
def regBytes (m : Mach) (a n : Nat) : List Byte := (List.range n).flatMap (fun i => leBytes 4 (m.regN (a + 4 * i)))

/-- A fresh challenge (R585), unless the entropy source has failed (R560). -/
def newChallenge (m : Mach) : Mach :=
  if m.flagOf rHM_STATUS 2 then m
  else
    let (d, m) := m.draw
    let v := Config.freeValue d
    let m := (List.range 12).foldl (fun m i => m.setRegN (rDB_CHALLENGE_0 + 4 * i) (bits v (32 * i) 32)) m
    { m with hm := { m.hm with challenge := true } }

/-- The response in DB_RESPONSE verifies for a level (R585): its condition holds, and its signature is the named key's. -/
def unlockOk (f : Fuses) (m : Mach) (level : Nat) : Bool :=
  let msg := regBytes m rDB_CHALLENGE_0 12 ++ leBytes 16 Config.uid ++ leBytes 1 level
  let sig := regBytes m rDB_RESPONSE_0 24
  m.hm.challenge &&
  (match level, f.owner with
   | 1, some h => ecdsaVerify (Config.keyOfHash h) (sha384 msg) sig
   | 2, o => (o.isNone || m.flagOf rHM_STATUS 3) && ecdsaVerify (Config.keyOfHash Config.vendorKeyHash) (sha384 msg) sig
   | _, _ => false)

/-- The keys of tenants 1–63 are destroyed and their records erased, before a vendor unlock takes effect (R588, R597). -/
def vendorWipe (m : Mach) : Mach :=
  let m := ((tenants m).filter (· != 0)).foldl dropKey m
  { m with fl := { m.fl with records := m.fl.records.filter (·.1 == 0) }, hm := { m.hm with unlocking := true } }

/-- An unlock attempt (R585–R588). -/
def unlock (f : Fuses) (m : Mach) (level : Nat) : Mach :=
  if m.flagOf rDB_STATE 8 then raiseT m 0x0D0D 0 0
  else
    let ok := unlockOk f m level
    let m := { m with hm := { m.hm with challenge := false } }
    if !ok then
      let m := m.satFld rDB_STATE 4 4 1
      raiseT (if m.fldOf rDB_STATE 4 4 = 8 then m.setFlagOf rDB_STATE 8 true else m) 0x0D0C 0 0
    else if level = 1 then (m.setFldOf rDB_STATE 0 2 1).setFldOf rDB_STATE 2 2 (max 1 (m.fldOf rDB_STATE 2 2))
    else settleUnlock (vendorWipe (m.setFlagOf rHM_STATUS 3 false))

/-- A write of DB_CTRL by tenant 0 (R585, R589): its bits act in ascending order. -/
def writeDbCtrl (f : Fuses) (m : Mach) (v : Word) : Mach :=
  let m := if flag v 0 then newChallenge m else m
  let m := if flag v 1 then unlock f m (fld v 2 2) else m
  if flag v 4 then { m.setFldOf rDB_STATE 0 2 0 with hm := { m.hm with unlocking := false } } else m

end Sys2Proof.Machine
end

