-- ==== Sys2Proof/Machine/Tick.lean ====
section
/-!
DEFINITION. The tick (R16–R63): submissions and their validation, slots, the seam, the tick boundary, scrubs (R566–R568), enable boundaries (R324) and
the reference clock (R18, R404, R494).
-/
namespace Sys2Proof.Machine

/-! ## Resources -/

/-- The strict-domain resources that an entry names (R566): 0–3 quadrants, 4–11 clusters, 12–15 sequencers, 32–95 berths. -/
def entryRes (e : Entry) : List Nat :=
  bitList e.quad 4 ++ (bitList e.vec 8).map (· + 4) ++ (bitList e.seq 4).map (· + 12) ++ (bitList e.berths 64).map (· + 32)

/-- The power domain of a resource. -/
def resDom (i : Nat) : Nat := if 12 ≤ i ∧ i < 16 then 12 else i

/-- The slots of a table: its valid entries, an urgent entry of LENGTH 0 apart (R26). -/
def slotsOf (t : Tab Word) : List (Nat × Entry) := (validEntries t).filter (fun e => e.2.length != 0)

/-- Two slots share a resource. -/
def sharesRes (a b : Entry) : Bool :=
  (a.quad &&& b.quad) != 0 || (a.seq &&& b.seq) != 0 || (a.vec &&& b.vec) != 0 || (a.berths &&& b.berths) != 0

/-- What a scrub clears beside the tag (R567): a cluster's, a sequencer's or a berth's contents. -/
def wipeRes (m : Mach) (i : Nat) : Mach :=
  if i < 4 then m
  else if i < 12 then { m with st := { m.st with v := tabClear m.st.v (32 * (i - 4)) 32 } }
  else if i < 16 then
    let q := i - 12
    { m with st := { m.st with s := tabClear m.st.s (64 * q) 64, p := tabClear m.st.p (8 * q) 8, d := tabClear m.st.d (16 * q) 16 } }
  else { m with st := { m.st with berth := tabClear m.st.berth (524288 * (i - 32)) 524288 } }

/-- Scrub one resource, or mark it pending while it is not on (R566–R568); a scrub of a berth is a hold (R255, R263). -/
def scrubRes (m : Mach) (i : Nat) : Mach :=
  if !isOn m (resDom i) then { m with tk := { m.tk with pendScrub := m.tk.pendScrub ||| 2 ^ i } }
  else
    let m := if 32 ≤ i then overtake m (2 ^ (i - 32)) else m
    let m := wipeRes m i
    let m := { m with tk := { m.tk with pendScrub := m.tk.pendScrub &&& (2 ^ 96 - 1 - 2 ^ i), owner := tabDel m.tk.owner i } }
    m.setRegN rHM_SCRUB_COUNT (m.regN rHM_SCRUB_COUNT + 1)

/-- Of the slots that name a resource, the one that starts first at or after a quay cycle. -/
def firstNaming (ss : List (Nat × Entry)) (i frm : Nat) : Option Entry :=
  ((sortOn (fun e => e.2.start) (ss.filter (fun e => decide (frm ≤ e.2.start) && (entryRes e.2).contains i))).map (·.2)).head?

/-- The next slot that names a resource belongs to another tenant than its last owner (R566). -/
def passes (m : Mach) (ss : List (Nat × Entry)) (i frm : Nat) : Bool :=
  match tabFind m.tk.owner i, firstNaming ss i frm with
  | some t, some e => e.tenant != t
  | _, _ => false

/-- Strict-domain resources. -/
def allRes : List Nat := (List.range 16) ++ (List.range 64).map (· + 32)

/-! ## Submissions -/

/-- The slot limit L (R21): the largest E with E + ⌊E / 64⌋ ≤ Q. -/
def slotLimit (period seam pl : Nat) : Nat :=
  let q := (period - seam) * plQuay pl / 48
  64 * (q / 65) + min (q % 65) 63

/-- A reserved bit of an entry is set (R25). -/
def entryResv (t : Tab Word) (n : Nat) : Bool :=
  let w := tabWord t n 2
  fld w 6 2 != 0 || fld w 29 3 != 0 || tabWord t n 6 != 0 || tabWord t n 7 != 0

/-- A reserved bit of the header is set (R24). -/
def headerResv (t : Tab Word) : Bool :=
  fld (tabGet t 0 0) 3 13 != 0 || (List.range 7).any (fun k => tabGet t (k + 1) 0 != 0)

/-- The period and seam length keep to R16 and R20. -/
def timingOk (period seam : Nat) : Bool :=
  decide (4800 ≤ period ∧ period ≤ 38400000 ∧ period % 48 = 0 ∧ seam % 48 = 0 ∧ 960 ≤ seam ∧ seam + 4800 < period)

/-- QUAD and SEQ keep to R25. -/
def masksOk (e : Entry) : Bool :=
  ([0, 1, 2, 4, 8, 3, 12, 15] : List Nat).contains e.quad && e.seq != 0 && (e.seq &&& e.quad) == e.quad

/-- Two slots overlap in time, and one of two slots of different tenants follows the other too soon (R30, R31). -/
def overlapIn (a b : Entry) : Bool := decide (a.start < b.start + b.length ∧ b.start < a.start + a.length)
def gapShort (a b : Entry) : Bool :=
  a.tenant != b.tenant && ((decide (a.start + a.length ≤ b.start ∧ b.start < a.start + a.length + 2112)) ||
                           (decide (b.start + b.length ≤ a.start ∧ a.start < b.start + b.length + 2112)))

/-- The loaded slot program of a handle, of a tenant (R71). -/
def slotProgOf (m : Mach) (t h : Nat) : Option SlotProg :=
  (m.sto.progs.find? (fun p => p.tenant == t && decide (p.h ≤ h ∧ h < p.h + p.progs.length))).bind (fun p => p.progs[h - p.h]?)

/-- An entry can use its slot program (R72). -/
def bindingOk (m : Mach) (e : Entry) : Bool :=
  match slotProgOf m e.tenant e.program with
  | none => false
  | some p =>
    popCount e.seq 4 == p.streams && popCount e.quad 4 == p.width && popCount e.vec 8 == p.vecCount.foldl (· + ·) 0 &&
      (p.berths &&& e.berths) == p.berths && decide (p.maxCycles ≤ e.length)

/-- The first entry of a list that satisfies a test. -/
def firstEntry (es : List (Nat × Entry)) (p : Nat × Entry → Bool) : Option Nat := (es.find? p).map (·.1)

/-- The first failure of a submission, as entry and reason (R30), in the order of the reason codes. -/
def submissionFault (m : Mach) (s : Submission) : Option (Nat × Nat) :=
  let t := s.table
  let es := validEntries t
  let ss := slotsOf t
  let e0 := entryOf t 0
  let urgent := if e0.valid then e0.length else 0
  let pl := tablePlMin t
  let at' := fun (k : Nat) (o : Option Nat) => o.map (fun n => (n, k))
  let pairs := fun (p : Entry → Entry → Bool) => firstEntry ss (fun a => ss.any (fun b => decide (a.1 < b.1) && sharesRes a.2 b.2 && p a.2 b.2))
  let checks : List (Option (Nat × Nat)) :=
    [ if headerResv t then some (0xFF, 1) else none,
      at' 1 (firstEntry es (fun e => entryResv t e.1)),
      if timingOk s.period s.seam then none else some (0xFF, 2),
      at' 3 (firstEntry es (fun e => !masksOk e.2)),
      at' 4 (firstEntry es (fun e => e.1 != 0 && e.2.length == 0)),
      at' 5 (firstEntry es (fun e => if e.1 = 0 then e.2.start != 0 else decide (e.2.start < urgent))),
      at' 6 (firstEntry es (fun e => decide (slotLimit s.period s.seam pl < e.2.start + e.2.length))),
      at' 7 (pairs overlapIn),
      at' 8 (pairs gapShort),
      at' 9 (firstEntry es (fun e => !tenantExists m e.2.tenant)),
      at' 10 (firstEntry es (fun e => if e.2.cascade then !(decide (2 ≤ e.2.stage ∧ e.2.stage ≤ 5) &&
        (cascOf m e.2.tenant).any (fun c => (c.stage e.2.stage).kind != 0)) else e.2.stage != 0)),
      at' 11 (firstEntry ss (fun e => !bindingOk m e.2)),
      at' 12 (firstEntry es (fun e => e.2.manifest != 0xFFFF && !m.mem.mans.any (fun x => x.h == e.2.manifest && x.tenant == e.2.tenant))),
      if curPl m < pl then some (0xFF, 13) else none ]
  checks.findSome? id

/-- COMMIT_PENDING of TK_STATUS follows the submissions (R55). -/
def showPending (m : Mach) : Mach := m.setFlagOf rTK_STATUS 0 (m.tk.validating.isSome || m.tk.accepted.isSome)

/-- A write of TK_COMMIT by tenant 0 (R27). -/
def writeTkCommit (m : Mach) (v : Word) : Mach :=
  if !flag v 0 ∨ m.tk.validating.isSome then m
  else
    let s : Submission := { table := m.tk.shadow, period := m.fldOf rTK_PERIOD_NEXT 0 26, seam := m.fldOf rTK_SEAM_LEN 0 16, bound := [],
                            resume := m.tk.halted ||| m.tk.haltNext }
    showPending (({ m with tk := { m.tk with validating := some s } } : Mach).setFlagOf rTK_STATUS 1 false)

/-- A tenant's lists are not released while it is halted; a submission that resumes it counts it as running (R42, R247). -/
def listsHalted (m : Mach) (t : Nat) : Bool := bit m.tk.halted t && !m.tk.accepted.any (fun s => bit s.resume t && (validEntries s.table).any (·.2.tenant == t))

/-- The manifest bindings of a table (R755). -/
def bindings (m : Mach) (t : Tab Word) : Tab Nat :=
  (validEntries t).foldl (fun b e => if e.2.manifest = 0xFFFF then b else tabSet b e.1 (bindOf m e.2.manifest) 0) []

/-- The stage of a cascade entry is speculative now (R249, R320). -/
def entrySpec (m : Mach) (e : Entry) : Bool := e.cascade && (cascOf m e.tenant).any (fun c => (c.stage e.stage).st == 1)

/-- The input list of slot `n` is released for the run of an entry with a bound manifest (R247, R249). Answers the list where there is one. -/
def feedEntry (m : Mach) (n : Nat) (e : Entry) (bound : Nat) (fabric : Nat) : Mach × Option Nat :=
  match boundMan m bound with
  | none => (m, none)
  | some x => if listsHalted m e.tenant then (m, none) else (releaseInputs m n e.tenant x (entrySpec m e) fabric, some m.mem.nextId)

/-- An entry continues the outgoing one of its slot number (R247). -/
def continues (a b : Entry) : Bool := a.valid && b.valid && a.tenant == b.tenant && a.program == b.program && a.manifest == b.manifest

/-- An outgoing slot's end cycle in the tick under way is still to come (R247). -/
def endToCome (m : Mach) (n : Nat) (e : Entry) : Bool :=
  e.valid && e.length != 0 && !m.clk.inSeam && ((findRun m n).isSome || (tabFind m.tk.outcomes n).isNone)

/-- TABLE_VALIDATION_DONE (R28–R30, R247): the submission is accepted, and the input lists of its new entries are released, or it is rejected. -/
def validateTable (m : Mach) : Mach :=
  match m.tk.validating with
  | none => m
  | some s =>
    let m := { m with tk := { m.tk with validating := none } }
    match submissionFault m s with
    | some (n, r) =>
      let v := n + 256 * r + 65536 * fld (tabGet s.table 0 0) 16 16
      raiseT (showPending ((m.setRegN rTK_REJECT v).setFlagOf rTK_STATUS 1 true)) 0x0102 0 v
    | none =>
      let s := { s with bound := bindings m s.table }
      let m := showPending { m with tk := { m.tk with accepted := some s } }
      (slotsOf s.table).foldl (fun m e =>
        let old := entryOf m.tk.active e.1
        if continues old e.2 ∨ endToCome m e.1 old then m else (feedEntry m e.1 e.2 (tabGet s.bound e.1 0) 0).1) m

/-- TABLE_VALIDATION_DONE (R30). -/
def execTableValidationDone (s : State) : Host.Outcome State Fault Refusal := s.effect validateTable

/-! ## A slot starts -/

/-- A strict-domain resource counts as on in the tick under way (R481, R568). -/
def resOn (m : Mach) (i : Nat) : Bool := bit m.pm.onTick (resDom i) && isOn m (resDom i) && !bit m.tk.pendScrub i

/-- A slot is IDLE in this tick before any manifest check (R41–R43, R45, R73, R324, R481, R494, R568, R628, R755). -/
def idleAt (m : Mach) (n : Nat) (e : Entry) : Bool :=
  let stageOff := e.cascade && !(cascOf m e.tenant).any (fun c => (c.stage e.stage).enabled && (c.stage e.stage).st != 0)
  let lost := e.manifest != 0xFFFF && (boundMan m (tabGet m.tk.bound n 0)).isNone
  !m.tk.strict || m.clk.coarseTick || m.ch.align.isSome || bit m.tk.halted e.tenant || stageOff || !(entryRes e).all (resOn m) ||
    (slotProgOf m e.tenant e.program).isNone || lost

/-- What a manifest check finds, as CR_MAN_STATE.LAST codes it (R45, R249, R257, R262): 0 complete, 1 late, 2 failed, 3 withheld, 4 no manifest. -/
def manCheck (m : Mach) (n : Nat) (e : Entry) : Nat :=
  if e.manifest = 0xFFFF then 4
  else if m.flagOf (rCR_MAN_STATE n) 0 then 0
  else if (feedList m n).any (·.withheld) then 3
  else if (feedList m n).any (·.failed != 0) then 2
  else 1

/-- What becomes of a slot at its START (R41–R45, R249, R262): the outcome as R46 codes it, and the fault of a slot that is skipped, 0xFFFF where it
is stale. -/
def startOutcome (m : Mach) (n : Nat) (e : Entry) : Nat × Nat :=
  if idleAt m n e then (1, 0)
  else match manCheck m n e with
    | 0 => (0, 0)
    | 4 => (0, 0)
    | 3 => (1, 0)
    | 2 => (2, ((feedList m n).map (·.failed)).getD 0)
    | _ => if isStrict m e.tenant then (2, 0x0103) else (2, 0xFFFF)

/-- The manifest state of a slot after its START (R250, R257): what the check found, where there was one; the check takes the bit and the list that
was released for the run. `b` is the machine that the check saw. -/
def showCheck (m b : Mach) (n : Nat) (e : Entry) : Mach :=
  if idleAt b n e then m
  else
    let m := m.setFldOf (rCR_MAN_STATE n) 4 4 (manCheck b n e)
    if e.manifest = 0xFFFF then m else (m.setFlagOf (rCR_MAN_STATE n) 0 false).setFlagOf (rCR_MAN_STATE n) 1 false

/-- The streams of a slot program on the sequencers and clusters of an entry (R64–R66). -/
def bindStreams (e : Entry) (p : SlotProg) : List Stream :=
  let seqs := bitList e.seq 4
  let first := ((if e.quad = 0 then seqs else bitList e.quad 4).head?).getD 0
  let order := first :: seqs.filter (· != first)
  let vs := bitList e.vec 8
  p.code.zipIdx.map (fun c =>
    let before := (p.vecCount.take c.2).foldl (· + ·) 0
    { seq := order.getD c.2 0, clusters := (vs.drop before).take (p.vecCount.getD c.2 0), code := c.1, pc := 0, done := 0, cyc := 0, loops := [],
      delay := none, ctl := .none, ended := false, busyT := 0, busyV := 0, busyM := 0 })

/-- The hold of a slot from its START to its end cycle (R37, R44): with its streams where it runs. -/
def slotRun (m : Mach) (n : Nat) (e : Entry) (streams : List Stream) (skip : Nat) : SlotRun :=
  let man := boundMan m (tabGet m.tk.bound n 0)
  { id := n, tenant := e.tenant, start := e.start, length := e.length, berths := e.berths, quad := e.quad, vec := e.vec, seqs := e.seq,
    cascade := e.cascade, stage := e.stage, spec := entrySpec m e, manifest := e.manifest,
    inputs := (man.map (fun x => x.ins.foldl (fun k i => k ||| berthMask i.berth i.len) 0)).getD 0,
    choice := m.regN (rTK_CHOICE e.tenant), streams, lands := [], accs := [], holds := [], nextHold := 0, ranged := [], ported := [], maBusy := 0,
    records := [], pilots := [], cut := false, skip, heat := (((feedList m n).map (·.heat)).getD []) }

/-- The slot may start now: it is a slot of the active table, its START has not passed, and what it names is free (R37). -/
def mayStart (m : Mach) (n : Nat) (e : Entry) : Bool :=
  e.valid && e.length != 0 && !m.clk.inSeam && (tabFind m.tk.outcomes n).isNone &&
  m.st.runs.all (fun r => r.isTask || ((r.quad &&& e.quad) == 0 && (r.seqs &&& e.seq) == 0 && (r.vec &&& e.vec) == 0 && (r.berths &&& e.berths) == 0))

/-- SLOT_START (R37, R41–R45): the manifest check samples the bit and clears it; the slot holds its resources and becomes their last owner. -/
def slotStart (m : Mach) (n : Nat) : Mach :=
  let e := entryOf m.tk.active n
  if !mayStart m n e then m
  else
    let m := beginFlips (advanceTo m (quayTime m e.start)) e.start
    let b := m
    let (o, skip) := startOutcome m n e
    let prog := (slotProgOf m e.tenant e.program).map (bindStreams e)
    let r := slotRun m n e (if o = 0 then prog.getD [] else []) skip
    let m := overtake (setOutcome m n o) e.berths
    let m := { m with st := { m.st with runs := m.st.runs ++ [r] },
                      tk := { m.tk with owner := (entryRes e).foldl (fun t i => tabSet t i e.tenant 64) m.tk.owner } }
    let m := showCheck m b n e
    let m := if o = 0 then (match feedList m n with
        | some l => { m with mem := { m.mem with lists := m.mem.lists.filter (·.id != l.id) } }
        | none => m) else m
    if o ≠ 2 then m
    else if skip = 0xFFFF then countChoice m e.tenant 0
    else failRun m skip e.tenant n

/-- SLOT_START (R37). -/
def execSlotStart (n : Fin 255) (s : State) : Host.Outcome State Fault Refusal := s.effect (fun m => slotStart m n.val)

/-! ## A slot ends -/

/-- The notice of a run whose bond exists is held there; any other is posted (R333, R677). -/
def noteRun (m : Mach) (r : SlotRun) (status cls : Nat) : Mach :=
  if r.spec then
    match runBond m r with
    | some (c, b) => putCasc m (c.putBond { b with notes := b.notes ++ [(r.id, m.clk.tick, status, cls)] })
    | none => m
  else runNotice m r.id r.tenant m.clk.tick status cls

/-- A run reached its end with outcome RAN (R236, R248, R629, R677): its reads are credited, its records sent and its write-back list released. -/
def ranEnd (m : Mach) (r : SlotRun) : Mach :=
  if r.spec then
    let m := match runBond m r with
      | some (c, b) => putCasc m (c.putBond { b with heat := b.heat ++ r.heat })
      | none => m
    noteRun m r 0 0
  else
    let m := r.heat.foldl (fun m h => creditHeat m h.1 h.2) m
    let m := r.records.foldl (sendRecord r.tenant r.id) m
    match boundMan m (tabGet m.tk.bound r.id 0) with
    | some x => if bit m.tk.halted r.tenant then noteRun m r 0 0 else releaseList m r.id 1 r.tenant x false 0 (some (m.clk.tick, 0))
    | none => noteRun m r 0 0

/-- A run is truncated (R40, R523). -/
def truncEnd (m : Mach) (r : SlotRun) : Mach :=
  let m := (setOutcome m r.id 3).setRegN rTK_OVERRUN_COUNT (m.regN rTK_OVERRUN_COUNT + 1)
  let m := if r.cut then m else raiseAt m 0x0101 r.tenant false r.id r.length 0
  noteRun m r (if r.cut then 0x0C05 else 0x0101) 1

/-- The records of a run that wait for data (R145, R146): none of a truncated run, and FRECV alone of a speculative one. -/
def waiting (r : SlotRun) (ran : Bool) : List FabRec :=
  if !ran then [] else r.records.filter (fun x => if r.spec then x.kind == 1 else x.kind != 0)

/-- The input list of the slot's next run is released at its end cycle (R145, R247). -/
def feedNext (m : Mach) (n tenant : Nat) (recs : List FabRec) : Mach :=
  let (t, b) := match m.tk.accepted with
    | some s => (s.table, s.bound)
    | none => (m.tk.active, m.tk.bound)
  let e := entryOf t n
  let (m, id) := if e.valid && e.length != 0 then feedEntry m n e (tabGet b n 0) (if e.tenant = tenant then recs.length else 0) else (m, none)
  waitRecs m tenant n recs id

/-- The gap scrubs that begin at a slot's end cycle (R31): of what it names and the next slot of the tick that names it takes over. -/
def gapScrub (m : Mach) (r : SlotRun) : Mach :=
  let ss := slotsOf m.tk.active
  let e := entryOf m.tk.active r.id
  ((entryRes e).filter (fun i => passes m ss i r.endCycle)).foldl scrubRes m

/-- SLOT_END (R38–R40, R46, R247). -/
def slotEnd (m : Mach) (n : Nat) : Mach :=
  match findRun m n with
  | none => m
  | some r0 =>
    let m := beginFlips (advanceTo m (quayTime m r0.endCycle)) r0.endCycle
    let (m, r) := closeRun m r0
    let o := tabGet m.tk.outcomes n 1
    let ran := decide (o = 0) && !r.cut && r.reachedEnd
    let m := if o = 0 then (if ran then ranEnd m r else truncEnd m r)
      else if o = 2 then (if r.skip = 0xFFFF then noteRun m r 0 2 else noteRun m r r.skip 1) else m
    gapScrub (feedNext m n r.tenant (waiting r ran)) r

/-- SLOT_END (R40). -/
def execSlotEnd (n : Fin 255) (s : State) : Host.Outcome State Fault Refusal := s.effect (fun m => slotEnd m n.val)

/-! ## The seam -/

/-- The slots that still run reach their end cycles before the seam (R20, R21). -/
def endSlots (m : Mach) : Mach :=
  ((sortOn (·.endCycle) (m.st.runs.filter (fun r => !r.isTask))).map (·.id)).foldl slotEnd m

/-- At the start of the seam (R330, R332, R341): expired bonds drop, and flips that found no place begin. -/
def seamBonds (m : Mach) : Mach :=
  let m := expireBonds m
  (m.cas.flatMap (fun c => (c.bonds.filter (fun b => b.st == 1)).map (fun b => (c.tenant, b.stage)))).foldl (fun m p => beginFlip m p.1 p.2) m

/-- The tenants marked for halting are halted (R42). -/
def haltSeam (m : Mach) : Mach := { m with tk := { m.tk with halted := m.tk.halted ||| m.tk.haltNext, haltNext := 0 } }

/-- Step 1 of R35 (R566–R568): answers whether the seam holds a scrub. -/
def scrubSeam (m : Mach) : Mach × Bool :=
  let ss := slotsOf (match m.tk.accepted with | some s => s.table | none => m.tk.active)
  let bonds := m.cas.foldl (fun k c => (c.bonds.filter (·.st == 3)).foldl (fun k b => k ||| b.berths) k) 0
  let due := allRes.filter (fun i => passes m ss i 0 || (bit m.tk.pendScrub i && isOn m (resDom i)) || (32 ≤ i && bit bonds (i - 32)))
  let m' := due.foldl scrubRes { m with cas := m.cas.map (fun c => { c with bonds := c.bonds.filter (·.st != 3) }) }
  let hold := due.any (fun i => isOn m (resDom i))
  (if hold then advanceTo m' (m'.clk.now + quayToRef (curPl m') 2112) else m', hold)

/-- TK_SLOT_STATE word `k` from the outcomes of the tick (R46, R55). -/
def slotStateWord (m : Mach) (k : Nat) : Nat :=
  ((List.range 16).map (fun j => if 16 * k + j = 255 then 0 else 4 ^ j * tabGet m.tk.outcomes (16 * k + j) 1)).foldl (· + ·) 0

/-- The outcomes of the ending tick are recorded (R46). -/
def recordOutcomes (m : Mach) : Mach := (List.range 16).foldl (fun m k => m.setRegN (rTK_SLOT_STATE k) (slotStateWord m k)) m

/-- An accepted table becomes active, the old one the shadow (R28); tenants it resumes are no longer halted (R42). -/
def activateTable (m : Mach) : Mach :=
  match m.tk.accepted with
  | none => m
  | some s =>
    let named := maskOf ((validEntries s.table).map (·.2.tenant))
    let m := { m with tk := { m.tk with active := s.table, shadow := m.tk.active, bound := s.bound, accepted := none, timing := some (s.period, s.seam),
                                        halted := m.tk.halted &&& (2 ^ 64 - 1 - (s.resume &&& named)) } }
    showPending (m.setFldOf rTK_STATUS 16 16 (fld (tabGet s.table 0 0) 16 16))

/-- The power changes of a seam (R176, R480): accepted changes of strict domains begin, resources that failed parity go offline, and a self-test's
result takes effect. -/
def powerSeam (m : Mach) : Mach :=
  let off := bitList m.tk.offNext 16
  let m := off.foldl takeOffline { m with tk := { m.tk with offNext := 0 } }
  let m := seamSelftest m
  pumpPower { m with pm := { m.pm with acts := m.pm.acts.map (fun a => { a with seam := false }) } }

/-- Tick programs of destroyed tenants that no active table names are unloaded (R103). -/
def unloadSeam (m : Mach) : Mach :=
  let gone := m.sto.progs.filter (fun p => bit m.sto.unloadTenants p.tenant &&
    !(validEntries m.tk.active).any (fun e => decide (p.h ≤ e.2.program ∧ e.2.program < p.h + p.progs.length)))
  let m := gone.foldl unloadProg m
  { m with sto := { m.sto with unloadTenants := maskOf ((m.sto.progs.map (·.tenant)).filter (bit m.sto.unloadTenants)) } }

/-- Step 3 of R35, below the quay line: handovers and placement while TMOV serves, and the limit of read disturb (R237–R240, R284). -/
def memorySeam (m : Mach) : Mach :=
  let m := { m with fl := { m.fl with limit := m.regN rFL_RD_LIMIT } }
  if serves m 14 then placement m m.clk.tick else m

/-- SEAM (R20, R35, R36). -/
def seam (m : Mach) : Mach :=
  if m.clk.inSeam then m
  else
    let m := endSlots m
    let m := beginFlips m (quayNow (advanceTo m (seamStart m)))
    let m := advanceTo m (seamStart m)
    let m := seamBonds { m with clk := { m.clk with inSeam := true } }
    let m := haltSeam (deliverySeam m)
    let (m, scrubbed) := scrubSeam m
    let m := unloadSeam (activateTable (recordOutcomes m))
    let m := memorySeam (fabricSeam m)
    perfSeam (powerSeam m) scrubbed

/-- SEAM (R35). -/
def execSeam (s : State) : Host.Outcome State Fault Refusal := s.effect seam

/-! ## The tick boundary -/

/-- The stages whose enable boundary this is (R324, R325). -/
def enableStages (m : Mach) : Mach :=
  (m.cas.flatMap (fun c => (List.range 6).map (fun j => (c.tenant, j)))).foldl (fun m p =>
    match cascOf m p.1 with
    | none => m
    | some c =>
      let s := c.stage p.2
      match s.bound with
      | none => m
      | some d =>
        if m.clk.tickStart < d then m
        else
          let m := putCasc m (c.setStage p.2 { s with bound := none, enabled := true })
          if (stageDomains m p.1 p.2).all (fun d => bit m.pm.onTick d && isOn m d) then m else raiseT m 0x0704 p.1 0) m

/-- The tick is coarse (R18): the reference is stopped, or restarted less than 48 reference cycles before a boundary since. -/
def stillCoarse (m : Mach) : Bool := m.clk.refStopped || (m.clk.coarseTick && decide (m.clk.tickStart < m.clk.restartAt + 48))

/-- A period and seam length that became active take effect (R28). -/
def takeTiming (m : Mach) : Mach :=
  match m.tk.timing with
  | none => m
  | some (p, s) => ({ m with tk := { m.tk with timing := none, seam := s } } : Mach).setRegN rTK_PERIOD p

/-- TICK_BOUNDARY (R17–R19, R22, R28, R55, R481): the seam's end and the next tick's quay cycle 0. -/
def tickBoundary (m : Mach) : Mach :=
  let m := seam m
  let t := tickEnd m
  let m := takeTiming (advanceTo m t)
  let m := { m with clk := { m.clk with tick := (m.clk.tick + 1) % 2 ^ 48, tickStart := t, inSeam := false } }
  let c := stillCoarse m
  let m := { m with clk := { m.clk with coarseTick := c },
                    tk := { m.tk with strict := m.flagOf rTK_CTRL 0, outcomes := [], stretched := 0, lastStretch := none },
                    pm := { m.pm with onTick := maskOf ((List.range 96).filter (isOn m)) } }
  let m := if c then m else m.setFlagOf rTK_STATUS 2 false
  fabricBoundary (enableStages m)

/-- TICK_BOUNDARY (R17). -/
def execTickBoundary (s : State) : Host.Outcome State Fault Refusal := s.effect tickBoundary

/-! ## The reference -/

/-- REFERENCE_STOP (R18, R63, R404): the tick under way becomes coarse, and its running slots are IDLE. -/
def referenceStop (m : Mach) : Mach :=
  if m.clk.refStopped then m
  else
    let m := idleRuns m
    let m := { m with clk := { m.clk with refStopped := true, stopAt := m.clk.now, coarseTick := true } }
    let m := m.setFlagOf rTK_STATUS 2 true
    if m.flagOf rTK_CTRL 0 then raiseD m 0x0105 0 else m

/-- REFERENCE_STOP (R18). -/
def execReferenceStop (s : State) : Host.Outcome State Fault Refusal := s.effect referenceStop

/-- REFERENCE_RESTART (R18, R404, R494): device time counts reference edges again, and the transitions that waited count their times from here. -/
def referenceRestart (m : Mach) : Mach :=
  if !m.clk.refStopped then m
  else
    let now := m.clk.now
    let clean := m.fl.clean
    let go := fun (t : Trans) => if t.xtal then { t with xtal := false, begun := now, due := now + transTime clean t.dom t.src t.tgt } else t
    pumpPower { m with clk := { m.clk with refStopped := false, restartAt := now, xtalStarting := false, coarsePast := m.clk.coarsePast ++ [(m.clk.stopAt, now)] },
                       pm := { m.pm with trans := m.pm.trans.map go } }

/-- REFERENCE_RESTART (R18). -/
def execReferenceRestart (s : State) : Host.Outcome State Fault Refusal := s.effect referenceRestart

end Sys2Proof.Machine
end

