-- ==== Sys2Proof/Machine/Startup.lean ====
section
/-!
DEFINITION. Brown-out reset (R14, R225, R536), the start-up sequence (R690–R699, R757), boundary scan (R583) and the IO banks' supplies (R723, R724).
-/
namespace Sys2Proof.Machine

/-! ## Brown-out reset -/

/-- The registers that the keep-alive supply keeps: RTC and event latch (R385, R536). -/
def keptRegs : List Nat :=
  [rLH_RTC_ALARM_LO, rLH_RTC_ALARM_LO + 4, rLH_RTC_PERIOD, rLH_RTC_TRIM, rLH_EVT_PENDING, rLH_EVT_LOST]

/-- The allocations that outlive a brown-out reset (R225, R230, R235): those with PERSIST, as flash holds them; one that is being freed is gone. -/
def keptAllocs (m : Mach) : List Alloc :=
  (m.mem.allocs.filter (fun a => a.persist && a.zeroing.isNone)).map (fun a =>
    a.pg.foldl (fun b e => b.setPage e.1 { Pg.init with poison := e.2.poison && a.home == 1 && !e.2.dram }) { a with pg := [], host := [] })

/-- What the flash keeps (R272, R275, R291, R299): durable writes and images; ingests and writes under way are gone. -/
def keptFlash (fl : Flash) : Flash :=
  { fl with writes := [], ingest := none, images := fl.images.map (fun i => { i with deleting := false }), limit := 60000 }

/-- A brown-out reset (R536): everything is reset but the flash, the RTC and the event latch; the start of this KIND is to run. -/
def brownOut (m : Mach) (kind : Nat) : Mach :=
  let x := Mach.inReset kind m.fresh m.lh.rtc m.latch (keptFlash m.fl) (Deliv.init m.pd.vioA m.pd.vioH m.pd.vioHHigh)
  let x := { x with mem := { x.mem with allocs := keptAllocs m, gens := m.mem.gens } }
  keptRegs.foldl (fun x a => x.setReg a (m.reg a)) x

/-- BROWN_OUT_RESET (R533, R536): a start that a brown-out interrupts begins again (R711). -/
def brownOutReset (m : Mach) : Mach := brownOut m (if m.pm.start = some 0 then 0 else 1)

/-- BROWN_OUT_RESET (R536). -/
def execBrownOutReset (s : State) : Host.Outcome State Fault Refusal := s.effect brownOutReset

/-- KEEP_ALIVE_LOSS (R536, R690): while VBAT is below V_BOR, the RTC and the event latch are lost, and the next start is a power-on start. -/
def keepAliveLoss (m : Mach) : Mach :=
  if m.pm.start = none ∨ m.pm.start = some 2 then m
  else
    let m := { m with latch := [], lh := { m.lh with rtc := Rtc.init }, pm := { m.pm with start := some 0 } }
    keptRegs.foldl (fun m a => m.setReg a (regReset a)) m

/-- KEEP_ALIVE_LOSS (R536). -/
def execKeepAliveLoss (s : State) : Host.Outcome State Fault Refusal := s.effect keepAliveLoss

/-! ## The start-up sequence -/

/-- Reference cycles of `n` ms. -/
def msToRef (n : Nat) : Nat := 38400 * n

/-- The longest time of step 4, whether DRAM was trained in full, and whether it is trained (R692, R693). -/
def trainOutcome : Training → Nat × Bool × Bool
  | .cached => (msToRef 5, false, true)
  | .full => (msToRef 50, true, true)
  | .cachedThenFull => (msToRef 55, true, true)
  | .failed false => (msToRef 50, true, false)
  | .failed true => (msToRef 55, true, false)

/-- The longest time of step 6 for one image: 4.00 ms and 0.50 ms per MiB of its payload (R692). -/
def imageTime (i : Image) : Nat := msToRef 4 + ceilDiv (19200 * fwLen i.bytes) (2 ^ 20)

/-- Milliseconds since step 1, saturating (R704). -/
def msSince (m : Mach) (t0 : Nat) : Nat := min ((m.clk.now - t0) / 38400) 65535

/-- Ticks and audio frames that ended while the start ran: they pass without a slot or a task (R17, R350). -/
def passTime (m : Mach) : Mach :=
  let n := m.clk.now / m.regN rTK_PERIOD
  let fr := m.clk.now / 38400
  let m := { m with clk := { m.clk with tick := n % 2 ^ 48, tickStart := n * m.regN rTK_PERIOD }, lh := { m.lh with frameStart := 38400 * fr } }
  let m := (List.range fr).foldl (fun m _ => runRtc m) (m.setRegN rLH_FRAME fr)
  { m with pm := { m.pm with onTick := maskOf ((List.range 96).filter (isOn m)) } }

/-- ROM recovery (R697): HOST is raised, and queue pair 0 is served from the queue SRAM. -/
def enterRecovery (m : Mach) : Mach := raiseDomains (raiseD (m.setFlagOf rEF_START 4 true) 0x1001 0) [17]

/-- A recorded tenant at step 8 (R52, R555, R698): restored with its mode, nonce and quota, or reported and absent. -/
def restoreTenant (unreadable : Nat) (m : Mach) (e : Nat × Option (Nat × Nat × Nat)) : Mach :=
  let t := e.1
  match e.2 with
  | none => m
  | some (mode, nonce, quota) =>
    if !mounted m then raiseD m 0x1005 t
    else if bit unreadable t then
      let hs := (m.mem.allocs.filter (·.owner == t)).map (·.h)
      let m := hs.foldl dropAlloc (raiseD m 0x1005 t)
      { m with fl := { m.fl with records := tabSet m.fl.records t none none, images := m.fl.images.filter (·.owner != t) } }
    else
      let m := setTenRec m t { TenRec.init with nonce, key := true }
      let m := (m.setRegN (rHM_TENANT_CFG t) (1 + 2 * (mode % 2))).setRegN (rHM_IMG_QUOTA t) quota
      let m := (m.setRegN (rTK_CHOICE t) 0).setRegN (rTK_CHOICE_CAUSE t) 0
      m.setFlagOf (rHM_TENANTS_LO + 4 * (t / 32)) (t % 32) true

/-- Steps 7 and 8 with an accepted image (R555, R571, R690, R692, R757). -/
def bootFirmware (f : Fuses) (x : StartIn) (i : Image) (kind t0 rejected : Nat) (m : Mach) : Mach :=
  let m := advanceTo m (m.clk.now + msToRef 1)
  let m := { m with hm := { m.hm with fw := some (fwLabel i.bytes, fwSvn i.bytes, fwDigest i.bytes),
                                      mb := measureBoot f i.bytes (m.fldOf rDB_STATE 0 2) } }
  let m := (m.setRegN rHS_FW_VERSION (fwLabel i.bytes)).setFlagOf rEF_START 5 true
  let m := m.setFldOf rEF_START_TIME 0 16 (msSince m t0)
  let m := (List.range rejected).foldl (fun m _ => raiseD m 0x0D09 0) m
  let m := advanceTo m (m.clk.now + msToRef 20)
  let m := m.fl.records.foldl (restoreTenant x.unreadable) m
  let m := (m.setFldOf rEF_START_TIME 16 16 (msSince m t0)).setFlagOf rEF_START 6 true
  if kind = 1 then raiseD m 0x0C03 0 else m

/-- Step 5 (R272, R293–R296): FLC on, and the flash mounted; a recovery restart finds a mounted flash in order. -/
def startMount (x : StartIn) (m : Mach) : Mach :=
  let m := if mounted m then { m with fl := { m.fl with clean := true } } else m
  let m := advanceTo m (m.clk.now + msToRef (if m.fl.clean && x.journal then 40 else 350))
  let m := setDom m 16 0
  let m := if x.journal then mountFlash m else mountFail m
  m.setFlagOf rEF_START 3 (x.journal && m.flagOf rFL_STATUS 3)

/-- Steps 6 to 8 (R570, R694, R697). -/
def startBoot (f : Fuses) (x : StartIn) (kind t0 : Nat) (m : Mach) : Mach :=
  let (tried, ok) := bootTry f x.damaged (bootOrder m.fl)
  let m := advanceTo m (m.clk.now + (tried.map imageTime).foldl (· + ·) 0)
  let m := m.setFldOf rEF_START 8 4 (min tried.length 15)
  match ok with
  | some i => bootFirmware f x i kind t0 (tried.length - 1) m
  | none => enterRecovery ((List.range tried.length).foldl (fun m _ => raiseD m 0x0D09 0) m)

/-- Steps 2 and 3 (R499, R653, R690, R696, R699, R750, R757): the kind, the strap, the fuses' shadows, the mute and the crystal. -/
def startClocks (f : Fuses) (x : StartIn) (kind : Nat) (m : Mach) : Mach :=
  let m := { m with pm := { m.pm with start := none } }
  let m := m.setRegN rEF_START (kind + 128 * (if kind = 2 then m.fldOf rEF_START 7 1 else 0))
  let m := (m.setRegN rEF_START_TIME 0).setRegN rHS_FW_VERSION 0
  let m := { m with hm := { m.hm with fw := none } }
  let m := if kind = 2 then m else (m.setRegN rHS_MODE (b2n (x.hostSel && m.pd.vioH))).setFlagOf rLH_STATUS 0 true
  let m := (m.setFlagOf rHM_STATUS 0 f.owner.isSome).setRegN rHM_SVN f.svn
  let m := (m.setFlagOf rLH_MIC_MUTE 0 true).setFlagOf rLH_VAD_CFG 0 false
  let m := (List.range 8).foldl (fun m c => m.setFlagOf (rLH_CAP_CFG c) 0 false) m
  let m := if x.retries = 0 then m else raiseD m 0x0B06 0
  advanceTo m (m.clk.now + 19200 + msToRef 2 + x.retries * aonToRef 6144)

/-- The start-up sequence (R692): a start that is due runs to READY or to ROM recovery. -/
def startUp (f : Fuses) (x : StartIn) (m : Mach) : Mach :=
  match m.pm.start with
  | none => m
  | some kind =>
    let t0 := m.clk.now
    let m := startClocks f x kind m
    let m := { m with fl := { m.fl with boots := m.fl.boots + 1 } }
    let m := m.setRegN rHM_BOOT_COUNT m.fl.boots
    let (t, full, ok) := trainOutcome x.train
    let m := (advanceTo m (m.clk.now + t)).setFlagOf rEF_START 2 full
    let m :=
      if !ok then enterRecovery (raiseD (setDom m 15 2) 0x1002 0)
      else startBoot f x kind t0 (startMount x (((setDom m 15 0).setFlagOf rDM_STATUS 0 true).setFlagOf rDM_STATUS 1 full))
    if kind = 2 then m else passTime m

/-- BROWN_OUT_RELEASE (R692): VBAT has risen above V_BOR plus 60 mV, or a recovery restart is due. -/
def execBrownOutRelease (x : StartIn) (s : State) : Host.Outcome State Fault Refusal := s.effectF (fun f m => startUp f x m)

/-! ## Boundary scan -/

/-- EXTEST_ENTRY (R583): every domain but AON is held in reset. JTAG lies on VIO_A (R746). -/
def extestEntry (m : Mach) : Mach :=
  if m.hm.extest ∨ !m.pd.vioA then m
  else
    let ds := (List.range 96).filter validDom
    let m := ds.foldl (fun m d => resetRegs (loseDomain m d) d) m
    let m := { m with pm := { m.pm with dom := [], trans := [], acts := [], reqs := [], latched := [] }, st := { m.st with runs := [] },
                      ef := { m.ef with rings := [], dev := [] }, hs := { m.hs with queues := [], cmds := [], held := [], regions := [] } }
    { m with hm := { Harbour.init with extest := true } }

/-- EXTEST_ENTRY (R583). -/
def execExtestEntry (s : State) : Host.Outcome State Fault Refusal := s.effect extestEntry

/-- EXTEST_EXIT (R583): a brown-out reset. -/
def execExtestExit (s : State) : Host.Outcome State Fault Refusal := s.effect (fun m => if m.hm.extest then brownOutReset m else m)

/-! ## The IO banks -/

/-- VIO_BANK_SUPPLY_CHANGE (R723, R724, R754): VIO_H, or VIO_A, rises or falls through 0.9 V; `over` says that VIO_H exceeds 1.5 V within 100 µs of
its rise. The pads of an unpowered bank read 0. -/
def vioChange (m : Mach) (h up hiV : Bool) : Mach :=
  if h then { m with pd := { m.pd with vioH := up, vioHHigh := if up && !m.pd.vioH then hiV else m.pd.vioHHigh } }
  else
    let m := { m with pd := { m.pd with vioA := up } }
    if up then m
    else (List.range 8).foldl (fun m b =>
      if (btn m b).level then { m with lh := { m.lh with btns := tabSet m.lh.btns b { level := false, since := m.clk.now } Btn.init } } else m) m

/-- VIO_BANK_SUPPLY_CHANGE (R723). -/
def execVioBankSupplyChange (h up hiV : Bool) (s : State) : Host.Outcome State Fault Refusal := s.effect (fun m => vioChange m h up hiV)

end Sys2Proof.Machine
end

