-- ==== Sys2Proof/Machine/RegRead.lean ====
section
/-!
DEFINITION. Reading registers: contexts (R550), who may access a register (R551), the registers that show what the parts hold, reads with side
effects, captured words (R10, R13), and the memories of the register map (R54, R663, R704).
-/
namespace Sys2Proof.Machine

/-! ## Contexts -/

/-- The number of an access path. -/
def pathKey : Path → Nat
  | .host => 0
  | .jtag => 1
  | .firmware => 2
  | .queue q => 16 + q.val
  | .task h => 128 + h.val

/-- The tenant context of a path (R550, R583, R586); none where the path reaches no register: while the device is held in reset, from JTAG while
it is locked, from a task that is not loaded, and from the external host while HOST is not on. -/
def pathCtx (m : Mach) (p : Path) : Option Nat :=
  if m.hm.extest ∨ m.pm.start = some 0 ∨ m.pm.start = some 1 then none
  else match p with
    | .host => if isOn m 17 then some (m.fldOf rHM_HOST_CTX 0 6) else none
    | .queue q => some q.val
    | .firmware => some 0
    | .task h => (m.lh.tasks.find? (·.h == h.val)).map (·.tenant)
    | .jtag => if m.fldOf rDB_STATE 0 2 != 0 && m.pd.vioA then some 0 else none

/-! ## Permissions -/

/-- The index of an address in a row of `n` registers of a stride. -/
def idxOf (a base n s : Nat) : Option Nat :=
  if base ≤ a ∧ (a - base) % s = 0 ∧ (a - base) / s < n then some ((a - base) / s) else none

/-- The owner of a stream context that is open. -/
def ctxOwner (m : Mach) (n : Nat) : Option Nat := if strKind m n = 0 then none else some (strOwner m n)

/-- The owners that chapters 6, 9, 10 and 11 name for a register (R257, R371, R374, R391, R429, R440): those beside tenant 0. -/
def ownersOf (m : Mach) (r : RegRow) (i a : Nat) : List Nat :=
  match blockOf a with
  | 5 => let e := entryOf m.tk.active i; if e.valid then [e.tenant] else []
  | 9 =>
    if a = rLH_MUTE_LOG ∨ a = rLH_MUTE_TICK_LO ∨ a = rLH_MUTE_TICK_LO + 4 then
      (if m.flagOf rLH_MUTE_DELEGATE 8 then [m.fldOf rLH_MUTE_DELEGATE 0 6] else [])
    else if r.base < rLH_CAP_CFG 8 then [m.fldOf (rLH_CAP_CFG i) 8 6]
    else if r.base < rLH_PART_OWNER 0 then [m.fldOf (rLH_HAP_OWNER i) 0 6]
    else [m.fldOf (rLH_PART_OWNER i) 0 6]
  | 10 => [m.fldOf (rAU_PB_OWNER i) 0 6]
  | 11 => ((vcStream m i).map (strOwner m)).toList
  | 12 =>
    if r.base < rSN_I3C_CFG 0 then (ctxOwner m i).toList
    else if r.base < rSN_WHL_CFG 0 then (if strKind m (seqStream m i) = 3 then [seqOwner m i] else [])
    else
      let n := m.fldOf (rSN_WHL_CFG i) 16 6
      if strKind m n = 4 then [strOwner m n] else []
  | 13 => [fuOwner m]
  | _ => []

/-- A context may access a register that a permission covers. -/
def permits (m : Mach) (p : Perm) (r : RegRow) (i a ctx : Nat) : Bool :=
  ctx == 0 ||
  (match p with
   | .any => true
   | .t0 => false
   | .own => ctx == i
   | .special => (ownersOf m r i a).contains ctx)

/-- A context may write a register: only their owners write the haptic drivers' controls and steps and a playback stream's write pointer (R377,
R383). -/
def mayWrite (m : Mach) (r : RegRow) (i a ctx : Nat) : Bool :=
  if r.base = rLH_HAP_CTRL 0 ∨ r.base = rLH_HAP_STEP 0 0 ∨ r.base = rAU_PB_WP 0 then (ownersOf m r i a).contains ctx
  else permits m r.wr r i a ctx

/-! ## Registers that show what the parts hold -/

/-- Word `k` of a wide value. -/
def wordOf (v k : Nat) : Nat := bits v (32 * k) 32

/-- The crystal's drive mode (R493, R499): its reset value stands until a start has begun. -/
def xtalMode (m : Mach) : Nat :=
  if m.clk.refStopped ∨ m.pm.start = some 0 ∨ m.pm.start = some 1 then 0
  else if [15, 17, 18, 19, 20, 21, 22, 23].any (isOn m) ∨ m.flagOf rPM_XTAL 1 then 2 else 1

/-- A domain's code in PM_STATE (R499); reserved indices read zero. -/
def domCode (m : Mach) (d : Nat) : Nat := if !validDom d then 0 else if inTrans m d then 3 else domSt m d

/-- TM_DBG_LOC (R257). -/
def dbgLoc (m : Mach) : Nat :=
  let p := m.regN rTM_DBG_SEL_PAGE
  match m.mem.allocs.find? (fun a => a.h == m.regN rTM_DBG_SEL && decide (p < a.pages)) with
  | none => 0
  | some a =>
    let g := a.page p
    (if g.copy = 2 then 3 else if a.home = 0 ∨ g.dram then 0 else a.home) + 256 * g.heat + 65536

/-- BR_CAS_STATE_t (R339). -/
def casState (m : Mach) (t : Nat) : Nat :=
  match cascOf m t with
  | none => 0xFFF00
  | some c =>
    let st := (List.range 6).map (fun s => (if (c.stage s).kind = 0 then 3 else (c.stage s).st) * 4 ^ s)
    b2n c.armed + 256 * st.foldl (· + ·) 0 + 2 ^ 20 * popCount c.bonded 64 + 2 ^ 24 * c.max

/-- Berths that tenant `t` holds bonded. -/
def bondedBy (m : Mach) (t : Nat) : Nat := ((cascOf m t).map Casc.bonded).getD 0

/-- What a register reads, where it shows what a part of the device holds; none for a register that holds its own value. -/
def shown (m : Mach) (a : Nat) : Option Nat :=
  match blockOf a with
  | 0 =>
    (idxOf a (rHS_Q_COUNT 0) 64 64).map (fun t => m.fldOf a 16 16 * 65536 + outstanding m t)
  | 1 =>
    if a = rTK_TICK_LO ∨ a = rTK_TICK_HI then some (wordOf m.clk.tick ((a - rTK_TICK_LO) / 4))
    else if a = rTK_MODE_LO ∨ a = rTK_MODE_HI then
      some (wordOf (maskOf ((List.range 64).filter (fun t => tenantExists m t && !isStrict m t))) ((a - rTK_MODE_LO) / 4))
    else none
  | 4 =>
    if a = rBR_BOND_ARMED then some (bondArmed m)
    else match idxOf a (rBR_CAS_STATE 0) 64 32, idxOf a (rBR_BOND_LO 0) 64 32, idxOf a (rBR_BOND_HI 0) 64 32 with
      | some t, _, _ => some (casState m t)
      | _, some t, _ => some (wordOf (bondedBy m t) 0)
      | _, _, some t => some (wordOf (bondedBy m t) 1)
      | _, _, _ => none
  | 5 => if a = rCR_OUTSTANDING then some (m.mem.xfers.filter (fun x => decide (1 ≤ x.st))).length else none
  | 6 =>
    if a = rTM_DBG_LOC then some (dbgLoc m) else (idxOf a (rTM_DRAM_USED 0) 64 4).map (dramUsedBy m)
  | 7 =>
    if a = rDM_FREE then some (258048 - dramUsed m)
    else if a = rDM_POISONED then some (m.mem.allocs.map (fun x => (x.pg.filter (fun e => e.2.poison)).length)).sum
    else none
  | 8 =>
    if a = rFL_RD_PENDING then some (rdPending m)
    else if a = rFL_IMG_FREE then some (32768 - unitsOf m (fun _ _ => true))
    else if a = rFL_IMG_COUNT then some m.fl.images.length
    else none
  | 9 =>
    if a = rLH_RTC_LO ∨ a = rLH_RTC_HI then some (wordOf m.lh.rtc.count ((a - rLH_RTC_LO) / 4))
    else if a = rLH_EVT_POP_LO ∨ a = rLH_EVT_POP_HI then some (wordOf (m.latch.headD 0) ((a - rLH_EVT_POP_LO) / 4))
    else none
  | 12 =>
    if a = rSN_TIME_LO ∨ a = rSN_TIME_HI then some (wordOf m.clk.now ((a - rSN_TIME_LO) / 4))
    else if a = rSN_STATUS then some (b2n (coarse m)) else none
  | 14 =>
    if a = rPM_STATUS then
      let hs := m.pm.trans.any (fun t => decide (t.src < t.tgt ∧ t.begun ≤ m.clk.now ∧ m.clk.now < t.begun + 50))
      some (b2n (!m.pm.trans.isEmpty) + 2 * b2n hs + 4 * xtalMode m)
    else (idxOf a (rPM_STATE 0) 6 4).map (fun r => ((List.range 16).map (fun j => domCode m (16 * r + j) * 4 ^ j)).sum)
  | 15 => if a = rPD_STATUS then some (m.regN a % 4096 + 4096 * capPl m) else none
  | 16 =>
    if rHM_UID_0 ≤ a ∧ a ≤ rHM_UID_3 then some (wordOf Config.uid ((a - rHM_UID_0) / 4))
    else if a = rHM_TENANT_CFG 0 then some 1 else none
  | 17 => if a = rCH_FTIME_LO ∨ a = rCH_FTIME_HI then some (wordOf (ftime m) ((a - rCH_FTIME_LO) / 4)) else none
  | _ => none

/-- The value of a register. -/
def regVal (m : Mach) (a : Nat) : Nat := ((shown m a).getD (m.regN a)) % 2 ^ 32

/-! ## Reads with side effects -/

/-- A bit of a mask cleared. -/
def clearBit (w i : Nat) : Nat := if bit w i then w - 2 ^ i else w

/-- What a read of a register leaves behind (R259, R366, R377, R387, R408, R412, R425, R446, R463, R522, R525, R622, R643, R664, R668, R704). -/
def readEffect (m : Mach) (a i : Nat) : Mach :=
  match blockOf a with
  | 0 =>
    if a = rHS_ACCESS_ERR then m.setFldOf a 0 16 0
    else if (idxOf a (rHS_Q_COUNT 0) 64 64).isSome then setQueue (m.setFldOf a 16 16 0) i { queueOf m i with noticeRaised := false }
    else m
  | 7 => if a = rDM_CE_COUNT then m.setRegN a 0 else m
  | 9 =>
    if a = rLH_EVT_POP_LO then { m with latch := m.latch.drop 1 }
    else if (idxOf a (rLH_CAP_MISSED 0) 8 16).isSome then { m.setRegN a 0 with lh := { m.lh with mirRaised := clearBit m.lh.mirRaised i } }
    else m
  | 10 =>
    if (idxOf a (rAU_PB_UNDERRUN 0) 8 32).isSome then { m.setRegN a 0 with lh := { m.lh with undRaised := clearBit m.lh.undRaised i } } else m
  | 11 => if a = rCM_RX_ERR 0 ∨ a = rCM_RX_ERR 1 then m.setRegN a 0 else m
  | 12 =>
    if (idxOf a (rSN_STREAM_OVR 0) 48 32).isSome then setSctx (m.setRegN a 0) i { sctx m i with ovrRaised := false }
    else if (idxOf a (rSN_STREAM_MISSED 0) 48 32).isSome then setSctx (m.setRegN a 0) i { sctx m i with missRaised := false }
    else m
  | 13 =>
    if a = rFU_OUT_MISSED then { m.setRegN a 0 with fu := { m.fu with missRaised := false } }
    else if (idxOf a (rFU_SNS_LATE 0) 16 64).isSome then m.setRegN a 0
    else m
  | 15 =>
    if a = rPD_STRETCH_COUNT then m.setFlagOf rPD_STATUS 7 false
    else if (idxOf a (rPD_DROOP_MIN 0) 7 16).isSome then (((m.setRegN a 0xFFF).setRegN (a + 4) 0).setRegN (a + 8) 0).setRegN (a + 12) 0
    else m
  | 17 =>
    if a = rCH_DISCARD then { m.setRegN a 0 with ch := { m.ch with causes := 0 } }
    else if (idxOf a (rCH_PORT_ERR 0) 4 16).isSome then m.setRegN a 0
    else m
  | 19 =>
    if (idxOf a (rEF_LOST 0) 64 16).isSome ∨ a = rEF_DEV_LOST then m.setRegN a 0 else m
  | _ => m

/-- The upper words of a wide value are captured for a path (R13). -/
def captureWords (m : Mach) (key a n : Nat) : Mach :=
  (List.range (n - 1)).foldl (fun x k =>
    { x with shadow := tabSet x.shadow (key * wideSpan + a + 4 * (k + 1)) (BitVec.ofNat 32 (regVal m (a + 4 * (k + 1)))) 0 }) m

/-- A domain that a register lies in is on. -/
def regOn (m : Mach) (r : RegRow) : Bool := r.dom == 127 || isOn m r.dom

/-- A read of a whole register by a path and context (R10–R13, R551). -/
def readReg (m : Mach) (key ctx a : Nat) : Mach × Nat :=
  match regFind a with
  | none => (m, 0)
  | some (r, i, _) =>
    if !regOn m r then (accessError m 1, 0)
    else if !permits m r.rd r i a ctx ∨ r.acc = .wo then (m, 0)
    else if r.wk ≠ 0 then (m, (tabGet m.shadow (key * wideSpan + a) 0).toNat)
    else (readEffect (captureWords m key a r.wn) a i, regVal m a)

/-! ## Memories of the register map -/

/-- A fault record's 32 bytes (R700). -/
def recBytes (r : FaultRec) : List Byte :=
  leBytes 2 r.code ++ leBytes 1 r.tenant ++ leBytes 1 (b2n r.device + 2 * b2n r.coarse) ++ leBytes 2 r.rept ++ leBytes 2 r.slot ++
    leBytes 8 r.time ++ leBytes 6 r.tick ++ leBytes 2 0 ++ leBytes 4 r.cycle ++ leBytes 4 r.info

/-- A memory of the register map. -/
inductive RegMem where
  | sram (o : Nat)
  | stage (o : Nat)
  | table (active : Bool) (k : Nat)
  | ring (t o : Nat)
  | devRing (o : Nat)
  | none
  deriving DecidableEq, Repr

/-- The memory that an address lies in (R54, R663, R704). -/
def windowOf (a : Nat) : RegMem :=
  if 0x40000 ≤ a ∧ a < 0x60000 then .sram (a - 0x40000)
  else if 0x80000 ≤ a ∧ a < 0x100000 then .stage (a - 0x80000)
  else if 0x108000 ≤ a ∧ a < 0x10A000 then .table false ((a - 0x108000) / 4)
  else if 0x10A000 ≤ a ∧ a < 0x10C000 then .table true ((a - 0x10A000) / 4)
  else if 0x1210000 ≤ a ∧ a < 0x1230000 then .ring ((a - 0x1210000) / 2048) ((a - 0x1210000) % 2048)
  else if 0x1240000 ≤ a ∧ a < 0x1248000 then .devRing (a - 0x1240000)
  else .none

/-- A read of a word: of a memory of the register map, or of a register. -/
def readWord (m : Mach) (key ctx a : Nat) : Mach × Nat :=
  match windowOf a with
  | .sram o => if !isOn m 17 then (accessError m 1, 0) else (m, if ctx = 0 then memNat m.hs.sram o 4 else 0)
  | .stage o => if !isOn m 17 then (accessError m 1, 0) else (m, memNat m.hs.stage o 4)
  | .table act k => (m, (tabGet (if act then m.tk.active else m.tk.shadow) k 0).toNat)
  | .ring t o =>
    if !isOn m 26 then (accessError m 1, 0)
    else (m, if ctx = 0 ∨ ctx = t then byteFld (recBytes (tabGet m.ef.rings (64 * t + o / 32) FaultRec.zero)) (o % 32) 4 else 0)
  | .devRing o =>
    if !isOn m 26 then (accessError m 1, 0)
    else (m, if ctx = 0 then byteFld (recBytes (tabGet m.ef.dev (o / 32) FaultRec.zero)) (o % 32) 4 else 0)
  | .none => readReg m key ctx a

/-- The bytes of BAR0 (R9). -/
abbrev bar0 : Nat := 0x4000000

/-- A read of 1–8 bytes (R10, R655): of every register that holds an addressed byte, in ascending order; any other shape reads zero and is counted. -/
def busRead (m : Mach) (key ctx a n : Nat) : Mach × List Byte :=
  if n = 0 ∨ 8 < n ∨ 8 < a % 8 + n ∨ bar0 < a + n then (accessError m 3, List.replicate n 0)
  else
    let w0 := a - a % 4
    let ws := (List.range ((a + n - w0 + 3) / 4)).map (fun k => w0 + 4 * k)
    let (m, bs) := ws.foldl (fun (x : Mach × List Byte) w =>
      let (y, v) := readWord x.1 key ctx w
      (y, x.2 ++ leBytes 4 v)) (m, [])
    (m, slice bs (a - w0) n)

/-- A read over a path: the bytes are sent back (R550). -/
def pathRead (m : Mach) (p : Path) (a n : Nat) : Mach :=
  match pathCtx m p with
  | none => m
  | some ctx =>
    let (m, bs) := busRead m (pathKey p) ctx a n
    m.emit (.readData bs)

end Sys2Proof.Machine
end

