-- ==== Sys2Proof/Machine/Bus.lean ====
section
/-!
DEFINITION. Writing registers: what takes writes now, what a write does beyond setting a value, wide values (R13), the shapes of accesses (R10,
R655), and the QSPI link (R659–R661).
-/
namespace Sys2Proof.Machine

/-! ## Registers that take no writes for now -/

/-- A register whose writes are discarded now: a submission is being validated (R27), a queue pair is enabled or has commands outstanding (R663,
R683), or its resource is enabled or armed (R430, R465). -/
def frozen (m : Mach) (r : RegRow) (i a : Nat) : Bool :=
  match blockOf a with
  | 0 =>
    if rHS_SQ_BASE_LO 0 ≤ r.base ∧ r.base ≤ rHS_CQ_BASE_HI 0 ∨ r.base = rHS_Q_IRQ 0 then qEnabled m i || outstanding m i != 0 else false
  | 1 => if a = rTK_PERIOD_NEXT ∨ a = rTK_SEAM_LEN then m.tk.validating.isSome else false
  | 11 => if r.base = rCM_LINE_PITCH 0 then m.flagOf (rCM_VC_CFG i) 0 else false
  | 12 =>
    if r.base = rSN_I3C_DEV 0 0 then m.flagOf (rSN_I3C_CFG i) 0
    else if rSN_SEQ_CFG 0 ≤ r.base ∧ r.base < rSN_WHL_CFG 0 ∧ r.base ≠ rSN_SEQ_CTRL 0 then seqArmed m i
    else if r.base = rSN_WHL_PERIOD 0 ∨ r.base = rSN_WHL_PHASE 0 then m.flagOf (rSN_WHL_CFG i) 0
    else false
  | 13 => if a = rFU_CTRL ∨ a = rFU_OWNER ∨ r.base = rFU_SNS_CTRL 0 then false else m.flagOf rFU_CTRL 0
  | _ => false

/-- The block of an RWL register is locked (R11, R552). -/
def locked (m : Mach) (r : RegRow) (a : Nat) : Bool := decide (r.acc = .rwl) && m.flagOf rHM_LOCK_STATE (blockOf a)

/-! ## What writes do -/

/-- The writable bits of a register are set; its other bits stand (R12). -/
def setMasked (m : Mach) (r : RegRow) (a : Nat) (v : Word) : Mach :=
  let k := BitVec.ofNat 32 r.mask
  m.setReg a ((m.reg a &&& ~~~k) ||| (v &&& k))

/-- A write of HS_MSIX_CTRL_v: a vector that is unmasked while pending is sent (R675). -/
def writeMsixCtrl (m : Mach) (v : Nat) (w : Word) : Mach :=
  let m := m.setFlagOf (rHS_MSIX_CTRL v) 0 (flag w 0)
  if !flag w 0 ∧ m.flagOf (rHS_MSIX_PBA (v / 32)) (v % 32) then sendVec (m.setFlagOf (rHS_MSIX_PBA (v / 32)) (v % 32) false) v else m

/-- A write of TM_PROMOTE or TM_DEMOTE (R257): one that would make TM_PROMOTE ≤ TM_DEMOTE is discarded and reported. -/
def writeHeat (m : Mach) (a v : Nat) : Mach :=
  let pro := if a = rTM_PROMOTE then v else m.regN rTM_PROMOTE
  let dem := if a = rTM_DEMOTE then v else m.regN rTM_DEMOTE
  if pro ≤ dem then m.setFlagOf rTM_STATUS 0 true else (m.setRegN a v).setFlagOf rTM_STATUS 0 false

/-- A write of CH_PORT_CFG_p (R612): a port that is disabled goes DOWN, and one that is enabled trains where its domain is on. -/
def writePortCfg (m : Mach) (p : Nat) (v : Word) : Mach :=
  let was := m.flagOf (rCH_PORT_CFG p) 0
  let m := m.setReg (rCH_PORT_CFG p) v
  if was = flag v 0 then m
  else if flag v 0 then portUp m p
  else if portState m p = 2 then leaveActive m p 0
  else dropStatus (setPort m p ChPort.init) p 0

/-- A write of a fault ring's TAIL (R703): HEAD − TAIL stays within the ring's size. -/
def writeEfTail (m : Mach) (head tail size v : Nat) : Mach :=
  if (m.fldOf head 0 16 + 65536 - v) % 65536 ≤ size then m.setRegN tail v else m

/-- A write of a register of block HS. -/
def writeHS (m : Mach) (r : RegRow) (i a : Nat) (v : Word) : Mach :=
  if r.base = rHS_Q_CFG 0 then writeQCfg m i v.toNat
  else if r.base = rHS_MSIX_CTRL 0 then writeMsixCtrl m i v
  else setMasked m r a v

/-- A write of a register of blocks TK to FL. -/
def writeCore (m : Mach) (r : RegRow) (ctx i j a : Nat) (v : Word) : Mach :=
  if a = rTK_COMMIT then writeTkCommit m v
  else if a = rQY_SELFTEST then writeSelftest m v
  else if r.base = rCR_RES 0 0 then writeRes m ctx i j v.toNat
  else if a = rTM_DECAY then (if v.toNat = 0 then m else m.setReg a v)
  else if a = rTM_PROMOTE ∨ a = rTM_DEMOTE then writeHeat m a v.toNat
  else if a = rFL_RD_LIMIT then (if 4096 ≤ v.toNat ∧ v.toNat ≤ 60000 then m.setReg a v else m)
  else setMasked m r a v

/-- A write of a register of blocks LH and AU (R364–R393). -/
def writeAudio (m : Mach) (r : RegRow) (i a : Nat) (v : Word) : Mach :=
  if a = rLH_PDM_CFG then writePdmCfg m v.toNat
  else if r.base = rLH_CAP_CFG 0 then writeCapCfg m i v
  else if a = rLH_VAD_CFG then writeVadCfg m v
  else if a = rLH_TOUCH_CFG then writeTouchCfg m v
  else if r.base = rLH_TOUCH_CH 0 then writeTouchCh m i v
  else if r.base = rLH_HAP_CTRL 0 then writeHapCtrl m i v
  else if a = rLH_CHG_CFG then (if v.toNat = 0 then m else m.setReg a v)
  else if r.base = rLH_PART_OWNER 0 then writePartOwner m i v.toNat
  else if a = rAU_CFG then writeAuCfg m v
  else if a = rAU_COMMIT then writeAuCommit m v
  else if r.base = rAU_PB_BASE 0 then writePbBase m i v
  else if r.base = rAU_PB_WP 0 then writePbWp m i v.toNat
  else setMasked m r a v

/-- A write of a register of blocks CM to FU (R409–R465); an enabling of SN_I3C_CFG here finds no target (log 78). -/
def writeStreams (m : Mach) (r : RegRow) (ctx i a : Nat) (v : Word) : Mach :=
  if a = rCM_RX_CFG 0 ∨ a = rCM_RX_CFG 1 then writeEnCfg m a v
  else if r.base = rCM_VC_CFG 0 then writeVcCfg m i v
  else if r.base = rCM_COMMIT 0 then writeCmCommit m i v
  else if r.base = rSN_BIND_COMMIT 0 then writeBindCommit m ctx i v
  else if r.base = rSN_I3C_CFG 0 then writeI3cCfg m i [] v
  else if r.base = rSN_SEQ_CTRL 0 then writeSeqCtrl m i v
  else if r.base = rSN_WHL_CFG 0 then writeWheelCfg m i v
  else if a = rFU_CTRL then writeFuCtrl m v
  else if r.base = rFU_SNS_CTRL 0 then writeFuSnsCtrl m i v
  else setMasked m r a v

/-- A write of a register of blocks PM to HM, DB and EF (R499, R534, R552, R585, R703). -/
def writeLate (f : Fuses) (m : Mach) (r : RegRow) (i a : Nat) (v : Word) : Mach :=
  if rPD_VTH_WARN ≤ a ∧ a ≤ rPD_VTH_BOR then (if thresholdOk m ((a - rPD_VTH_WARN) / 4) v.toNat then m.setReg a v else m)
  else if a = rHM_LOCK_SET then writeLockSet m v
  else if a = rDB_CTRL then writeDbCtrl f m v
  else if r.base = rEF_TAIL 0 then writeEfTail m (rEF_HEAD i) a 64 v.toNat
  else if a = rEF_DEV_TAIL then writeEfTail m rEF_DEV_HEAD a 1024 v.toNat
  else setMasked m r a v

/-- A write of a port's configuration or control register: their rows are one per port (R612, R613, R643). -/
def writePort (m : Mach) (a : Nat) (v : Word) : Mach :=
  match idxOf a (rCH_PORT_CFG 0) 4 16, idxOf a (rCH_PORT_CTRL 0) 4 16 with
  | some p, _ => writePortCfg m p v
  | _, some p => if flag v 0 then sendWake m p else m
  | _, _ => m

/-- A write of CH_CONFIG_HASH that changes it is told in TOPO (R617). -/
def writeHash (m : Mach) (r : RegRow) (a : Nat) (v : Word) : Mach :=
  let x := setMasked m r a v
  if (idxOf a rCH_CONFIG_HASH_0 4 4).isSome && configHash x != configHash m then sendTopo x else x

/-- An accepted write of a single word (R11). -/
def applyReg (f : Fuses) (m : Mach) (r : RegRow) (ctx i j a : Nat) (v : Word) : Mach :=
  if r.acc = .w1c then m.setReg a (m.reg a &&& ~~~v)
  else match blockOf a with
    | 0 => writeHS m r i a v
    | 9 => writeAudio m r i a v
    | 10 => writeAudio m r i a v
    | 11 => writeStreams m r ctx i a v
    | 12 => writeStreams m r ctx i a v
    | 13 => writeStreams m r ctx i a v
    | 14 => writeLate f m r i a v
    | 15 => writeLate f m r i a v
    | 16 => writeLate f m r i a v
    | 17 => if (idxOf a (rCH_PORT_CFG 0) 4 16).isSome ∨ (idxOf a (rCH_PORT_CTRL 0) 4 16).isSome then writePort m a v else writeHash m r a v
    | 18 => writeLate f m r i a v
    | 19 => writeLate f m r i a v
    | _ => writeCore m r ctx i j a v

/-- An accepted write of the lowest word of a wide value, with the words held for the path (R13). -/
def applyWide (m : Mach) (key a n : Nat) (v : Word) : Mach :=
  let k := fun (j : Nat) => key * wideSpan + a + 4 * j
  let word := fun (j : Nat) => if j = 0 then v.toNat else ((tabFind m.held (k j)).map (·.toNat)).getD (regVal m (a + 4 * j))
  let x := (List.range n).foldl (fun (x : Mach) j => { x with held := tabDel x.held (k j) }) m
  if a = rLH_RTC_LO then writeRtc x (word 0 + 2 ^ 32 * word 1)
  else if a = rLH_RH_TENANTS_LO then writeRh x (word 0 + 2 ^ 32 * word 1)
  else (List.range n).foldl (fun x j => x.setRegN (a + 4 * j) (word j)) x

/-- A write of a whole register by a path and context (R10–R13, R551, R552). -/
def writeReg (f : Fuses) (m : Mach) (key ctx a : Nat) (v : Word) : Mach :=
  match regFind a with
  | none => m
  | some (r, i, j) =>
    if !regOn m r then accessError m 1
    else if r.acc = .ro then m
    else if a = rLH_MIC_MUTE then writeMute m ctx v
    else if !mayWrite m r i a ctx then accessError m 2
    else if locked m r a ∨ frozen m r i a then m
    else
      let v := v &&& BitVec.ofNat 32 r.mask
      if r.wn ≤ 1 then applyReg f m r ctx i j a v
      else if r.wk = 0 then applyWide m key a r.wn v
      else { m with held := tabPut m.held (key * wideSpan + a) v }

/-- A write of a word: to a memory of the register map, or to a register (R23, R27, R663, R669). -/
def writeWord (f : Fuses) (m : Mach) (key ctx a : Nat) (v : Word) : Mach :=
  let bs := leBytes 4 v.toNat
  match windowOf a with
  | .sram o =>
    if !isOn m 17 then accessError m 1 else if ctx ≠ 0 then accessError m 2
    else { m with hs := { m.hs with sram := memWrite m.hs.sram 0 o bs } }
  | .stage o => if !isOn m 17 then accessError m 1 else { m with hs := { m.hs with stage := memWrite m.hs.stage 0 o bs } }
  | .table act k =>
    if act then m
    else if ctx ≠ 0 then accessError m 2
    else if m.tk.validating.isSome then m
    else { m with tk := { m.tk with shadow := tabSet m.tk.shadow k v 0 } }
  | .ring _ _ => if !isOn m 26 then accessError m 1 else m
  | .devRing _ => if !isOn m 26 then accessError m 1 else m
  | .none => writeReg f m key ctx a v

/-- A write of bytes (R10, R655): aligned 32-bit, or aligned 64-bit, low word first; every other shape is discarded and counted. -/
def busWrite (f : Fuses) (m : Mach) (key ctx a : Nat) (bs : List Byte) : Mach :=
  if (bs.length = 4 ∧ a % 4 = 0 ∨ bs.length = 8 ∧ a % 8 = 0) ∧ a + bs.length ≤ bar0 then
    (List.range (bs.length / 4)).foldl (fun m k => writeWord f m key ctx (a + 4 * k) (BitVec.ofNat 32 (byteFld bs (4 * k) 4))) m
  else accessError m 3

/-- A write over a path (R550). -/
def pathWrite (f : Fuses) (m : Mach) (p : Path) (a : Nat) (bs : List Byte) : Mach :=
  match pathCtx m p with
  | none => m
  | some ctx => busWrite f m (pathKey p) ctx a bs

/-- A write of one word over a path. -/
def pathWord (f : Fuses) (m : Mach) (p : Path) (a : Nat) (v : Word) : Mach := pathWrite f m p a (leBytes 4 v.toNat)

/-! ## QSPI -/

/-- QSPI transactions are answered: the strap selected QSPI, the bank is powered and no start holds the device (R659, R661, R723). -/
def qspiUp (m : Mach) : Bool := isQspi m && m.pd.vioH && !m.hm.extest && m.pm.start != some 0 && m.pm.start != some 1

/-- A malformed transaction (R659). -/
def qspiBad (m : Mach) : Mach := raiseT { m with hs := { m.hs with frameErr := true } } 0x0F0A 0 0

/-- A word that QSPI writes (R656, R660). -/
def qspiWord (f : Fuses) (m : Mach) (a : Nat) (v : Word) : Mach :=
  if a < bar0 then busWrite f m (pathKey .host) (m.fldOf rHM_HOST_CTX 0 6) a (leBytes 4 v.toNat)
  else if a < bar0 + 0x40000 then
    let o := (a - bar0) % 4096
    let t := (a - bar0) / 4096
    if o = 0 then sqDoorbell m t v.toNat true else if o = 4 then cqDoorbell m t v.toNat true else accessError m 3
  else m

/-- How many of `n` words from an address lie before the next block base (R659). -/
def qspiRun (a n : Nat) : Nat := ((List.range n).takeWhile (fun k => blockOf (a + 4 * k) == blockOf a)).length

/-- Words that were written while HOST was not on take effect (R659, R661). -/
def qspiDrain (f : Fuses) (m : Mach) : Mach :=
  m.hs.qspiBuf.foldl (fun m w => qspiWord f m w.1 w.2) { m with hs := { m.hs with qspiBuf := [] } }

/-- A QSPI WRITE transaction (R659, R661): its words in order, buffered while HOST is not on; `cut` says that the select is released inside a word. -/
def qspiWrite (f : Fuses) (m : Mach) (a : Nat) (ws : List Word) (cut : Bool) : Mach :=
  if !qspiUp m then m
  else if a % 4 ≠ 0 then qspiBad m
  else
    let n := qspiRun a (ws.take 64).length
    let put := fun (m : Mach) (k : Nat) =>
      let w := (a + 4 * k, ws.getD k 0)
      if isOn m 17 then qspiWord f m w.1 w.2
      else if m.hs.qspiBuf.length < 64 then { m with hs := { m.hs with qspiBuf := m.hs.qspiBuf ++ [w] } } else m
    let m := (List.range n).foldl put m
    if n < ws.length ∨ cut then qspiBad m else m

/-- A QSPI READ transaction of `n` words (R659, R661): zero data while HOST is not on. -/
def qspiRead (m : Mach) (a n : Nat) (cut : Bool) : Mach :=
  if !qspiUp m then m
  else if a % 4 ≠ 0 then qspiBad m
  else if !isOn m 17 then m.emit (.readData (List.replicate (4 * n) 0))
  else
    let k := qspiRun a (min n 64)
    let (m, bs) := (List.range k).foldl (fun (x : Mach × List Byte) i =>
      let w := a + 4 * i
      if w < bar0 then
        let (y, b) := busRead x.1 (pathKey .host) (x.1.fldOf rHM_HOST_CTX 0 6) w 4
        (y, x.2 ++ b)
      else (x.1, x.2 ++ [0, 0, 0, 0])) (m, [])
    let m := m.emit (.readData bs)
    if k < n ∨ cut then qspiBad m else m

/-- HOST_IRQ_N is asserted (R661). -/
def irqAsserted (m : Mach) : Bool :=
  (List.range 4).any (fun i => (m.reg (rHS_IRQ_PEND i) &&& ~~~(m.reg (rHS_IRQ_MASK i))) != 0)

/-- A QSPI transaction whose instruction is STATUS, or none of R659's (R659, R661). -/
def qspiStatus (m : Mach) (inst : Nat) : Mach :=
  if !qspiUp m then m
  else if inst ≠ 0xB5 then (if inst = 0xB1 ∨ inst = 0xB2 then m else qspiBad m)
  else if !isOn m 17 then m.emit (.readData [0])
  else
    let b := b2n (!m.hs.qspiBuf.isEmpty) + 2 * b2n (irqAsserted m) + 4 * b2n m.hs.frameErr
    ({ m with hs := { m.hs with frameErr := false } } : Mach).emit (.readData [BitVec.ofNat 8 b])

/-! ## The end of a transition -/

/-- DRAM is trained as its domain reaches on, over the path of R693 (R258, R259, R693). -/
def trained (m : Mach) (src : Nat) (full : Bool) : Mach :=
  let m := if src = 2 then m.setFlagOf rDM_STATUS 1 full else m
  m.setFlagOf rDM_STATUS 0 true

/-- DOMAIN_TRANSITION_COMPLETE (R476, R659, R693): `mountOk` says that the flash journal can be read, `full` that DRAM was trained in full. -/
def transitionEnd (f : Fuses) (m : Mach) (d : Nat) (mountOk full : Bool) : Mach :=
  match m.pm.trans.find? (fun t => t.dom == d && !t.xtal) with
  | none => m
  | some t =>
    let m := endTrans m (if d = 15 ∧ t.tgt = 0 ∧ t.src = 2 ∧ !full then { t with due := t.begun + 192000 } else t) mountOk
    if d = 15 ∧ t.tgt = 0 then trained m t.src full
    else if d = 17 ∧ t.tgt = 0 then qspiDrain f m
    else m

end Sys2Proof.Machine
end

