-- ==== Sys2Proof/Machine/Rows.lean ====
section
/-!
DEFINITION. The rows of the table that are accesses of registers: reads that clear, writes that act, the register commands of a queue, and the
transactions of QSPI; and NOP.
-/
namespace Sys2Proof.Machine

/-- A command that reads one register of four bytes over a path. -/
def readRow (p : Path) (a : Nat) (s : State) : Host.Outcome State Fault Refusal := s.effect (fun m => pathRead m p a 4)

/-- A command that writes one word to a register over a path. -/
def writeRow (p : Path) (a : Nat) (v : Word) (s : State) : Host.Outcome State Fault Refusal := s.effectF (fun f m => pathWord f m p a v)

/-! ## Any register -/

/-- REGISTER_WRITE (R10–R13): the bytes of a write at a BAR0 offset. -/
def execRegisterWrite (p : Path) (a : Nat) (bs : List Byte) (s : State) : Host.Outcome State Fault Refusal :=
  s.effectF (fun f m => pathWrite f m p a bs)

/-- WIDE_VALUE_CAPTURE_READ (R10, R13): a read of `n` bytes at a BAR0 offset; one of the lowest word of a wide value captures the others. -/
def execWideValueCaptureRead (p : Path) (a n : Nat) (s : State) : Host.Outcome State Fault Refusal :=
  s.effect (fun m => pathRead m p a n)

/-! ## Reads that clear or remove -/

/-- DM_CE_COUNT: a read of the register (R259). -/
def execDmCeCount (p : Path) (s : State) : Host.Outcome State Fault Refusal := readRow p rDM_CE_COUNT s

/-- LH_CAP_MISSED: a read of the register (R366). -/
def execLhCapMissed (p : Path) (c : Fin 8) (s : State) : Host.Outcome State Fault Refusal := readRow p (rLH_CAP_MISSED c.val) s

/-- AU_PB_UNDERRUN: a read of the register (R377). -/
def execAuPbUnderrun (p : Path) (n : Fin 8) (s : State) : Host.Outcome State Fault Refusal := readRow p (rAU_PB_UNDERRUN n.val) s

/-- CM_RX_ERR: a read of the register (R412). -/
def execCmRxErr (p : Path) (r : Fin 2) (s : State) : Host.Outcome State Fault Refusal := readRow p (rCM_RX_ERR r.val) s

/-- SN_STREAM_OVR: a read of the register (R425). -/
def execSnStreamOvr (p : Path) (n : Fin 48) (s : State) : Host.Outcome State Fault Refusal := readRow p (rSN_STREAM_OVR n.val) s

/-- SN_STREAM_MISSED: a read of the register (R408). -/
def execSnStreamMissed (p : Path) (n : Fin 48) (s : State) : Host.Outcome State Fault Refusal := readRow p (rSN_STREAM_MISSED n.val) s

/-- FU_OUT_MISSED: a read of the register (R463). -/
def execFuOutMissed (p : Path) (s : State) : Host.Outcome State Fault Refusal := readRow p rFU_OUT_MISSED s

/-- FU_SNS_LATE: a read of the register (R446). -/
def execFuSnsLate (p : Path) (n : Fin 16) (s : State) : Host.Outcome State Fault Refusal := readRow p (rFU_SNS_LATE n.val) s

/-- CH_DISCARD: a read of the register (R622). -/
def execChDiscard (p : Path) (s : State) : Host.Outcome State Fault Refusal := readRow p rCH_DISCARD s

/-- CH_PORT_ERR: a read of the register (R643). -/
def execChPortErr (p : Path) (k : Fin 4) (s : State) : Host.Outcome State Fault Refusal := readRow p (rCH_PORT_ERR k.val) s

/-- HS_ACCESS_ERR: a read of the register (R664). -/
def execHsAccessErr (p : Path) (s : State) : Host.Outcome State Fault Refusal := readRow p rHS_ACCESS_ERR s

/-- HS_Q_COUNT: a read of the register (R668). -/
def execHsQCount (p : Path) (t : Fin 64) (s : State) : Host.Outcome State Fault Refusal := readRow p (rHS_Q_COUNT t.val) s

/-- EF_LOST: a read of the register (R704). -/
def execEfLost (p : Path) (t : Fin 64) (s : State) : Host.Outcome State Fault Refusal := readRow p (rEF_LOST t.val) s

/-- EF_DEV_LOST: a read of the register (R704). -/
def execEfDevLost (p : Path) (s : State) : Host.Outcome State Fault Refusal := readRow p rEF_DEV_LOST s

/-- PD_DROOP_MIN: a read of the register (R525). -/
def execPdDroopMin (p : Path) (r : Fin 7) (s : State) : Host.Outcome State Fault Refusal := readRow p (rPD_DROOP_MIN r.val) s

/-- PD_STRETCH_COUNT: a read of the register (R522). -/
def execPdStretchCount (p : Path) (s : State) : Host.Outcome State Fault Refusal := readRow p rPD_STRETCH_COUNT s

/-- LH_EVT_POP_LO: a read of the register (R387). -/
def execLhEvtPopLo (p : Path) (s : State) : Host.Outcome State Fault Refusal := readRow p rLH_EVT_POP_LO s

/-! ## Writes that act -/

/-- TK_COMMIT: a write of the register (R27). -/
def execTkCommit (p : Path) (v : Word) (s : State) : Host.Outcome State Fault Refusal := writeRow p rTK_COMMIT v s

/-- QY_SELFTEST: a write of the register (R177). -/
def execQySelftest (p : Path) (v : Word) (s : State) : Host.Outcome State Fault Refusal := writeRow p rQY_SELFTEST v s

/-- CR_RES: a write of the register (R252). -/
def execCrRes (p : Path) (t : Fin 64) (x : Fin 5) (v : Word) (s : State) : Host.Outcome State Fault Refusal := writeRow p (rCR_RES t.val x.val) v s

/-- LH_PART_OWNER: a write of the register (R353). -/
def execLhPartOwner (p : Path) (n : Fin 64) (v : Word) (s : State) : Host.Outcome State Fault Refusal := writeRow p (rLH_PART_OWNER n.val) v s

/-- LH_VAD_CFG: a write of the register (R367). -/
def execLhVadCfg (p : Path) (v : Word) (s : State) : Host.Outcome State Fault Refusal := writeRow p rLH_VAD_CFG v s

/-- LH_CAP_CFG: a write of the register (R364). -/
def execLhCapCfg (p : Path) (c : Fin 8) (v : Word) (s : State) : Host.Outcome State Fault Refusal := writeRow p (rLH_CAP_CFG c.val) v s

/-- LH_MIC_MUTE: a write of the register (R371). -/
def execLhMicMute (p : Path) (v : Word) (s : State) : Host.Outcome State Fault Refusal := writeRow p rLH_MIC_MUTE v s

/-- AU_COMMIT: a write of the register (R379). -/
def execAuCommit (p : Path) (v : Word) (s : State) : Host.Outcome State Fault Refusal := writeRow p rAU_COMMIT v s

/-- SN_BIND_COMMIT: a write of the register (R409). -/
def execSnBindCommit (p : Path) (n : Fin 48) (v : Word) (s : State) : Host.Outcome State Fault Refusal := writeRow p (rSN_BIND_COMMIT n.val) v s

/-- CM_COMMIT: a write of the register (R414). -/
def execCmCommit (p : Path) (c : Fin 8) (v : Word) (s : State) : Host.Outcome State Fault Refusal := writeRow p (rCM_COMMIT c.val) v s

/-- FU_CTRL: a write of the register (R465). -/
def execFuCtrl (p : Path) (v : Word) (s : State) : Host.Outcome State Fault Refusal := writeRow p rFU_CTRL v s

/-- FU_SNS_CTRL: a write of the register (R457). -/
def execFuSnsCtrl (p : Path) (n : Fin 16) (v : Word) (s : State) : Host.Outcome State Fault Refusal := writeRow p (rFU_SNS_CTRL n.val) v s

/-- HM_LOCK_SET: a write of the register (R552). -/
def execHmLockSet (p : Path) (v : Word) (s : State) : Host.Outcome State Fault Refusal := writeRow p rHM_LOCK_SET v s

/-- HS_Q_CFG: a write of the register (R665). -/
def execHsQCfg (p : Path) (t : Fin 64) (v : Word) (s : State) : Host.Outcome State Fault Refusal := writeRow p (rHS_Q_CFG t.val) v s

/-- HAPTIC_GO: a write of 1 to LH_HAP_CTRL.GO (R383). -/
def execHapticGo (p : Path) (h : Fin 2) (s : State) : Host.Outcome State Fault Refusal := writeRow p (rLH_HAP_CTRL h.val) 1#32 s

/-- HAPTIC_STOP: a write of 1 to LH_HAP_CTRL.STOP (R383). -/
def execHapticStop (p : Path) (h : Fin 2) (s : State) : Host.Outcome State Fault Refusal := writeRow p (rLH_HAP_CTRL h.val) 2#32 s

/-- ARM: a write of 1 to SN_SEQ_CTRL.ARM (R421). -/
def execArm (p : Path) (n : Fin 16) (s : State) : Host.Outcome State Fault Refusal := writeRow p (rSN_SEQ_CTRL n.val) 1#32 s

/-- DISARM: a write of 1 to SN_SEQ_CTRL.DISARM (R430). -/
def execDisarm (p : Path) (n : Fin 16) (s : State) : Host.Outcome State Fault Refusal := writeRow p (rSN_SEQ_CTRL n.val) 2#32 s

/-- TRIG: a write of 1 to SN_SEQ_CTRL.TRIG (R422). -/
def execTrig (p : Path) (n : Fin 16) (s : State) : Host.Outcome State Fault Refusal := writeRow p (rSN_SEQ_CTRL n.val) 4#32 s

/-- NEW_CHALLENGE: a write of 1 to DB_CTRL.NEW_CHALLENGE (R585). -/
def execNewChallenge (p : Path) (s : State) : Host.Outcome State Fault Refusal := writeRow p (rDB_CTRL) 1#32 s

/-- RELOCK: a write of 1 to DB_CTRL.RELOCK (R589). -/
def execRelock (p : Path) (s : State) : Host.Outcome State Fault Refusal := writeRow p (rDB_CTRL) 16#32 s

/-- SEND_WAKE: a write of 1 to CH_PORT_CTRL.SEND_WAKE (R613). -/
def execSendWake (p : Path) (k : Fin 4) (s : State) : Host.Outcome State Fault Refusal := writeRow p (rCH_PORT_CTRL k.val) 1#32 s

/-- SCAN (R380): a write of 1 to LH_TOUCH_CFG.SCAN that leaves the other fields as they stand. -/
def execScan (p : Path) (s : State) : Host.Outcome State Fault Refusal :=
  s.effectF (fun f m => pathWord f m p rLH_TOUCH_CFG (m.reg rLH_TOUCH_CFG ||| 0x4000#32))

/-- UNLOCK (R585): a write of DB_CTRL.UNLOCK with LEVEL. -/
def execUnlock (p : Path) (level : Fin 4) (s : State) : Host.Outcome State Fault Refusal := writeRow p rDB_CTRL (BitVec.ofNat 32 (2 + 4 * level.val)) s

/-- EF_TAIL (R703): a write of the TAIL of a tenant's fault ring, or of the device ring where none is named. -/
def execEfTail (p : Path) (ring : Option (Fin 64)) (v : Word) (s : State) : Host.Outcome State Fault Refusal :=
  writeRow p (match ring with | some t => rEF_TAIL t.val | none => rEF_DEV_TAIL) v s

/-- LH_RTC_LO (R385): a write of the low word of the RTC, which sets it with the high word that the path holds (R13). -/
def execLhRtcLo (p : Path) (v : Word) (s : State) : Host.Outcome State Fault Refusal := writeRow p rLH_RTC_LO v s

/-- LH_RH_TENANTS (R389): a write of both words of the mask, the upper word first (R13). -/
def execLhRhTenants (p : Path) (v : BitVec 64) (s : State) : Host.Outcome State Fault Refusal :=
  s.effectF (fun f m =>
    let m := pathWord f m p (rLH_RH_TENANTS_LO + 4) (v.extractLsb' 32 32)
    pathWord f m p rLH_RH_TENANTS_LO (v.extractLsb' 0 32))

/-- A write of SN_I3C_CFG_k for which the targets listed in `found` answer ENTDAA (R419). -/
def i3cCfgWrite (m : Mach) (p : Path) (k : Nat) (found : List (Fin 11)) (v : Word) : Mach :=
  match pathCtx m p, regFind (rSN_I3C_CFG k) with
  | some ctx, some (r, i, _) =>
    if !regOn m r then accessError m 1
    else if !mayWrite m r i (rSN_I3C_CFG k) ctx then accessError m 2
    else if locked m r (rSN_I3C_CFG k) then m
    else writeI3cCfg m k found (v &&& BitVec.ofNat 32 r.mask)
  | _, _ => m

/-- SN_I3C_CFG (R419): a write of the register of controller `k`. -/
def execSnI3cCfg (p : Path) (k : Fin 2) (found : List (Fin 11)) (v : Word) (s : State) : Host.Outcome State Fault Refusal :=
  s.effect (fun m => i3cCfgWrite m p k.val found v)

/-! ## Commands that access registers -/

/-- REG_READ (R551, R676): the register at a BAR0 offset, in the context of the queue's tenant. -/
def regRead (m : Mach) (cmd : CmdCtx) (a : Nat) : Mach :=
  beginCmd m cmd 0x01 0x0F02 noWait (fun m =>
    let t := cmd.q.val
    if bar0 < a + 4 then refuse m t cmd.cid 0x01 0x0F02 0
    else
      let (m, bs) := busRead m (pathKey (.queue cmd.q)) t a 4
      complete m t cmd.cid 0x01 0 (byteFld bs 0 4) 0)

/-- REG_READ (R676). -/
def execRegRead (cmd : CmdCtx) (off : Nat) (s : State) : Host.Outcome State Fault Refusal := s.effect (fun m => regRead m cmd off)

/-- REG_WRITE (R551, R676): the register at a BAR0 offset, in the context of the queue's tenant. -/
def regWrite (f : Fuses) (m : Mach) (cmd : CmdCtx) (a : Nat) (v : Word) : Mach :=
  beginCmd m cmd 0x02 0x0F02 noWait (fun m =>
    let t := cmd.q.val
    if bar0 < a + 4 then refuse m t cmd.cid 0x02 0x0F02 0
    else complete (busWrite f m (pathKey (.queue cmd.q)) t a (leBytes 4 v.toNat)) t cmd.cid 0x02 0 0 0)

/-- REG_WRITE (R676). -/
def execRegWrite (cmd : CmdCtx) (off : Nat) (v : Word) (s : State) : Host.Outcome State Fault Refusal :=
  s.effectF (fun f m => regWrite f m cmd off v)

/-! ## QSPI, NOP and the end of a transition -/

/-- QSPI_READ (R659): `n` words from an address; `cut` says that the select is released inside a word. -/
def execQspiRead (a n : Nat) (cut : Bool) (s : State) : Host.Outcome State Fault Refusal := s.effect (fun m => qspiRead m a n cut)

/-- QSPI_WRITE (R659): words from an address; `cut` says that the select is released inside a word. -/
def execQspiWrite (a : Nat) (ws : List Word) (cut : Bool) (s : State) : Host.Outcome State Fault Refusal :=
  s.effectF (fun f m => qspiWrite f m a ws cut)

/-- QSPI_STATUS (R659): the transaction whose instruction is `inst`, 0xB5 for STATUS. -/
def execQspiStatus (inst : Nat) (s : State) : Host.Outcome State Fault Refusal := s.effect (fun m => qspiStatus m inst)

/-- NOP: the instruction (R115), or command 0x00 (R676). -/
def execNop (src : NopSource) (s : State) : Host.Outcome State Fault Refusal :=
  s.effect (fun m => match src with
    | .word iss => issuePure m iss 0 (fun _ _ => {})
    | .command cmd => nopCommand m cmd)

/-- DOMAIN_TRANSITION_COMPLETE (R476). -/
def execDomainTransitionComplete (d : Fin 96) (mountOk full : Bool) (s : State) : Host.Outcome State Fault Refusal :=
  s.effectF (fun f m => transitionEnd f m d.val mountOk full)

end Sys2Proof.Machine
end

