-- ==== Sys2Proof/Machine/Units.lean ====
section
/-!
DEFINITION. The T, V and M instructions as commands (R127–R147).
-/
namespace Sys2Proof.Machine

/-- MMA (R128, R129). -/
def execMma (i : Issue) (df : Fin 3) (acc : Bool) (d a b : Fin 16) (s : State) : Host.Outcome State Fault Refusal :=
  s.effect (fun m => issue m i 1 (mmaIns i.par df.val acc d.val a.val b.val))

/-- CONV (R130, R188–R199). -/
def execConv (i : Issue) (df : Fin 3) (acc pack : Bool) (d a b w : Fin 16) (s : State) : Host.Outcome State Fault Refusal :=
  s.effect (fun m => issue m i 1 (convIns i.par df.val acc pack d.val a.val b.val w.val))

/-- POOL (R131, R200). -/
def execPool (i : Issue) (mode : Fin 4) (d a w : Fin 16) (s : State) : Host.Outcome State Fault Refusal :=
  s.effect (fun m => issue m i 1 (poolIns i.par mode.val d.val a.val w.val))

/-- VADD (R171, R172). -/
def execVadd (i : Issue) (ty : VType) (d a b : Fin 32) (s : State) : Host.Outcome State Fault Refusal :=
  s.effect (fun m => issue m i 2 (v2 i.par .arith eAdd ty d.val a.val b.val))

/-- VSUB (R171, R172). -/
def execVsub (i : Issue) (ty : VType) (d a b : Fin 32) (s : State) : Host.Outcome State Fault Refusal :=
  s.effect (fun m => issue m i 2 (v2 i.par .arith eSub ty d.val a.val b.val))

/-- VMUL (R171, R172). -/
def execVmul (i : Issue) (ty : VType) (d a b : Fin 32) (s : State) : Host.Outcome State Fault Refusal :=
  s.effect (fun m => issue m i 2 (v2 i.par .arith eMul ty d.val a.val b.val))

/-- VFMA (R171). -/
def execVfma (i : Issue) (ty : VType) (d a b x : Fin 32) (s : State) : Host.Outcome State Fault Refusal :=
  s.effect (fun m => issue m i 2 (v3 i.par .arith eFma ty d.val a.val b.val x.val))

/-- VMIN (R172). -/
def execVmin (i : Issue) (ty : VType) (d a b : Fin 32) (s : State) : Host.Outcome State Fault Refusal :=
  s.effect (fun m => issue m i 2 (v2 i.par .arith (eMinMax false) ty d.val a.val b.val))

/-- VMAX (R172). -/
def execVmax (i : Issue) (ty : VType) (d a b : Fin 32) (s : State) : Host.Outcome State Fault Refusal :=
  s.effect (fun m => issue m i 2 (v2 i.par .arith (eMinMax true) ty d.val a.val b.val))

/-- VABS (R172). -/
def execVabs (i : Issue) (ty : VType) (d a : Fin 32) (s : State) : Host.Outcome State Fault Refusal :=
  s.effect (fun m => issue m i 2 (v1 i.par .arith eAbs ty d.val a.val))

/-- VNEG (R172). -/
def execVneg (i : Issue) (ty : VType) (d a : Fin 32) (s : State) : Host.Outcome State Fault Refusal :=
  s.effect (fun m => issue m i 2 (v1 i.par .arith eNeg ty d.val a.val))

/-- VCMPEQ (R136, R172). -/
def execVcmpeq (i : Issue) (ty : VType) (d a b : Fin 32) (s : State) : Host.Outcome State Fault Refusal :=
  s.effect (fun m => issue m i 2 (v2 i.par .arith (eCmp 0) ty d.val a.val b.val))

/-- VCMPLT (R136, R172). -/
def execVcmplt (i : Issue) (ty : VType) (d a b : Fin 32) (s : State) : Host.Outcome State Fault Refusal :=
  s.effect (fun m => issue m i 2 (v2 i.par .arith (eCmp 1) ty d.val a.val b.val))

/-- VCMPLE (R136, R172). -/
def execVcmple (i : Issue) (ty : VType) (d a b : Fin 32) (s : State) : Host.Outcome State Fault Refusal :=
  s.effect (fun m => issue m i 2 (v2 i.par .arith (eCmp 2) ty d.val a.val b.val))

/-- VSEL (R136). -/
def execVsel (i : Issue) (ty : VType) (d a b x : Fin 32) (s : State) : Host.Outcome State Fault Refusal :=
  s.effect (fun m => issue m i 2 (v3 i.par .light (fun _ => eSel) ty d.val a.val b.val x.val))

/-- VAND (R135). -/
def execVand (i : Issue) (ty : VType) (d a b : Fin 32) (s : State) : Host.Outcome State Fault Refusal :=
  s.effect (fun m => issue m i 2 (v2 i.par .light (fun _ x y => (x &&& y, 0)) ty d.val a.val b.val))

/-- VOR (R135). -/
def execVor (i : Issue) (ty : VType) (d a b : Fin 32) (s : State) : Host.Outcome State Fault Refusal :=
  s.effect (fun m => issue m i 2 (v2 i.par .light (fun _ x y => (x ||| y, 0)) ty d.val a.val b.val))

/-- VXOR (R135). -/
def execVxor (i : Issue) (ty : VType) (d a b : Fin 32) (s : State) : Host.Outcome State Fault Refusal :=
  s.effect (fun m => issue m i 2 (v2 i.par .light (fun _ x y => (x ^^^ y, 0)) ty d.val a.val b.val))

/-- VSHL (R135). -/
def execVshl (i : Issue) (ty : VType) (d a b : Fin 32) (s : State) : Host.Outcome State Fault Refusal :=
  s.effect (fun m => issue m i 2 (v2 i.par .light (fun _ => eShift 0) ty d.val a.val b.val))

/-- VSHR (R135). -/
def execVshr (i : Issue) (ty : VType) (d a b : Fin 32) (s : State) : Host.Outcome State Fault Refusal :=
  s.effect (fun m => issue m i 2 (v2 i.par .light (fun _ => eShift 1) ty d.val a.val b.val))

/-- VSAR (R135). -/
def execVsar (i : Issue) (ty : VType) (d a b : Fin 32) (s : State) : Host.Outcome State Fault Refusal :=
  s.effect (fun m => issue m i 2 (v2 i.par .light (fun _ => eShift 2) ty d.val a.val b.val))

/-- VCVT (R136, R173). -/
def execVcvt (i : Issue) (ty ty2 : VType) (d a : Fin 32) (s : State) : Host.Outcome State Fault Refusal :=
  s.effect (fun m => issue m i 2 (vcvt i.par ty ty2 d.val a.val))

/-- VBCAST (R135). -/
def execVbcast (i : Issue) (ty : VType) (d : Fin 32) (a : Fin 64) (s : State) : Host.Outcome State Fault Refusal :=
  s.effect (fun m => issue m i 2 (vbcast i.par ty d.val a.val))

/-- VEXT (R135, R136). -/
def execVext (i : Issue) (ty : VType) (d : Fin 64) (a : Fin 32) (lane : Fin 64) (s : State) : Host.Outcome State Fault Refusal :=
  s.effect (fun m => issue m i 2 (vext i.par ty d.val a.val lane.val))

/-- VRCP (R174). -/
def execVrcp (i : Issue) (ty : VType) (d a : Fin 32) (s : State) : Host.Outcome State Fault Refusal :=
  s.effect (fun m => issue m i 2 (v1 i.par .trans (eFun .rcp) ty d.val a.val))

/-- VRSQRT (R174). -/
def execVrsqrt (i : Issue) (ty : VType) (d a : Fin 32) (s : State) : Host.Outcome State Fault Refusal :=
  s.effect (fun m => issue m i 2 (v1 i.par .trans (eFun .rsqrt) ty d.val a.val))

/-- VSQRT (R171). -/
def execVsqrt (i : Issue) (ty : VType) (d a : Fin 32) (s : State) : Host.Outcome State Fault Refusal :=
  s.effect (fun m => issue m i 2 (v1 i.par .trans (eFun .sqrt) ty d.val a.val))

/-- VDIV (R171). -/
def execVdiv (i : Issue) (ty : VType) (d a b : Fin 32) (s : State) : Host.Outcome State Fault Refusal :=
  s.effect (fun m => issue m i 2 (v2 i.par .trans eDiv ty d.val a.val b.val))

/-- VEXP2 (R174). -/
def execVexp2 (i : Issue) (ty : VType) (d a : Fin 32) (s : State) : Host.Outcome State Fault Refusal :=
  s.effect (fun m => issue m i 2 (v1 i.par .trans (eFun .exp2) ty d.val a.val))

/-- VLOG2 (R174). -/
def execVlog2 (i : Issue) (ty : VType) (d a : Fin 32) (s : State) : Host.Outcome State Fault Refusal :=
  s.effect (fun m => issue m i 2 (v1 i.par .trans (eFun .log2) ty d.val a.val))

/-- VSIN (R174). -/
def execVsin (i : Issue) (ty : VType) (d a : Fin 32) (s : State) : Host.Outcome State Fault Refusal :=
  s.effect (fun m => issue m i 2 (v1 i.par .trans (eFun .sin) ty d.val a.val))

/-- VCOS (R174). -/
def execVcos (i : Issue) (ty : VType) (d a : Fin 32) (s : State) : Host.Outcome State Fault Refusal :=
  s.effect (fun m => issue m i 2 (v1 i.par .trans (eFun .cos) ty d.val a.val))

/-- VTANH (R174). -/
def execVtanh (i : Issue) (ty : VType) (d a : Fin 32) (s : State) : Host.Outcome State Fault Refusal :=
  s.effect (fun m => issue m i 2 (v1 i.par .trans (eFun .tanh) ty d.val a.val))

/-- VREDSUM (R136, R172). -/
def execVredsum (i : Issue) (ty : VType) (d a : Fin 32) (s : State) : Host.Outcome State Fault Refusal :=
  s.effect (fun m => issue m i 2 (vred i.par eAdd ty d.val a.val))

/-- VREDMAX (R136, R172). -/
def execVredmax (i : Issue) (ty : VType) (d a : Fin 32) (s : State) : Host.Outcome State Fault Refusal :=
  s.effect (fun m => issue m i 2 (vred i.par (eMinMax true) ty d.val a.val))

/-- VREDMIN (R136, R172). -/
def execVredmin (i : Issue) (ty : VType) (d a : Fin 32) (s : State) : Host.Outcome State Fault Refusal :=
  s.effect (fun m => issue m i 2 (vred i.par (eMinMax false) ty d.val a.val))

/-- VGATHER (R138): its elements are 32 bits wide in every TYPE it takes. -/
def execVgather (i : Issue) (_ty : VType) (d : Fin 32) (b : Fin 16) (x : Fin 32) (s : State) : Host.Outcome State Fault Refusal :=
  s.effect (fun m => issue m i 2 (vgather i.par d.val b.val x.val))

/-- VSCATTER (R138). -/
def execVscatter (i : Issue) (_ty : VType) (b : Fin 16) (x v : Fin 32) (s : State) : Host.Outcome State Fault Refusal :=
  s.effect (fun m => issue m i 2 (vscatter i.par b.val x.val v.val))

/-- VMOV (R135). -/
def execVmov (i : Issue) (ty : VType) (d a : Fin 32) (s : State) : Host.Outcome State Fault Refusal :=
  s.effect (fun m => issue m i 2 (v1 i.par .mov (fun _ x => (x, 0)) ty d.val a.val))

/-- LD.S (R139, R140, R355). -/
def execLdS (i : Issue) (d a : Fin 64) (imm : BitVec 32) (s : State) : Host.Outcome State Fault Refusal :=
  s.effect (fun m => issuePure m i 3 (fun m c => loadIns (.s c.bank d.val) 8 (mAddr m c a.val imm)))

/-- ST.S (R139, R140, R355). -/
def execStS (i : Issue) (d a : Fin 64) (imm : BitVec 32) (s : State) : Host.Outcome State Fault Refusal :=
  s.effect (fun m => issuePure m i 3 (fun m c => storeIns 8 (mAddr m c a.val imm) (leBytes 8 (readS m c.bank d.val).toNat)))

/-- LD.V (R139–R141). -/
def execLdV (i : Issue) (d : Fin 32) (a : Fin 16) (imm : BitVec 32) (s : State) : Host.Outcome State Fault Refusal :=
  s.effect (fun m => issuePure m i 3 (ldv d.val a.val imm))

/-- ST.V (R139–R141). -/
def execStV (i : Issue) (d : Fin 32) (a : Fin 16) (imm : BitVec 32) (s : State) : Host.Outcome State Fault Refusal :=
  s.effect (fun m => issuePure m i 3 (stv d.val a.val imm))

/-- LD.D (R139, R140). -/
def execLdD (i : Issue) (d : Fin 16) (a : Fin 64) (imm : BitVec 32) (s : State) : Host.Outcome State Fault Refusal :=
  s.effect (fun m => issuePure m i 3 (fun m c => loadIns (.d c.bank d.val) 64 (mAddr m c a.val imm)))

/-- MOVB (R142, R143, R210). -/
def execMovb (i : Issue) (d a : Fin 16) (s : State) : Host.Outcome State Fault Refusal :=
  s.effect (fun m => issuePure m i 3 (movb d.val a.val))

/-- DSET (R139). -/
def execDset (i : Issue) (d : Fin 16) (a : Fin 64) (w : Fin 8) (s : State) : Host.Outcome State Fault Refusal :=
  s.effect (fun m => issuePure m i 3 (fun m c => { lands := [(1, .d c.bank d.val (setDWord (readD m c.bank d.val) w.val (readS m c.bank a.val)))] }))

/-- DGET (R139). -/
def execDget (i : Issue) (d : Fin 64) (a : Fin 16) (w : Fin 8) (s : State) : Host.Outcome State Fault Refusal :=
  s.effect (fun m => issuePure m i 3 (fun m c => { lands := [(1, .s c.bank d.val (BitVec.ofNat 64 (bits (readD m c.bank a.val).toNat (64 * w.val) 64)))] }))

/-- DADD (R139). -/
def execDadd (i : Issue) (d a : Fin 16) (o : Op2) (s : State) : Host.Outcome State Fault Refusal :=
  s.effect (fun m => issuePure m i 3 (fun m c => { lands := [(1, .d c.bank d.val (addBase (readD m c.bank a.val) (readOp2 m c.bank o)))] }))

/-- FSEND (R144, R145). -/
def execFsend (i : Issue) (a : Fin 16) (node chan : Fin 64) (s : State) : Host.Outcome State Fault Refusal :=
  s.effect (fun m => issuePure m i 3 (fun m c => let x := readD m c.bank a.val; recordIns m c ⟨0, node.val, chan.val, x, 0⟩ [x]))

/-- FRECV (R144, R145). -/
def execFrecv (i : Issue) (a : Fin 16) (node chan : Fin 64) (s : State) : Host.Outcome State Fault Refusal :=
  s.effect (fun m => issuePure m i 3 (fun m c => let x := readD m c.bank a.val; recordIns m c ⟨1, node.val, chan.val, 0, x⟩ [x]))

/-- FREDUCE (R144, R145). -/
def execFreduce (i : Issue) (d a : Fin 16) (op : Fin 4) (grp : Fin 64) (s : State) : Host.Outcome State Fault Refusal :=
  s.effect (fun m => issuePure m i 3 (fun m c => let x := readD m c.bank a.val; let y := readD m c.bank d.val; recordIns m c ⟨2, op.val, grp.val, x, y⟩ [x, y]))

end Sys2Proof.Machine
end

