-- ==== Sys2Proof/Machine/Dispatch.lean ====
section
/-!
DEFINITION. The dispatch of the commands: one arm for every constructor, each a direct call of its meaning.
-/
namespace Sys2Proof.Machine

/-- The effect of a command on everything but the queue. -/
def exec (i : Instr) (s : State) : Host.Outcome State Fault Refusal :=
  match i with
  | .registerWrite p a bs => Sys2Proof.Machine.execRegisterWrite p a bs s
  | .wideValueCaptureRead p a n => Sys2Proof.Machine.execWideValueCaptureRead p a n s
  | .dmCeCount p => Sys2Proof.Machine.execDmCeCount p s
  | .lhCapMissed p c => Sys2Proof.Machine.execLhCapMissed p c s
  | .auPbUnderrun p n => Sys2Proof.Machine.execAuPbUnderrun p n s
  | .cmRxErr p r => Sys2Proof.Machine.execCmRxErr p r s
  | .snStreamOvr p n => Sys2Proof.Machine.execSnStreamOvr p n s
  | .snStreamMissed p n => Sys2Proof.Machine.execSnStreamMissed p n s
  | .fuOutMissed p => Sys2Proof.Machine.execFuOutMissed p s
  | .fuSnsLate p n => Sys2Proof.Machine.execFuSnsLate p n s
  | .chDiscard p => Sys2Proof.Machine.execChDiscard p s
  | .chPortErr p k => Sys2Proof.Machine.execChPortErr p k s
  | .hsAccessErr p => Sys2Proof.Machine.execHsAccessErr p s
  | .hsQCount p t => Sys2Proof.Machine.execHsQCount p t s
  | .efLost p t => Sys2Proof.Machine.execEfLost p t s
  | .efDevLost p => Sys2Proof.Machine.execEfDevLost p s
  | .efTail p ring v => Sys2Proof.Machine.execEfTail p ring v s
  | .pdDroopMin p r => Sys2Proof.Machine.execPdDroopMin p r s
  | .pdStretchCount p => Sys2Proof.Machine.execPdStretchCount p s
  | .lhEvtPopLo p => Sys2Proof.Machine.execLhEvtPopLo p s
  | .tickBoundary => Sys2Proof.Machine.execTickBoundary s
  | .referenceStop => Sys2Proof.Machine.execReferenceStop s
  | .referenceRestart => Sys2Proof.Machine.execReferenceRestart s
  | .crystalStartTimeout => Sys2Proof.Machine.execCrystalStartTimeout s
  | .seam => Sys2Proof.Machine.execSeam s
  | .tkCommit p v => Sys2Proof.Machine.execTkCommit p v s
  | .tableValidationDone => Sys2Proof.Machine.execTableValidationDone s
  | .slotStart n => Sys2Proof.Machine.execSlotStart n s
  | .slotEnd n => Sys2Proof.Machine.execSlotEnd n s
  | .resultLand run => Sys2Proof.Machine.execResultLand run s
  | .nop src => Sys2Proof.Machine.execNop src s
  | .add iss dst src1 op2 => Sys2Proof.Machine.execAdd iss dst src1 op2 s
  | .sub iss dst src1 op2 => Sys2Proof.Machine.execSub iss dst src1 op2 s
  | .mul iss dst src1 op2 => Sys2Proof.Machine.execMul iss dst src1 op2 s
  | .and iss dst src1 op2 => Sys2Proof.Machine.execAnd iss dst src1 op2 s
  | .or iss dst src1 op2 => Sys2Proof.Machine.execOr iss dst src1 op2 s
  | .xor iss dst src1 op2 => Sys2Proof.Machine.execXor iss dst src1 op2 s
  | .shl iss dst src1 op2 => Sys2Proof.Machine.execShl iss dst src1 op2 s
  | .shr iss dst src1 op2 => Sys2Proof.Machine.execShr iss dst src1 op2 s
  | .sar iss dst src1 op2 => Sys2Proof.Machine.execSar iss dst src1 op2 s
  | .min iss dst src1 op2 => Sys2Proof.Machine.execMin iss dst src1 op2 s
  | .max iss dst src1 op2 => Sys2Proof.Machine.execMax iss dst src1 op2 s
  | .minu iss dst src1 op2 => Sys2Proof.Machine.execMinu iss dst src1 op2 s
  | .maxu iss dst src1 op2 => Sys2Proof.Machine.execMaxu iss dst src1 op2 s
  | .movi iss dst imm => Sys2Proof.Machine.execMovi iss dst imm s
  | .movhi iss dst src1 imm => Sys2Proof.Machine.execMovhi iss dst src1 imm s
  | .rdspec iss dst sel => Sys2Proof.Machine.execRdspec iss dst sel s
  | .cmpeq iss dst src1 op2 => Sys2Proof.Machine.execCmpeq iss dst src1 op2 s
  | .cmpne iss dst src1 op2 => Sys2Proof.Machine.execCmpne iss dst src1 op2 s
  | .cmplt iss dst src1 op2 => Sys2Proof.Machine.execCmplt iss dst src1 op2 s
  | .cmpltu iss dst src1 op2 => Sys2Proof.Machine.execCmpltu iss dst src1 op2 s
  | .cmple iss dst src1 op2 => Sys2Proof.Machine.execCmple iss dst src1 op2 s
  | .cmpleu iss dst src1 op2 => Sys2Proof.Machine.execCmpleu iss dst src1 op2 s
  | .plogic iss dst a b table => Sys2Proof.Machine.execPlogic iss dst a b table s
  | .loop iss body count => Sys2Proof.Machine.execLoop iss body count s
  | .b iss offset => Sys2Proof.Machine.execB iss offset s
  | .wait iss count => Sys2Proof.Machine.execWait iss count s
  | .endStream iss => Sys2Proof.Machine.execEndStream iss s
  | .pilot iss cls down lead => Sys2Proof.Machine.execPilot iss cls down lead s
  | .conf iss src => Sys2Proof.Machine.execConf iss src s
  | .wake iss event target => Sys2Proof.Machine.execWake iss event target s
  | .bondOpen iss src => Sys2Proof.Machine.execBondOpen iss src s
  | .bondCommit iss stage => Sys2Proof.Machine.execBondCommit iss stage s
  | .bondDrop iss stage => Sys2Proof.Machine.execBondDrop iss stage s
  | .mma iss flow acc dst a b => Sys2Proof.Machine.execMma iss flow acc dst a b s
  | .conv iss flow acc pack dst input filter win => Sys2Proof.Machine.execConv iss flow acc pack dst input filter win s
  | .pool iss mode dst input win => Sys2Proof.Machine.execPool iss mode dst input win s
  | .vadd iss ty dst a b => Sys2Proof.Machine.execVadd iss ty dst a b s
  | .vsub iss ty dst a b => Sys2Proof.Machine.execVsub iss ty dst a b s
  | .vmul iss ty dst a b => Sys2Proof.Machine.execVmul iss ty dst a b s
  | .vfma iss ty dst a b c => Sys2Proof.Machine.execVfma iss ty dst a b c s
  | .vmin iss ty dst a b => Sys2Proof.Machine.execVmin iss ty dst a b s
  | .vmax iss ty dst a b => Sys2Proof.Machine.execVmax iss ty dst a b s
  | .vabs iss ty dst a => Sys2Proof.Machine.execVabs iss ty dst a s
  | .vneg iss ty dst a => Sys2Proof.Machine.execVneg iss ty dst a s
  | .vcmpeq iss ty dst a b => Sys2Proof.Machine.execVcmpeq iss ty dst a b s
  | .vcmplt iss ty dst a b => Sys2Proof.Machine.execVcmplt iss ty dst a b s
  | .vcmple iss ty dst a b => Sys2Proof.Machine.execVcmple iss ty dst a b s
  | .vsel iss ty dst a b c => Sys2Proof.Machine.execVsel iss ty dst a b c s
  | .vand iss ty dst a b => Sys2Proof.Machine.execVand iss ty dst a b s
  | .vor iss ty dst a b => Sys2Proof.Machine.execVor iss ty dst a b s
  | .vxor iss ty dst a b => Sys2Proof.Machine.execVxor iss ty dst a b s
  | .vshl iss ty dst a b => Sys2Proof.Machine.execVshl iss ty dst a b s
  | .vshr iss ty dst a b => Sys2Proof.Machine.execVshr iss ty dst a b s
  | .vsar iss ty dst a b => Sys2Proof.Machine.execVsar iss ty dst a b s
  | .vcvt iss ty ty2 dst a => Sys2Proof.Machine.execVcvt iss ty ty2 dst a s
  | .vbcast iss ty dst src => Sys2Proof.Machine.execVbcast iss ty dst src s
  | .vext iss ty dst a lane => Sys2Proof.Machine.execVext iss ty dst a lane s
  | .vrcp iss ty dst a => Sys2Proof.Machine.execVrcp iss ty dst a s
  | .vrsqrt iss ty dst a => Sys2Proof.Machine.execVrsqrt iss ty dst a s
  | .vsqrt iss ty dst a => Sys2Proof.Machine.execVsqrt iss ty dst a s
  | .vdiv iss ty dst a b => Sys2Proof.Machine.execVdiv iss ty dst a b s
  | .vexp2 iss ty dst a => Sys2Proof.Machine.execVexp2 iss ty dst a s
  | .vlog2 iss ty dst a => Sys2Proof.Machine.execVlog2 iss ty dst a s
  | .vsin iss ty dst a => Sys2Proof.Machine.execVsin iss ty dst a s
  | .vcos iss ty dst a => Sys2Proof.Machine.execVcos iss ty dst a s
  | .vtanh iss ty dst a => Sys2Proof.Machine.execVtanh iss ty dst a s
  | .vredsum iss ty dst a => Sys2Proof.Machine.execVredsum iss ty dst a s
  | .vredmax iss ty dst a => Sys2Proof.Machine.execVredmax iss ty dst a s
  | .vredmin iss ty dst a => Sys2Proof.Machine.execVredmin iss ty dst a s
  | .vgather iss ty dst base idx => Sys2Proof.Machine.execVgather iss ty dst base idx s
  | .vscatter iss ty base idx data => Sys2Proof.Machine.execVscatter iss ty base idx data s
  | .vmov iss ty dst a => Sys2Proof.Machine.execVmov iss ty dst a s
  | .ldS iss dst base imm => Sys2Proof.Machine.execLdS iss dst base imm s
  | .stS iss data base imm => Sys2Proof.Machine.execStS iss data base imm s
  | .ldV iss dst base imm => Sys2Proof.Machine.execLdV iss dst base imm s
  | .stV iss data base imm => Sys2Proof.Machine.execStV iss data base imm s
  | .ldD iss dst base imm => Sys2Proof.Machine.execLdD iss dst base imm s
  | .movb iss dst src => Sys2Proof.Machine.execMovb iss dst src s
  | .dset iss dst src word => Sys2Proof.Machine.execDset iss dst src word s
  | .dget iss dst src word => Sys2Proof.Machine.execDget iss dst src word s
  | .dadd iss dst src op2 => Sys2Proof.Machine.execDadd iss dst src op2 s
  | .fsend iss src node chan => Sys2Proof.Machine.execFsend iss src node chan s
  | .frecv iss dst node chan => Sys2Proof.Machine.execFrecv iss dst node chan s
  | .freduce iss dst src op group => Sys2Proof.Machine.execFreduce iss dst src op group s
  | .commitFlipEnd t j => Sys2Proof.Machine.execCommitFlipEnd t j s
  | .bondExpiry t j => Sys2Proof.Machine.execBondExpiry t j s
  | .qySelftest p v => Sys2Proof.Machine.execQySelftest p v s
  | .selftestComplete fail => Sys2Proof.Machine.execSelftestComplete fail s
  | .progLoad cmd r dest role tenant src image corrupt => Sys2Proof.Machine.execProgLoad cmd r dest role tenant src image corrupt s
  | .programValidationDone q cid => Sys2Proof.Machine.execProgramValidationDone q cid s
  | .progUnload cmd h dest tenant => Sys2Proof.Machine.execProgUnload cmd h dest tenant s
  | .alloc cmd size flags => Sys2Proof.Machine.execAlloc cmd size flags s
  | .free cmd h => Sys2Proof.Machine.execFree cmd h s
  | .zeroOnFreeDone h => Sys2Proof.Machine.execZeroOnFreeDone h s
  | .manifestLoad cmd r => Sys2Proof.Machine.execManifestLoad cmd r s
  | .manifestUnload cmd h => Sys2Proof.Machine.execManifestUnload cmd h s
  | .transferIssue x => Sys2Proof.Machine.execTransferIssue x s
  | .transferComplete x e ce reads => Sys2Proof.Machine.execTransferComplete x e ce reads s
  | .pageCopyDone h p reads => Sys2Proof.Machine.execPageCopyDone h p reads s
  | .crRes p t x v => Sys2Proof.Machine.execCrRes p t x v s
  | .writeDurable id r => Sys2Proof.Machine.execWriteDurable id r s
  | .relocationDone block r => Sys2Proof.Machine.execRelocationDone block r s
  | .imgOpen cmd r => Sys2Proof.Machine.execImgOpen cmd r s
  | .imgData cmd r off => Sys2Proof.Machine.execImgData cmd r off s
  | .imgClose cmd => Sys2Proof.Machine.execImgClose cmd s
  | .imgDelete cmd id => Sys2Proof.Machine.execImgDelete cmd id s
  | .imgList cmd r => Sys2Proof.Machine.execImgList cmd r s
  | .imgLoad cmd id h off corrupt reads => Sys2Proof.Machine.execImgLoad cmd id h off corrupt reads s
  | .bootSelect cmd id => Sys2Proof.Machine.execBootSelect cmd id s
  | .flashFormat cmd key => Sys2Proof.Machine.execFlashFormat cmd key s
  | .casCreate cmd r => Sys2Proof.Machine.execCasCreate cmd r s
  | .casArm cmd t => Sys2Proof.Machine.execCasArm cmd t s
  | .casDisarm cmd t => Sys2Proof.Machine.execCasDisarm cmd t s
  | .casDestroy cmd t => Sys2Proof.Machine.execCasDestroy cmd t s
  | .audioFrame f => Sys2Proof.Machine.execAudioFrame f s
  | .taskShareEnd h => Sys2Proof.Machine.execTaskShareEnd h s
  | .xtal32Loss => Sys2Proof.Machine.execXtal32Loss s
  | .xtal32Relock => Sys2Proof.Machine.execXtal32Relock s
  | .xtal32StartTimeout => Sys2Proof.Machine.execXtal32StartTimeout s
  | .lhPartOwner p n v => Sys2Proof.Machine.execLhPartOwner p n v s
  | .partitionClearDone p => Sys2Proof.Machine.execPartitionClearDone p s
  | .microArrayStart h => Sys2Proof.Machine.execMicroArrayStart h s
  | .stage1Publish h => Sys2Proof.Machine.execStage1Publish h s
  | .vadPublish => Sys2Proof.Machine.execVadPublish s
  | .lhVadCfg p v => Sys2Proof.Machine.execLhVadCfg p v s
  | .lhCapCfg p c v => Sys2Proof.Machine.execLhCapCfg p c v s
  | .mirrorCopy c => Sys2Proof.Machine.execMirrorCopy c s
  | .lhMicMute p v => Sys2Proof.Machine.execLhMicMute p v s
  | .auCommit p v => Sys2Proof.Machine.execAuCommit p v s
  | .touchScanTimer => Sys2Proof.Machine.execTouchScanTimer s
  | .scan p => Sys2Proof.Machine.execScan p s
  | .touchMeasurementEnd cnt => Sys2Proof.Machine.execTouchMeasurementEnd cnt s
  | .buttonInput b level => Sys2Proof.Machine.execButtonInput b level s
  | .buttonDebounced b => Sys2Proof.Machine.execButtonDebounced b s
  | .hapticGo p h => Sys2Proof.Machine.execHapticGo p h s
  | .hapticStop p h => Sys2Proof.Machine.execHapticStop p h s
  | .hapticStepEnd h => Sys2Proof.Machine.execHapticStepEnd h s
  | .rtcAlarm => Sys2Proof.Machine.execRtcAlarm s
  | .rtcPeriod => Sys2Proof.Machine.execRtcPeriod s
  | .lhRtcLo p v => Sys2Proof.Machine.execLhRtcLo p v s
  | .lhRhTenants p v => Sys2Proof.Machine.execLhRhTenants p v s
  | .residentHostSwitch t => Sys2Proof.Machine.execResidentHostSwitch t s
  | .streamOpen cmd kind src size dram ring records => Sys2Proof.Machine.execStreamOpen cmd kind src size dram ring records s
  | .streamClose cmd n => Sys2Proof.Machine.execStreamClose cmd n s
  | .streamInject cmd n stamp r => Sys2Proof.Machine.execStreamInject cmd n stamp r s
  | .ringRecordWrite n => Sys2Proof.Machine.execRingRecordWrite n s
  | .snBindCommit p n v => Sys2Proof.Machine.execSnBindCommit p n v s
  | .frameStart v csi late => Sys2Proof.Machine.execFrameStart v csi late s
  | .frameEnd v => Sys2Proof.Machine.execFrameEnd v s
  | .longPacket v dt bs ecc crcBad lost => Sys2Proof.Machine.execLongPacket v dt bs ecc crcBad lost s
  | .frameRecord v => Sys2Proof.Machine.execFrameRecord v s
  | .cmCommit p c v => Sys2Proof.Machine.execCmCommit p c v s
  | .snI3cCfg p k found v => Sys2Proof.Machine.execSnI3cCfg p k found v s
  | .ibi k addr data => Sys2Proof.Machine.execIbi k addr data s
  | .hotJoin k => Sys2Proof.Machine.execHotJoin k s
  | .arm p n => Sys2Proof.Machine.execArm p n s
  | .disarm p n => Sys2Proof.Machine.execDisarm p n s
  | .trig p n => Sys2Proof.Machine.execTrig p n s
  | .timerTrigger n => Sys2Proof.Machine.execTimerTrigger n s
  | .sequenceRunStart n => Sys2Proof.Machine.execSequenceRunStart n s
  | .busTransactionDone n ok bs => Sys2Proof.Machine.execBusTransactionDone n ok bs s
  | .wheelEdge w e => Sys2Proof.Machine.execWheelEdge w e s
  | .wheelReport w => Sys2Proof.Machine.execWheelReport w s
  | .fuCtrl p v => Sys2Proof.Machine.execFuCtrl p v s
  | .gridPoint => Sys2Proof.Machine.execGridPoint s
  | .maskHoldExpiry n => Sys2Proof.Machine.execMaskHoldExpiry n s
  | .fuSnsCtrl p n v => Sys2Proof.Machine.execFuSnsCtrl p n v s
  | .pwrSet cmd p => Sys2Proof.Machine.execPwrSet cmd p s
  | .perfSet cmd p => Sys2Proof.Machine.execPerfSet cmd p s
  | .standingOrder cmd p => Sys2Proof.Machine.execStandingOrder cmd p s
  | .loweringStart d => Sys2Proof.Machine.execLoweringStart d s
  | .domainTransitionComplete d mountOk full => Sys2Proof.Machine.execDomainTransitionComplete d mountOk full s
  | .transitionTimeout d => Sys2Proof.Machine.execTransitionTimeout d s
  | .squelchBreak p => Sys2Proof.Machine.execSquelchBreak p s
  | .wakePattern p => Sys2Proof.Machine.execWakePattern p s
  | .clkreqAssert => Sys2Proof.Machine.execClkreqAssert s
  | .perstDeassert => Sys2Proof.Machine.execPerstDeassert s
  | .qspiCsAssert => Sys2Proof.Machine.execQspiCsAssert s
  | .ilimUpdate vbat vres => Sys2Proof.Machine.execIlimUpdate vbat vres s
  | .burstEnergyExhausted => Sys2Proof.Machine.execBurstEnergyExhausted s
  | .stepAssist v => Sys2Proof.Machine.execStepAssist v s
  | .releaseShunt v => Sys2Proof.Machine.execReleaseShunt v s
  | .droopStretch v c => Sys2Proof.Machine.execDroopStretch v c s
  | .railUndervolt c => Sys2Proof.Machine.execRailUndervolt c s
  | .thermalShutdownComparator => Sys2Proof.Machine.execThermalShutdownComparator s
  | .vWarnAssert => Sys2Proof.Machine.execVWarnAssert s
  | .vWarnDeassert => Sys2Proof.Machine.execVWarnDeassert s
  | .vNvwAssert => Sys2Proof.Machine.execVNvwAssert s
  | .vNvwDeassert => Sys2Proof.Machine.execVNvwDeassert s
  | .vRetAssert => Sys2Proof.Machine.execVRetAssert s
  | .vRetDeassert => Sys2Proof.Machine.execVRetDeassert s
  | .brownOutReset => Sys2Proof.Machine.execBrownOutReset s
  | .brownOutRelease x => Sys2Proof.Machine.execBrownOutRelease x s
  | .tenantCreate cmd t mode quota => Sys2Proof.Machine.execTenantCreate cmd t mode quota s
  | .tenantDestroy cmd t => Sys2Proof.Machine.execTenantDestroy cmd t s
  | .rulesUpdate cmd r => Sys2Proof.Machine.execRulesUpdate cmd r s
  | .ruleFence => Sys2Proof.Machine.execRuleFence s
  | .attest cmd kind scope nlen r nonce => Sys2Proof.Machine.execAttest cmd kind scope nlen r nonce s
  | .ownerEnroll cmd r => Sys2Proof.Machine.execOwnerEnroll cmd r s
  | .svnCommit cmd => Sys2Proof.Machine.execSvnCommit cmd s
  | .rmaConsent cmd => Sys2Proof.Machine.execRmaConsent cmd s
  | .entropyHealthTest pass => Sys2Proof.Machine.execEntropyHealthTest pass s
  | .hmLockSet p v => Sys2Proof.Machine.execHmLockSet p v s
  | .newChallenge p => Sys2Proof.Machine.execNewChallenge p s
  | .unlock p level => Sys2Proof.Machine.execUnlock p level s
  | .relock p => Sys2Proof.Machine.execRelock p s
  | .extestEntry => Sys2Proof.Machine.execExtestEntry s
  | .extestExit => Sys2Proof.Machine.execExtestExit s
  | .flit p bs blockErr => Sys2Proof.Machine.execFlit p bs blockErr s
  | .ack p body => Sys2Proof.Machine.execAck p body s
  | .replayTimeout p => Sys2Proof.Machine.execReplayTimeout p s
  | .train p aligned locked ready => Sys2Proof.Machine.execTrain p aligned locked ready s
  | .trainingTimeout p => Sys2Proof.Machine.execTrainingTimeout p s
  | .sleep p => Sys2Proof.Machine.execSleep p s
  | .blockLockLoss p => Sys2Proof.Machine.execBlockLockLoss p s
  | .sendWake p k => Sys2Proof.Machine.execSendWake p k s
  | .hello => Sys2Proof.Machine.execHello s
  | .cert => Sys2Proof.Machine.execCert s
  | .topo => Sys2Proof.Machine.execTopo s
  | .topoTimer => Sys2Proof.Machine.execTopoTimer s
  | .assignTimer => Sys2Proof.Machine.execAssignTimer s
  | .assign => Sys2Proof.Machine.execAssign s
  | .routeTableRelease => Sys2Proof.Machine.execRouteTableRelease s
  | .syncReq f2 f3 => Sys2Proof.Machine.execSyncReq f2 f3 s
  | .syncResp f1 f4 => Sys2Proof.Machine.execSyncResp f1 f4 s
  | .sendTransfer => Sys2Proof.Machine.execSendTransfer s
  | .redUp => Sys2Proof.Machine.execRedUp s
  | .cutoffExpiry => Sys2Proof.Machine.execCutoffExpiry s
  | .redDown => Sys2Proof.Machine.execRedDown s
  | .digest => Sys2Proof.Machine.execDigest s
  | .verdict => Sys2Proof.Machine.execVerdict s
  | .cascade => Sys2Proof.Machine.execCascade s
  | .peerTransfer => Sys2Proof.Machine.execPeerTransfer s
  | .jobOpen cmd r => Sys2Proof.Machine.execJobOpen cmd r s
  | .jobClose cmd job => Sys2Proof.Machine.execJobClose cmd job s
  | .sqTailDoorbell q v ok32 => Sys2Proof.Machine.execSqTailDoorbell q v ok32 s
  | .cqHeadDoorbell q v ok32 => Sys2Proof.Machine.execCqHeadDoorbell q v ok32 s
  | .commandFetch q dma => Sys2Proof.Machine.execCommandFetch q dma s
  | .commandComplete q cid lost => Sys2Proof.Machine.execCommandComplete q cid lost s
  | .irqCoalesceTimer q => Sys2Proof.Machine.execIrqCoalesceTimer q s
  | .hsQCfg p t v => Sys2Proof.Machine.execHsQCfg p t v s
  | .linkReset down => Sys2Proof.Machine.execLinkReset down s
  | .linkTrained speed width => Sys2Proof.Machine.execLinkTrained speed width s
  | .d3hotEntry => Sys2Proof.Machine.execD3hotEntry s
  | .d0Return => Sys2Proof.Machine.execD0Return s
  | .qspiRead a n cut => Sys2Proof.Machine.execQspiRead a n cut s
  | .qspiWrite a ws cut => Sys2Proof.Machine.execQspiWrite a ws cut s
  | .qspiStatus inst => Sys2Proof.Machine.execQspiStatus inst s
  | .regRead cmd off => Sys2Proof.Machine.execRegRead cmd off s
  | .regWrite cmd off v => Sys2Proof.Machine.execRegWrite cmd off v s
  | .hostWrite cmd h off r => Sys2Proof.Machine.execHostWrite cmd h off r s
  | .hostRead cmd h off r reads => Sys2Proof.Machine.execHostRead cmd h off r reads s
  | .hostmemReg cmd r => Sys2Proof.Machine.execHostmemReg cmd r s
  | .hostmemUnreg cmd region => Sys2Proof.Machine.execHostmemUnreg cmd region s
  | .lhMemWrite cmd addr r => Sys2Proof.Machine.execLhMemWrite cmd addr r s
  | .lhMemRead cmd addr r => Sys2Proof.Machine.execLhMemRead cmd addr r s
  | .runNotify cmd slot on => Sys2Proof.Machine.execRunNotify cmd slot on s
  | .droopRecorderMinimum r v => Sys2Proof.Machine.execDroopRecorderMinimum r v s
  | .reservoirVResMin => Sys2Proof.Machine.execReservoirVResMin s
  | .dphyLaneStateChange r l e => Sys2Proof.Machine.execDphyLaneStateChange r l e s
  | .sequenceDelayEnd n => Sys2Proof.Machine.execSequenceDelayEnd n s
  | .vioBankSupplyChange h up hiV => Sys2Proof.Machine.execVioBankSupplyChange h up hiV s
  | .keepAliveLoss => Sys2Proof.Machine.execKeepAliveLoss s

end Sys2Proof.Machine
end

