-- ==== Sys2Proof/Machine/Idle.lean ====
section
/-!
DEFINITION. What happens while no command waits: time passes.
-/
namespace Sys2Proof.Machine

/-- Time passes: one reference cycle, or, while the reference is stopped, one AON cycle, counted as 12 and 13 reference cycles in turn (R18, R404).
DESIGN CHOICE: the table of operations and events has no row for a clock edge (log 2). -/
def idleTick (m : Mach) : Mach :=
  if m.clk.refStopped then
    { m with out := [], clk := { m.clk with now := m.clk.now + (if m.clk.coarse13 then 13 else 12), coarse13 := !m.clk.coarse13 } }
  else { m with out := [], clk := { m.clk with now := m.clk.now + 1 } }

end Sys2Proof.Machine
end

