-- ==== Sys2Proof/Safety.lean ====
section
/-!
DEFINITION. The terms in which claims are stated: what a command leaves alone, and when nothing of an earlier command is left to do.
-/
namespace Sys2Proof.Machine

/-- The parts of the machine that fault records, completions, notices, vectors and power requests leave alone, and the fields of the
clock that they leave alone. -/
structure SameParts (m m' : Mach) : Prop where
  shadow : m'.shadow = m.shadow
  held : m'.held = m.held
  tk : m'.tk = m.tk
  st : m'.st = m.st
  sto : m'.sto = m.sto
  cas : m'.cas = m.cas
  lh : m'.lh = m.lh
  mem : m'.mem = m.mem
  fl : m'.fl = m.fl
  hm : m'.hm = m.hm
  sn : m'.sn = m.sn
  fu : m'.fu = m.fu
  ch : m'.ch = m.ch
  fresh : m'.fresh = m.fresh
  latch : m'.latch = m.latch
  now : m'.clk.now = m.clk.now
  tick : m'.clk.tick = m.clk.tick
  tickStart : m'.clk.tickStart = m.clk.tickStart
  refStopped : m'.clk.refStopped = m.clk.refStopped

/-- Nothing of an earlier command is left to do: no raised fault waits for its record, and no completion is held (R658, R682, R701). -/
def Quiet (s : State) : Prop := s.mach.ef.raised = [] ∧ s.mach.hs.held = []

/-- No raised fault waits for its record. -/
def Settled (s : State) : Prop := s.mach.ef.raised = []

/-- The tick counter is a number of 48 bits (R17), and no raised fault waits. -/
def Kept (s : State) : Prop := s.mach.clk.tick < 2 ^ 48 ∧ Settled s

/-! ## Instructions -/

/-- An instruction word of a unit executes (R82–R93): its run, caught up with the issue cycle, is `c.run` in the machine `m`; its guard holds
and its unit is free. -/
def Executes (s : State) (iss : Issue) (unit : Nat) (m : Mach) (c : Ctx) : Prop :=
  (∃ c0, issueCtx { s.mach with out := [] } iss = some (m, c0) ∧ c = { c0 with ins := { c0.ins with unit := unit } }) ∧
    guardOk m c.bank iss = true ∧ c.st.busy unit ≤ c.cyc

/-- The issue fields and the unit of an instruction (0 S, 1 T, 2 V, 3 M); none for a command that is no instruction word. -/
def insOf : Instr → Option (Issue × Nat)
  | .nop (.word i) => some (i, 0)
  | .add i _ _ _ | .sub i _ _ _ | .mul i _ _ _ | .and i _ _ _ | .or i _ _ _ | .xor i _ _ _ | .shl i _ _ _ | .shr i _ _ _ | .sar i _ _ _
  | .min i _ _ _ | .max i _ _ _ | .minu i _ _ _ | .maxu i _ _ _ | .movi i _ _ | .movhi i _ _ _ | .rdspec i _ _
  | .cmpeq i _ _ _ | .cmpne i _ _ _ | .cmplt i _ _ _ | .cmpltu i _ _ _ | .cmple i _ _ _ | .cmpleu i _ _ _ | .plogic i _ _ _ _
  | .loop i _ _ | .b i _ | .wait i _ | .endStream i | .pilot i _ _ _ | .conf i _ | .wake i _ _ | .bondOpen i _ | .bondCommit i _
  | .bondDrop i _ => some (i, 0)
  | .mma i _ _ _ _ _ | .conv i _ _ _ _ _ _ _ | .pool i _ _ _ _ => some (i, 1)
  | .vadd i _ _ _ _ | .vsub i _ _ _ _ | .vmul i _ _ _ _ | .vfma i _ _ _ _ _ | .vmin i _ _ _ _ | .vmax i _ _ _ _ | .vabs i _ _ _
  | .vneg i _ _ _ | .vcmpeq i _ _ _ _ | .vcmplt i _ _ _ _ | .vcmple i _ _ _ _ | .vsel i _ _ _ _ _ | .vand i _ _ _ _ | .vor i _ _ _ _
  | .vxor i _ _ _ _ | .vshl i _ _ _ _ | .vshr i _ _ _ _ | .vsar i _ _ _ _ | .vcvt i _ _ _ _ | .vbcast i _ _ _ | .vext i _ _ _ _
  | .vrcp i _ _ _ | .vrsqrt i _ _ _ | .vsqrt i _ _ _ | .vdiv i _ _ _ _ | .vexp2 i _ _ _ | .vlog2 i _ _ _ | .vsin i _ _ _
  | .vcos i _ _ _ | .vtanh i _ _ _ | .vredsum i _ _ _ | .vredmax i _ _ _ | .vredmin i _ _ _ | .vgather i _ _ _ _
  | .vscatter i _ _ _ _ | .vmov i _ _ _ => some (i, 2)
  | .ldS i _ _ _ | .stS i _ _ _ | .ldV i _ _ _ | .stV i _ _ _ | .ldD i _ _ _ | .movb i _ _ | .dset i _ _ _ | .dget i _ _ _
  | .dadd i _ _ _ | .fsend i _ _ _ | .frecv i _ _ _ | .freduce i _ _ _ _ => some (i, 3)
  | _ => none

/-- The command answers a next state in which its run holds what `P` says of it, and everything else is as in the caught-up machine: only
what the end of any command may write (fault records, vectors, power) can differ. -/
def RunGets (i : Instr) (s : State) (m : Mach) (c : Ctx) (P : SlotRun → Prop) : Prop :=
  ∃ t r, exec i s = .next t ∧ t.pending = s.pending ∧ t.fuses = s.fuses ∧ SameParts (putRun m r) t.mach ∧ r.id = c.run.id ∧ P r

/-- Element `i` of a vector register of a cluster, read as its TYPE lays it out (R134). -/
def elt (m : Mach) (ty : VType) (cl r i : Nat) : Nat := bits (readV m cl r).toNat (i * vbits ty) (vbits ty)

/-- The clusters of a stream that detect no parity error, in rank order (R187). -/
def goodClusters (c : Ctx) (par : Nat) : List Nat := c.st.clusters.filter (fun cl => !bit par (cl + 4))

/-- The landings of a vector instruction after `lat` cycles (R66, R87, R175): in every good cluster a register of `n` elements of `w` bits, and
the numeric flags that any element raised. -/
def vecLands (c : Ctx) (par lat d w n : Nat) (f : Nat → Nat → Nat × Nat) : List (Nat × LandAct) :=
  (goodClusters c par).map (fun cl => (lat, .v cl d (ofElts w ((List.range n).map (fun i => (f cl i).1))))) ++
    (let fl := (goodClusters c par).foldl (fun a cl => (List.range n).foldl (fun b i => b ||| (f cl i).2) a) 0
     if fl = 0 then [] else [(lat, .flags fl)])

/-- The stream of an instruction word after it, where the word was the last of its bundle and asked for `ctl` (R84, R94–R98). -/
def bundleEnd (c : Ctx) (unit occ : Nat) (ctl : Ctl) (r : SlotRun) : Prop :=
  r.streams[c.i]? = some (endBundle (Stream.setBusy { c.st with ctl, done := c.st.done + 1 } unit (c.cyc + occ)) (c.st.done + 1))

/-- The run holds what it held, and these landings, each a number of cycles after the issue (R87). -/
def LandsOnly (c : Ctx) (ls : List (Nat × LandAct)) (r : SlotRun) : Prop :=
  r.lands = c.run.lands ++ ls.map (fun p => { cyc := c.cyc + p.1, ins := c.ins, act := p.2 }) ∧
    r.accs = c.run.accs ∧ r.holds = c.run.holds ∧ r.records = c.run.records ∧ r.pilots = c.run.pilots

/-! ## Commands of every kind -/

/-- The machine as a command finds it: what the last command sent is forgotten. -/
def State.taken (s : State) : Mach := { s.mach with out := [] }

/-- What the end of every command adds to its effect: a completion that is held wakes HOST (R682), and raised faults become records (R701). -/
def ended (m : Mach) : Mach := flushFaults (wakeHost m)

/-- A command answers a next state: its effect leaves the machine as `M`, the command ends, and the queue and the fuses stand. -/
def Leaves (i : Instr) (s : State) (M : Mach) : Prop := exec i s = .next { s with mach := ended M }

/-- A path reads a register (R550, R551): it has a context, the register's domain is on, and the register's permission covers the context. -/
def ReadOk (m : Mach) (p : Path) (a : Nat) : Prop :=
  ∃ ctx r i j, pathCtx m p = some ctx ∧ regFind a = some (r, i, j) ∧ regOn m r = true ∧ permits m r.rd r i a ctx = true

/-- A path writes a register in a context (R11, R550–R552): as for reads, and neither a lock nor what is under way discards the write. -/
def WriteOk (m : Mach) (p : Path) (a ctx : Nat) : Prop :=
  ∃ r i j, pathCtx m p = some ctx ∧ regFind a = some (r, i, j) ∧ regOn m r = true ∧ mayWrite m r i a ctx = true ∧
    locked m r a = false ∧ frozen m r i a = false

/-- The register that a row of reads with side effects reads, and over which path. -/
def readOf : Instr → Option (Path × Nat)
  | .dmCeCount p => some (p, rDM_CE_COUNT)
  | .lhCapMissed p c => some (p, rLH_CAP_MISSED c.val)
  | .auPbUnderrun p n => some (p, rAU_PB_UNDERRUN n.val)
  | .cmRxErr p r => some (p, rCM_RX_ERR r.val)
  | .snStreamOvr p n => some (p, rSN_STREAM_OVR n.val)
  | .snStreamMissed p n => some (p, rSN_STREAM_MISSED n.val)
  | .fuOutMissed p => some (p, rFU_OUT_MISSED)
  | .fuSnsLate p n => some (p, rFU_SNS_LATE n.val)
  | .chDiscard p => some (p, rCH_DISCARD)
  | .chPortErr p k => some (p, rCH_PORT_ERR k.val)
  | .hsAccessErr p => some (p, rHS_ACCESS_ERR)
  | .hsQCount p t => some (p, rHS_Q_COUNT t.val)
  | .efLost p t => some (p, rEF_LOST t.val)
  | .efDevLost p => some (p, rEF_DEV_LOST)
  | .pdDroopMin p r => some (p, rPD_DROOP_MIN r.val)
  | .pdStretchCount p => some (p, rPD_STRETCH_COUNT)
  | .lhEvtPopLo p => some (p, rLH_EVT_POP_LO)
  | _ => none

/-- The register that a row of writes that act writes, over which path, and the value it writes. -/
def writeOf : Instr → Option (Path × Nat × Word)
  | .tkCommit p v => some (p, rTK_COMMIT, v)
  | .qySelftest p v => some (p, rQY_SELFTEST, v)
  | .crRes p t x v => some (p, rCR_RES t.val x.val, v)
  | .lhPartOwner p n v => some (p, rLH_PART_OWNER n.val, v)
  | .lhVadCfg p v => some (p, rLH_VAD_CFG, v)
  | .lhCapCfg p c v => some (p, rLH_CAP_CFG c.val, v)
  | .auCommit p v => some (p, rAU_COMMIT, v)
  | .snBindCommit p n v => some (p, rSN_BIND_COMMIT n.val, v)
  | .cmCommit p c v => some (p, rCM_COMMIT c.val, v)
  | .fuCtrl p v => some (p, rFU_CTRL, v)
  | .fuSnsCtrl p n v => some (p, rFU_SNS_CTRL n.val, v)
  | .hmLockSet p v => some (p, rHM_LOCK_SET, v)
  | .hsQCfg p t v => some (p, rHS_Q_CFG t.val, v)
  | .hapticGo p h => some (p, rLH_HAP_CTRL h.val, 1#32)
  | .hapticStop p h => some (p, rLH_HAP_CTRL h.val, 2#32)
  | .arm p n => some (p, rSN_SEQ_CTRL n.val, 1#32)
  | .disarm p n => some (p, rSN_SEQ_CTRL n.val, 2#32)
  | .trig p n => some (p, rSN_SEQ_CTRL n.val, 4#32)
  | .newChallenge p => some (p, rDB_CTRL, 1#32)
  | .relock p => some (p, rDB_CTRL, 16#32)
  | .unlock p l => some (p, rDB_CTRL, BitVec.ofNat 32 (2 + 4 * l.val))
  | .sendWake p k => some (p, rCH_PORT_CTRL k.val, 1#32)
  | .efTail p (some t) v => some (p, rEF_TAIL t.val, v)
  | .efTail p none v => some (p, rEF_DEV_TAIL, v)
  | _ => none

/-! ## Commands of a queue -/

/-- A command of a queue begins with its own effect (R553, R674, R678, R697): it was fetched, nothing holds it back, its tenant exists, ROM
recovery accepts it, and no reserved bit is set. -/
def Begins (m : Mach) (cmd : CmdCtx) (op : Nat) (waits : RunCmd → Bool) : Prop :=
  mayBegin m cmd.q.val cmd.cid waits = true ∧ (findCmd m cmd.q.val cmd.cid).any (·.op != op) = false ∧ tenantExists m cmd.q.val = true ∧
    (inRecovery m = true → recoveryOps.contains op = true) ∧ cmd.resv = false

/-- The machine once a command has begun. -/
def begun (m : Mach) (cmd : CmdCtx) : Mach :=
  { m with hs := { m.hs with cmds := mapIf (fun x => x.q == cmd.q.val && x.cid == cmd.cid) (fun x => { x with begun := true }) m.hs.cmds } }

/-- The effect leaves `x` and completes the command with a RESULT (R672). -/
def Completes (i : Instr) (s : State) (cmd : CmdCtx) (op : Nat) (x : Mach) (result : Nat) : Prop :=
  Leaves i s (complete x cmd.q.val cmd.cid op 0 result 0)

/-- The command is refused: its fault is raised for its tenant, and it completes with it (R672). -/
def Refuses (i : Instr) (s : State) (cmd : CmdCtx) (op fault detail : Nat) : Prop :=
  Leaves i s (refuse (begun s.taken cmd) cmd.q.val cmd.cid op fault detail)

/-- The effect leaves `x`, and the command takes time: COMMAND_COMPLETE posts its completion, once its flash writes are durable (R273, R674). -/
def Takes (i : Instr) (s : State) (cmd : CmdCtx) (op : Nat) (x : Mach) (result : Nat) (objs : List Nat) (lo hi : Nat) : Prop :=
  Leaves i s (taking x cmd.q.val cmd.cid op result objs lo hi)

/-- The command, opcode and conditions of waiting of a row that is a command of a queue, for those that any tenant may issue. -/
def commandOf : Instr → Option (CmdCtx × Nat × (RunCmd → Bool))
  | .nop (.command c) => some (c, 0x00, noWait)
  | .regRead c _ => some (c, 0x01, noWait)
  | .regWrite c _ _ => some (c, 0x02, noWait)
  | .alloc c _ _ => some (c, 0x10, noWait)
  | .free c h => some (c, 0x11, naming (objKey 1 h))
  | .hostWrite c h off r => some (c, 0x12, overlapping h off (refLen r) true)
  | .hostRead c h off r _ => some (c, 0x13, overlapping h off (refLen r) false)
  | .hostmemReg c _ => some (c, 0x14, noWait)
  | .hostmemUnreg c g => some (c, 0x15, naming (objKey 2 g))
  | .manifestLoad c _ => some (c, 0x18, noWait)
  | .manifestUnload c h => some (c, 0x19, naming (objKey 3 h))
  | .progLoad c _ _ _ _ _ _ _ => some (c, 0x20, noWait)
  | .progUnload c h d _ => some (c, 0x21, naming (objKey (if d = 0 then 4 else 10) h))
  | .imgOpen c _ => some (c, 0x28, noWait)
  | .imgData c _ _ => some (c, 0x29, noWait)
  | .imgClose c => some (c, 0x2A, noWait)
  | .imgDelete c i => some (c, 0x2B, naming (objKey 5 i))
  | .imgList c _ => some (c, 0x2C, noWait)
  | .imgLoad c _ _ _ _ _ => some (c, 0x2D, noWait)
  | .bootSelect c _ => some (c, 0x2E, noWait)
  | .flashFormat c _ => some (c, 0x2F, noWait)
  | .casCreate c _ => some (c, 0x30, noWait)
  | .casArm c _ => some (c, 0x31, noWait)
  | .casDisarm c t => some (c, 0x32, naming (objKey 6 t.val))
  | .casDestroy c t => some (c, 0x33, naming (objKey 6 t.val))
  | .streamOpen c _ _ _ _ _ _ => some (c, 0x38, noWait)
  | .streamClose c n => some (c, 0x39, naming (objKey 7 n))
  | .streamInject c _ _ _ => some (c, 0x3A, noWait)
  | .lhMemWrite c _ _ => some (c, 0x3C, noWait)
  | .lhMemRead c _ _ => some (c, 0x3D, noWait)
  | .runNotify c _ _ => some (c, 0x40, noWait)
  | .attest c _ _ _ _ _ => some (c, 0x53, noWait)
  | .jobOpen c _ => some (c, 0x58, noWait)
  | .jobClose c _ => some (c, 0x59, noWait)
  | _ => none

/-- The command, opcode, conditions of waiting and first fault of a row that is a command of tenant 0's alone (R479, R553). -/
def managementOf : Instr → Option (CmdCtx × Nat × (RunCmd → Bool) × Nat)
  | .pwrSet c _ => some (c, 0x48, noWait, 0x0B00)
  | .perfSet c _ => some (c, 0x49, noWait, 0x0B00)
  | .standingOrder c _ => some (c, 0x4A, noWait, 0x0B00)
  | .tenantCreate c _ _ _ => some (c, 0x50, noWait, 0x0D00)
  | .tenantDestroy c t => some (c, 0x51, naming (objKey 8 t), 0x0D00)
  | .rulesUpdate c _ => some (c, 0x52, noWait, 0x0D00)
  | .ownerEnroll c _ => some (c, 0x54, noWait, 0x0D00)
  | .svnCommit c => some (c, 0x55, noWait, 0x0D00)
  | .rmaConsent c => some (c, 0x56, noWait, 0x0D00)
  | _ => none

end Sys2Proof.Machine
end

