-- ==== Sys2Proof/Certificates/Slice0/Obligations.lean ====
section
/-!
DEFINITION. The statements about the device: what its commands do, what they leave alone, and what every step keeps.
-/
open Sys2Proof Sys2Proof.Machine

/-! ## Instructions of the S unit -/

/-- R115, R147: the two-operand instructions of the S unit land their 64-bit result one cycle after the issue, MUL three cycles after. -/
def Obligations.ScalarArithmeticLands : Prop :=
  ∀ (s : State) (iss : Issue) (m : Mach) (c : Ctx) (d a : Fin 64) (o : Op2), Executes s iss 0 m c →
    let x := readS m c.bank a.val
    let y := readOp2 m c.bank o
    let lands := fun (lat : Nat) (v : BitVec 64) (i : Instr) => RunGets i s m c (LandsOnly c [(lat, .s c.bank d.val v)])
    lands 1 (BitVec.ofNat 64 (x.toNat + y.toNat)) (.add iss d a o) ∧
    lands 1 (BitVec.ofInt 64 (x.toInt - y.toInt)) (.sub iss d a o) ∧
    lands 3 (BitVec.ofNat 64 (x.toNat * y.toNat)) (.mul iss d a o) ∧
    lands 1 (x &&& y) (.and iss d a o) ∧
    lands 1 (x ||| y) (.or iss d a o) ∧
    lands 1 (x ^^^ y) (.xor iss d a o) ∧
    lands 1 (BitVec.ofNat 64 (x.toNat * 2 ^ (y.toNat % 64))) (.shl iss d a o) ∧
    lands 1 (BitVec.ofNat 64 (x.toNat / 2 ^ (y.toNat % 64))) (.shr iss d a o) ∧
    lands 1 (BitVec.ofInt 64 (x.toInt / 2 ^ (y.toNat % 64))) (.sar iss d a o) ∧
    lands 1 (BitVec.ofInt 64 (min x.toInt y.toInt)) (.min iss d a o) ∧
    lands 1 (BitVec.ofInt 64 (max x.toInt y.toInt)) (.max iss d a o) ∧
    lands 1 (BitVec.ofNat 64 (min x.toNat y.toNat)) (.minu iss d a o) ∧
    lands 1 (BitVec.ofNat 64 (max x.toNat y.toNat)) (.maxu iss d a o)

/-- R75, R115, R116: MOVI lands the sign-extended immediate, MOVHI the immediate above the low half of SRC1, RDSPEC a special register; the compares
and PLOGIC land their predicate; each one cycle after the issue. -/
def Obligations.MovesAndComparesLand : Prop :=
  (∀ (s : State) (iss : Issue) (m : Mach) (c : Ctx) (d a : Fin 64) (imm : BitVec 32), Executes s iss 0 m c →
     let lands := fun (v : BitVec 64) (i : Instr) => RunGets i s m c (LandsOnly c [(1, .s c.bank d.val v)])
     lands (BitVec.ofInt 64 imm.toInt) (.movi iss d imm) ∧
     lands (BitVec.ofNat 64 (imm.toNat * 2 ^ 32 + (readS m c.bank a.val).toNat % 2 ^ 32)) (.movhi iss d a imm) ∧
     lands (BitVec.ofNat 64 m.clk.tick) (.rdspec iss d 0) ∧
     lands (BitVec.ofNat 64 (if c.run.isTask then 255 else c.run.id)) (.rdspec iss d 1) ∧
     lands (BitVec.ofNat 64 c.run.tenant) (.rdspec iss d 2) ∧
     lands (BitVec.ofNat 64 (if c.run.isTask then 0 else c.run.choice)) (.rdspec iss d 3)) ∧
  (∀ (s : State) (iss : Issue) (m : Mach) (c : Ctx) (d : Fin 8) (a : Fin 64) (o : Op2) (e g : Fin 8) (table : Fin 16), Executes s iss 0 m c →
     let x := readS m c.bank a.val
     let y := readOp2 m c.bank o
     let lands := fun (b : Bool) (i : Instr) => RunGets i s m c (LandsOnly c [(1, .p c.bank d.val b)])
     lands (decide (x.toNat = y.toNat)) (.cmpeq iss d a o) ∧
     lands (decide (x.toNat ≠ y.toNat)) (.cmpne iss d a o) ∧
     lands (decide (x.toInt < y.toInt)) (.cmplt iss d a o) ∧
     lands (decide (x.toNat < y.toNat)) (.cmpltu iss d a o) ∧
     lands (decide (x.toInt ≤ y.toInt)) (.cmple iss d a o) ∧
     lands (decide (x.toNat ≤ y.toNat)) (.cmpleu iss d a o) ∧
     lands (table.val.testBit (2 * (if readP m c.bank e.val then 1 else 0) + (if readP m c.bank g.val then 1 else 0)))
       (.plogic iss d e g table))

/-- R94, R96, R98, R118: what NOP, LOOP, B, WAIT and END leave of their stream, each as the last word of its bundle, outside delay bundles. -/
def Obligations.ControlMovesTheStream : Prop :=
  ∀ (s : State) (iss : Issue) (m : Mach) (c : Ctx) (body : Nat) (o : Op2) (off : BitVec 32), Executes s iss 0 m c → iss.last = true →
    c.st.ctl = .none → c.st.delay = none → c.i < c.run.streams.length →
    let after := c.st.pc + c.st.done + 1
    let stop := bundleAfter c.st.code after body
    let n := readCount m c.bank o
    let moves := fun (st : Stream) (i : Instr) => RunGets i s m c (fun r => LandsOnly c [] r ∧ r.streams[c.i]? = some { st with done := 0 })
    moves { c.st with pc := (loopBack c.st.loops after).1, loops := (loopBack c.st.loops after).2, cyc := c.st.cyc + 1 } (.nop (.word iss)) ∧
    (n ≠ 0 → moves { c.st with pc := after, loops := ⟨after, stop, n - 1⟩ :: c.st.loops, cyc := c.st.cyc + 1 } (.loop iss body o)) ∧
    (n = 0 → moves { c.st with pc := (loopBack c.st.loops stop).1, loops := (loopBack c.st.loops stop).2, cyc := c.st.cyc + 1 }
      (.loop iss body o)) ∧
    moves { c.st with pc := after, delay := some (2, ((c.st.pc : Int) + off.toInt).toNat), cyc := c.st.cyc + 1 } (.b iss off) ∧
    moves { c.st with pc := (loopBack c.st.loops after).1, loops := (loopBack c.st.loops after).2, cyc := c.st.cyc + n + 1 } (.wait iss o) ∧
    moves { c.st with ended := true, cyc := c.st.cyc + 1 } (.endStream iss)

/-- R92, R93, R113: an instruction whose guard does not hold lands nothing, accesses nothing, occupies no unit and raises nothing: only its word is counted;
one issued to a unit within an earlier instruction's occupancy does as little, and SQ_UNIT_BUSY, code 0x0212, is raised for its run's tenant. -/
def Obligations.SquashedWordsOnlyCount : Prop :=
  (∀ (s : State) (i : Instr) (iss : Issue) (unit : Nat) (m : Mach) (c : Ctx), insOf i = some (iss, unit) →
     issueCtx { s.mach with out := [] } iss = some (m, c) → guardOk m c.bank iss = false →
     ∃ t, exec i s = .next t ∧ t.pending = s.pending ∧ t.fuses = s.fuses ∧
       SameParts (putRun m (wordDone c.run c.i c.st iss.last)) t.mach ∧
       (m.ef.raised = [] → m.hs.held = [] → t.mach = putRun m (wordDone c.run c.i c.st iss.last))) ∧
  (∀ (s : State) (i : Instr) (iss : Issue) (unit : Nat) (m : Mach) (c : Ctx), insOf i = some (iss, unit) →
     issueCtx { s.mach with out := [] } iss = some (m, c) → guardOk m c.bank iss = true → c.cyc < c.st.busy unit →
     ∃ t, exec i s = .next t ∧ t.pending = s.pending ∧ t.fuses = s.fuses ∧
       SameParts (putRun m (wordDone c.run c.i c.st iss.last)) t.mach ∧
       ∃ m' rec, rec.code = 0x0212 ∧ rec.tenant = c.run.tenant ∧ m'.ef.raised = m.ef.raised ++ [rec] ∧ t.mach = flushFaults (wakeHost m'))

/-- R121–R126: PILOT posts a notice at its lead; CONF publishes for the slot's stage, in a cascade slot; WAKE posts a software event or wakes a
stage that exists; BOND.OPEN does nothing in a slot that is not speculative and extends the bond of one that is; BOND.COMMIT and BOND.DROP act on
the open bond of a higher stage. -/
def Obligations.CascadeInstructionsAct : Prop :=
  ∀ (s : State) (iss : Issue) (m : Mach) (c : Ctx) (a tgt : Fin 64) (cls j : Fin 8) (down : Bool) (lead : Nat), Executes s iss 0 m c →
    RunGets (.pilot iss cls down lead) s m c (fun r => r.lands = c.run.lands ∧
      r.pilots = c.run.pilots ++ [{ cls := cls.val, down, at' := c.cyc + lead }]) ∧
    (c.run.cascade = true → c.run.spec = false →
      RunGets (.conf iss a) s (publish m c.run.tenant c.run.stage ((readS m c.bank a.val).toNat % 2 ^ 16) (quayTime m (c.run.start + c.cyc + 1)))
        c (LandsOnly c [])) ∧
    (c.run.spec = false → ∃ t r, exec (.wake iss true tgt) s = .next t ∧ t.mach.st = (putRun m r).st ∧ LandsOnly c [] r ∧ r.id = c.run.id ∧
      t.mach.latch = (postEvent m (0x8100 + tgt.val) c.run.tenant).latch) ∧
    (∀ q, cascOf m c.run.tenant = some q → q.armed = true → (q.stage (tgt.val % 8)).kind = 3 → c.run.spec = false →
      RunGets (.wake iss false tgt) s (actOnSlot m c.run.tenant (tgt.val % 8) 0 (quayTime m (c.run.start + c.cyc + 1)) none).1 c
        (LandsOnly c [])) ∧
    (c.run.spec = false → RunGets (.bondOpen iss a) s m c (LandsOnly c [])) ∧
    (∀ q b, c.run.spec = true → runBond m c.run = some (q, b) →
      let mask := (readS m c.bank a.val).toNat
      (∀ i, mask.testBit i = true → c.run.berths.testBit i = true ∧ c.run.inputs.testBit i = false ∧
        ∀ q' ∈ m.cas, ∀ b' ∈ q'.bonds, (q'.tenant ≠ q.tenant ∨ b' ≠ b) → b'.berths.testBit i = false) →
      popCount (q.bonded ||| mask) 64 ≤ q.max →
      RunGets (.bondOpen iss a) s (putCasc m (q.putBond { b with berths := b.berths ||| mask })) c (LandsOnly c [])) ∧
    (c.run.cascade = true → c.run.stage < j.val → c.run.spec = false → ∀ q b, cascOf m c.run.tenant = some q → q.bond j.val = some b →
      RunGets (.bondDrop iss j) s (dropBond m c.run.tenant j.val (c.run.start + c.cyc + 1) false none) c (LandsOnly c []) ∧
      RunGets (.bondCommit iss j) s (commitAt m c.run.tenant j.val (some
        (((m.st.runs.filter (fun r => r.tenant == c.run.tenant && r.spec && r.stage == j.val && !r.isTask)).map (·.endCycle)).foldl max
          (c.run.start + c.cyc + 1)))) c (LandsOnly c []))

/-! ## Instructions of the V unit -/

/-- R66, R135, R137, R171, R172: arithmetic on the elements of the stream's clusters; latency 4, or 8 for FP64 and 2 for integers; 12 or 32 for
VDIV and VSQRT. -/
def Obligations.VectorArithmeticLands : Prop :=
  ∀ (s : State) (iss : Issue) (m : Mach) (c : Ctx) (ty : VType) (d a b x : Fin 32), Executes s iss 2 m c →
    let A := fun cl i => elt m ty cl a.val i
    let B := fun cl i => elt m ty cl b.val i
    let X := fun cl i => elt m ty cl x.val i
    let lat := if ty = .i32 ∨ ty = .u32 then 2 else if ty = .f64 then 8 else 4
    let slow := if ty = .f64 then 32 else 12
    let lands := fun (lat : Nat) (f : Nat → Nat → Nat × Nat) (i : Instr) =>
      RunGets i s (vParityFx m c iss.par) c (LandsOnly c (vecLands c iss.par lat d.val (vbits ty) (vcount ty) f))
    lands lat (fun cl i => eAdd ty (A cl i) (B cl i)) (.vadd iss ty d a b) ∧
    lands lat (fun cl i => eSub ty (A cl i) (B cl i)) (.vsub iss ty d a b) ∧
    lands lat (fun cl i => eMul ty (A cl i) (B cl i)) (.vmul iss ty d a b) ∧
    lands lat (fun cl i => eFma ty (A cl i) (B cl i) (X cl i)) (.vfma iss ty d a b x) ∧
    lands lat (fun cl i => eMinMax false ty (A cl i) (B cl i)) (.vmin iss ty d a b) ∧
    lands lat (fun cl i => eMinMax true ty (A cl i) (B cl i)) (.vmax iss ty d a b) ∧
    lands lat (fun cl i => eAbs ty (A cl i)) (.vabs iss ty d a) ∧
    lands lat (fun cl i => eNeg ty (A cl i)) (.vneg iss ty d a) ∧
    lands lat (fun cl i => eCmp 0 ty (A cl i) (B cl i)) (.vcmpeq iss ty d a b) ∧
    lands lat (fun cl i => eCmp 1 ty (A cl i) (B cl i)) (.vcmplt iss ty d a b) ∧
    lands lat (fun cl i => eCmp 2 ty (A cl i) (B cl i)) (.vcmple iss ty d a b) ∧
    lands slow (fun cl i => eDiv ty (A cl i) (B cl i)) (.vdiv iss ty d a b) ∧
    lands slow (fun cl i => eFun .sqrt ty (A cl i)) (.vsqrt iss ty d a)

/-- R135–R137: the bitwise instructions, the shifts, VSEL, VMOV and VBCAST; latency 2, 1 for VMOV. -/
def Obligations.VectorBitsLand : Prop :=
  ∀ (s : State) (iss : Issue) (m : Mach) (c : Ctx) (ty : VType) (d a b x : Fin 32) (src : Fin 64), Executes s iss 2 m c →
    let A := fun cl i => elt m ty cl a.val i
    let B := fun cl i => elt m ty cl b.val i
    let lands := fun (lat : Nat) (f : Nat → Nat → Nat) (i : Instr) =>
      RunGets i s (vParityFx m c iss.par) c (LandsOnly c (vecLands c iss.par lat d.val (vbits ty) (vcount ty) (fun cl i => (f cl i, 0))))
    lands 2 (fun cl i => A cl i &&& B cl i) (.vand iss ty d a b) ∧
    lands 2 (fun cl i => A cl i ||| B cl i) (.vor iss ty d a b) ∧
    lands 2 (fun cl i => A cl i ^^^ B cl i) (.vxor iss ty d a b) ∧
    lands 2 (fun cl i => A cl i * 2 ^ (B cl i % 32) % 2 ^ 32) (.vshl iss ty d a b) ∧
    lands 2 (fun cl i => A cl i / 2 ^ (B cl i % 32)) (.vshr iss ty d a b) ∧
    lands 2 (fun cl i => (signedOf 32 (A cl i) / (2 ^ (B cl i % 32) : Int) % (2 ^ 32 : Int)).toNat) (.vsar iss ty d a b) ∧
    lands 2 (fun cl i => if elt m ty cl x.val i = 0 then B cl i else A cl i) (.vsel iss ty d a b x) ∧
    lands 1 A (.vmov iss ty d a) ∧
    lands 2 (fun _ _ => (readS m c.bank src.val).toNat % 2 ^ vbits ty) (.vbcast iss ty d src)

/-- R135–R137, R173, R174: conversions over the smaller element count, the functions, the reductions into element 0, and VEXT of the rank-0
cluster. -/
def Obligations.VectorFunctionsLand : Prop :=
  ∀ (s : State) (iss : Issue) (m : Mach) (c : Ctx) (ty ty2 : VType) (d a : Fin 32) (e lane : Fin 64), Executes s iss 2 m c →
    let A := fun cl i => elt m ty cl a.val i
    let wide := ty = .f64
    let lands := fun (lat w n : Nat) (f : Nat → Nat → Nat × Nat) (i : Instr) =>
      RunGets i s (vParityFx m c iss.par) c (LandsOnly c (vecLands c iss.par lat d.val w n f))
    let fn := fun (g : VFun) (i : Instr) => lands (if wide then 32 else 12) (vbits ty) (vcount ty) (fun cl i => eFun g ty (A cl i)) i
    let red := fun (op : VType → Nat → Nat → Nat × Nat) (i : Instr) => lands (if wide then 12 else 8) (vbits ty) (vcount ty)
      (fun cl i => if i = 0 then eReduce op ty ((List.range (vcount ty)).map (A cl)) else (0, 0)) i
    lands (if wide ∨ ty2 = .f64 then 8 else 4) (vbits ty2) (min (vcount ty) (vcount ty2)) (fun cl i => eCvt ty ty2 (A cl i)) (.vcvt iss ty ty2 d a) ∧
    fn .rcp (.vrcp iss ty d a) ∧ fn .rsqrt (.vrsqrt iss ty d a) ∧ fn .exp2 (.vexp2 iss ty d a) ∧ fn .log2 (.vlog2 iss ty d a) ∧
    fn .sin (.vsin iss ty d a) ∧ fn .cos (.vcos iss ty d a) ∧ fn .tanh (.vtanh iss ty d a) ∧
    red eAdd (.vredsum iss ty d a) ∧ red (eMinMax true) (.vredmax iss ty d a) ∧ red (eMinMax false) (.vredmin iss ty d a) ∧
    (∀ cl rest, c.st.clusters = cl :: rest → bit iss.par (cl + 4) = false →
      RunGets (.vext iss ty e a lane) s (vParityFx m c iss.par) c
        (LandsOnly c [(2, .s c.bank e.val (BitVec.ofNat 64 (if lane.val < vcount ty then A cl lane.val else 0)))]))

/-- R171, R172: what an element of an integer TYPE is worth: sums, differences, products and negations modulo 2³², the order by the TYPE's
sign. -/
def Obligations.ElementArithmetic : Prop :=
  (∀ a b c : Nat, a < 2 ^ 32 → b < 2 ^ 32 → c < 2 ^ 32 →
    eAdd .u32 a b = ((a + b) % 2 ^ 32, 0) ∧ eAdd .i32 a b = ((a + b) % 2 ^ 32, 0) ∧
    eSub .u32 a b = ((a + 2 ^ 32 - b) % 2 ^ 32, 0) ∧ eSub .i32 a b = ((a + 2 ^ 32 - b) % 2 ^ 32, 0) ∧
    eMul .u32 a b = ((a * b) % 2 ^ 32, 0) ∧ eMul .i32 a b = ((a * b) % 2 ^ 32, 0) ∧
    eFma .u32 a b c = ((a * b + c) % 2 ^ 32, 0) ∧ eFma .i32 a b c = ((a * b + c) % 2 ^ 32, 0) ∧
    eNeg .i32 a = ((2 ^ 32 - a) % 2 ^ 32, 0) ∧
    eMinMax false .u32 a b = (min a b, 0) ∧ eMinMax true .u32 a b = (max a b, 0) ∧
    signedOf 32 (eMinMax false .i32 a b).1 = min (signedOf 32 a) (signedOf 32 b) ∧
    signedOf 32 (eMinMax true .i32 a b).1 = max (signedOf 32 a) (signedOf 32 b))

/-- R138: VGATHER and VSCATTER through a valid descriptor hold the berth of each cluster for 16 cycles, and reach, in the cluster of rank r, the
address BASE + r × CLUSTER_STRIDE + 4 × idx of each element that is not suppressed. -/
def Obligations.GatherScatterHold : Prop :=
  ∀ (s : State) (iss : Issue) (m : Mach) (c : Ctx) (ty : VType) (d x v : Fin 32) (b : Fin 16), Executes s iss 2 m c →
    tdescValid (readD m c.bank b.val) = true →
    let t := tdesc (readD m c.bank b.val)
    let addrs := fun (w : Bool) (p : Nat × Nat) => vgAddrs m c t w p.2 ((List.range 64).map (elt m .u32 p.1 x.val))
    let cls := c.st.clusters.zipIdx
    let good := cls.filter (fun p => !bit iss.par (p.1 + 4))
    let P := fun (w : Bool) (accs : List BAcc) (r : SlotRun) =>
      r.lands = c.run.lands ∧ r.holds = c.run.holds ++ cls.map (fun p => vgHold m c t w p.2) ∧ r.accs = c.run.accs ++ accs
    ((∀ p ∈ cls, ∀ o ∈ addrs false p, o.isSome = true) →
      RunGets (.vgather iss ty d b x) s (vParityFx m c iss.par) c (P false (good.map (fun p =>
        { cyc := c.cyc + 16, ins := c.ins, rank := p.2, act := .gather (c.run.nextHold + p.2) p.1 d.val (addrs false p) })))) ∧
    ((∀ p ∈ cls, ∀ o ∈ addrs true p, o.isSome = true) →
      RunGets (.vscatter iss ty b x v) s (vParityFx m c iss.par) c (P true (good.map (fun p =>
        { cyc := c.cyc + 16, ins := c.ins, rank := p.2, act := .scatter (c.run.nextHold + p.2)
            (((addrs true p).zip ((List.range 64).map (elt m .u32 p.1 v.val))).filterMap (fun q => q.1.map (fun a => (a, q.2)))) }))))

/-! ## Instructions of the T and M units -/

/-- R128–R132, R200: a T instruction that is not squashed, without a parity error, holds the ports of the berths its descriptors address from the
cycle after its issue to its last cycle, c + O + 24, where its whole result lands; O is its occupancy of the T unit. -/
def Obligations.TensorInstructionsHold : Prop :=
  ∀ (s : State) (iss : Issue) (m : Mach) (c : Ctx) (flow : Fin 3) (acc pack : Bool) (mode : Fin 4) (d a b w : Fin 16),
    Executes s iss 1 m c → iss.par = 0 →
    let D := fun (r : Fin 16) => readD m c.bank r.val
    let T := fun r => tdesc (D r)
    let P := fun (ds : List TDesc) (occ : Nat) (r : SlotRun) =>
      r.lands = c.run.lands ∧ r.records = c.run.records ∧
      r.holds = c.run.holds ++ [⟨c.run.nextHold, c.ins, 0, c.cyc + 1, c.cyc + (occ + 24),
        reachable m c.run (ds.foldl (fun x t => x ||| t.berths 0) 0), false, false, []⟩] ∧
      (∃ cells fl, r.accs = c.run.accs ++ [⟨c.cyc + (occ + 24), c.ins, 0, .tensor c.run.nextHold cells fl⟩]) ∧
      ∀ st, r.streams[c.i]? = some st → st.busyT = c.cyc + occ
    (tdescValid (D a) = true → tdescValid (D b) = true → tdescValid (D d) = true →
      (T a).rank = 1 → (T b).rank = 1 → (T d).rank = 1 → (T b).sz 0 = (T a).sz 0 → (T d).sz 0 = (T b).sz 1 → (T d).sz 1 = (T a).sz 1 →
      (isMX (T a).fmt = true ∨ isMX (T b).fmt = true → (T a).sz 0 % 32 = 0) →
      (∃ k, fmtClass (T a).fmt = some k ∧ fmtClass (T b).fmt = some k ∧ (T d).fmt = if k = 0 then 12 else 13) →
      (T a).cmp = 0 → (T b).cmp = 0 → (T d).cmp = 0 →
      RunGets (.mma iss flow acc d a b) s m c (P [T a, T b, T d] (occMMA flow.val (gang c) ((T a).sz 1) ((T b).sz 1) ((T a).sz 0)))) ∧
    ((convIns 0 flow.val acc pack d.val a.val b.val w.val m c).1.squash = 0 →
      RunGets (.conv iss flow acc pack d a b w) s m c (P [T a, T b, T d] (occConv flow.val (gang c) pack (window (D w)) (T a) (T d)))) ∧
    ((poolIns 0 mode.val d.val a.val w.val m c).1.squash = 0 →
      RunGets (.pool iss mode d a w) s m c (P [T a, T d] (32 + ceilDiv ((T a).sz 2) (128 * max 1 (gang c)) *
        ((T d).sz 0 * (T d).sz 1 * (T d).sz 3) * ceilDiv ((window (D w)).kw * (window (D w)).kh) 16)))

/-- R139–R141: loads and stores access their bytes in the cycle after the issue: LD.S, ST.S and LD.D at the scalar address modulo 2²⁵, in a task
modulo 2³², LD.V and ST.V at the descriptor's address in each cluster. A misaligned LD.S, ST.S or LD.D accesses nothing. -/
def Obligations.LoadsAndStoresAccess : Prop :=
  ∀ (s : State) (iss : Issue) (m : Mach) (c : Ctx) (d a : Fin 64) (v : Fin 32) (x y : Fin 16) (imm : BitVec 32), Executes s iss 3 m c →
    let space := 2 ^ (if c.run.isTask then 32 else 25)
    let addr := ((readS m c.bank a.val).toInt + imm.toInt) % (2 ^ 64 : Int) % (space : Int)
    let t := tdesc (readD m c.bank y.val)
    let vaddr := fun (rank : Nat) => (t.base : Int) + (rank : Int) * t.cstride + imm.toInt
    let adds := fun (accs : List BAcc) (r : SlotRun) => r.lands = c.run.lands ∧ r.holds = c.run.holds ∧ r.accs = c.run.accs ++ accs
    (addr % 8 = 0 → RunGets (.ldS iss d a imm) s m c (adds [⟨c.cyc + 1, c.ins, 0, .load (.s c.bank d.val) addr 8 33554431⟩])) ∧
    (addr % 8 ≠ 0 → RunGets (.ldS iss d a imm) s m c (LandsOnly c [(3, .s c.bank d.val 0)])) ∧
    (addr % 8 = 0 → RunGets (.stS iss d a imm) s m c
      (adds [⟨c.cyc + 1, c.ins, 0, .store addr (leBytes 8 (readS m c.bank d.val).toNat) 33554431⟩])) ∧
    (addr % 8 ≠ 0 → RunGets (.stS iss d a imm) s m c (LandsOnly c [])) ∧
    (addr % 64 = 0 → RunGets (.ldD iss x a imm) s m c (adds [⟨c.cyc + 1, c.ins, 0, .load (.d c.bank x.val) addr 64 33554431⟩])) ∧
    (addr % 64 ≠ 0 → RunGets (.ldD iss x a imm) s m c (LandsOnly c [(3, .d c.bank x.val 0)])) ∧
    (tdescValid (readD m c.bank y.val) = true → (∀ p ∈ c.st.clusters.zipIdx, vaddr p.2 % 64 = 0) →
      RunGets (.ldV iss v y imm) s m c (adds (c.st.clusters.zipIdx.map (fun p =>
        ⟨c.cyc + 1, c.ins, p.2, .load (.v p.1 v.val) (vaddr p.2) 256 t.limit⟩))) ∧
      RunGets (.stV iss v y imm) s m c (adds (c.st.clusters.zipIdx.map (fun p =>
        ⟨c.cyc + 1, c.ins, p.2, .store (vaddr p.2) (leBytes 256 (readV m p.1 v.val).toNat) t.limit⟩))))

/-- R139, R142, R143, R210: DSET, DGET and DADD work on one 64-bit word, or on BASE modulo 2²⁵, of a descriptor register, and land one cycle after the issue; a
MOVB whose tensors are compressed alike moves rows of up to 256 bytes a cycle: beat i is read at c + 1 + i and written at c + 5 + i, at every second cycle where
source and destination share a berth; one that compresses or decompresses holds the berths of its compressed side. -/
def Obligations.DescriptorsAndMovb : Prop :=
  (∀ (s : State) (iss : Issue) (m : Mach) (c : Ctx) (x y : Fin 16) (a : Fin 64) (w : Fin 8) (o : Op2), Executes s iss 3 m c →
     let src := (readD m c.bank y.val).toNat
     (∃ v : BitVec 512, RunGets (.dset iss x a w) s m c (LandsOnly c [(1, .d c.bank x.val v)]) ∧
       bits v.toNat (64 * w.val) 64 = (readS m c.bank a.val).toNat ∧
       ∀ k < 8, k ≠ w.val → bits v.toNat (64 * k) 64 = bits (readD m c.bank x.val).toNat (64 * k) 64) ∧
     RunGets (.dget iss a y w) s m c (LandsOnly c [(1, .s c.bank a.val (BitVec.ofNat 64 (src / 2 ^ (64 * w.val))))]) ∧
     (∃ v : BitVec 512, RunGets (.dadd iss x y o) s m c (LandsOnly c [(1, .d c.bank x.val v)]) ∧
       v.toNat % 2 ^ 25 = (src + (readOp2 m c.bank o).toNat) % 2 ^ 25 ∧ v.toNat / 2 ^ 25 = src / 2 ^ 25)) ∧
  (∀ (s : State) (iss : Issue) (m : Mach) (c : Ctx) (x y : Fin 16), Executes s iss 3 m c →
     let S := tdesc (readD m c.bank y.val)
     let D := tdesc (readD m c.bank x.val)
     tdescValid (readD m c.bank y.val) = true → tdescValid (readD m c.bank x.val) = true →
     S.fmt = D.fmt → S.rank = D.rank → S.size = D.size → (isMX S.fmt = true → S.sz 0 % 32 = 0) →
     let shared := S.berths 0 &&& D.berths 0
     let beats := (moveRows S D).1.flatMap (fun r => (beatsOf (((moveRows S D).2.2 * (moveRows S D).2.1 + 7) / 8)).map (fun b =>
       (⟨r.1, r.2, (moveRows S D).2.1, (moveRows S D).2.2, b.1, b.2, S.limit, D.limit⟩ : Beat)))
     let k := if shared = 0 then 1 else 2
     (S.cmp = D.cmp → RunGets (.movb iss x y) s m c (fun r => r.lands = c.run.lands ∧ r.holds = c.run.holds ∧
       r.accs = c.run.accs ++ beats.zipIdx.map (fun p =>
         ⟨c.cyc + (1 + k * p.2), c.ins, 0, .beatR p.1 (c.cyc + (4 + k + k * p.2))⟩) ∧
       ∀ st, r.streams[c.i]? = some st → st.busyM = c.cyc + k * beats.length)) ∧
     (S.cmp ≠ D.cmp → (S.cmp = 0 ∨ D.cmp = 0) → shared = 0 → RunGets (.movb iss x y) s m c (fun r => r.lands = c.run.lands ∧
       ∃ h, r.holds = c.run.holds ++ [h] ∧ h.frm = c.cyc + 1 ∧ h.rows = true ∧
         h.berths = reachable m c.run ((if S.cmp = 0 then D else S).berths 0))))

/-- R144, R145: FSEND, FRECV and FREDUCE post their record where their descriptors are valid, the run holds fewer than sixteen, the node exists
and, for a receiver, a manifest is bound. -/
def Obligations.FabricRecordsPosted : Prop :=
  ∀ (s : State) (iss : Issue) (m : Mach) (c : Ctx) (x y : Fin 16) (node chan grp : Fin 64) (op : Fin 4), Executes s iss 3 m c →
    let X := readD m c.bank x.val
    let Y := readD m c.bank y.val
    let posts := fun (rec : FabRec) (r : SlotRun) => r.records = c.run.records ++ [rec] ∧ r.lands = c.run.lands ∧ r.accs = c.run.accs
    c.run.records.length < 16 →
    (tdescValid X = true → node.val < m.fldOf rCH_NODE 16 7 → RunGets (.fsend iss x node chan) s m c (posts ⟨0, node.val, chan.val, X, 0⟩)) ∧
    (tdescValid X = true → node.val < m.fldOf rCH_NODE 16 7 → c.run.manifest ≠ 0xFFFF →
      RunGets (.frecv iss x node chan) s m c (posts ⟨1, node.val, chan.val, 0, X⟩)) ∧
    (tdescValid X = true → tdescValid Y = true → c.run.manifest ≠ 0xFFFF →
      RunGets (.freduce iss x y op grp) s m c (posts ⟨2, op.val, grp.val, Y, X⟩))

/-- R81, R87, R90, R139: at the earliest pending cycle of a slot run, a landing that is alone there changes its register and no other, and no byte of
berth space; a store that is alone there and permitted writes its bytes and no other; a load that is alone there lands its bytes two cycles later. -/
def Obligations.ResultsLand : Prop :=
  ∀ (s : State) (n : Fin 255) (r : SlotRun) (k : Nat), findRun s.mach n.val = some r → nextCycle r = some k → k < r.length → r.holds = [] →
    let lands := r.lands.filter (·.cyc == k)
    let accs := r.accs.filter (·.cyc == k)
    let ends := fun (Q : State → Prop) => ∃ t, exec (.resultLand (.slot n)) s = .next t ∧ t.pending = s.pending ∧ t.fuses = s.fuses ∧ Q t
    let sameBerth := fun (t : State) => ∀ a, berthByte t.mach a = berthByte s.mach a
    (∀ ins b x v, lands = [⟨k, ins, .s b x v⟩] → accs = [] → ends (fun t => sameBerth t ∧ readS t.mach b x = v ∧
      (∀ b' x', 64 * b' + x' ≠ 64 * b + x → readS t.mach b' x' = readS s.mach b' x') ∧
      t.mach.st.p = s.mach.st.p ∧ t.mach.st.d = s.mach.st.d ∧ t.mach.st.v = s.mach.st.v)) ∧
    (∀ ins b x v, lands = [⟨k, ins, .p b x v⟩] → accs = [] → ends (fun t => sameBerth t ∧ readP t.mach b x = (v || x == 0) ∧
      (∀ b' x', 8 * b' + x' ≠ 8 * b + x → readP t.mach b' x' = readP s.mach b' x') ∧
      t.mach.st.s = s.mach.st.s ∧ t.mach.st.d = s.mach.st.d ∧ t.mach.st.v = s.mach.st.v)) ∧
    (∀ ins b x v, lands = [⟨k, ins, .d b x v⟩] → accs = [] → ends (fun t => sameBerth t ∧ readD t.mach b x = v ∧
      (∀ b' x', 16 * b' + x' ≠ 16 * b + x → readD t.mach b' x' = readD s.mach b' x') ∧
      t.mach.st.s = s.mach.st.s ∧ t.mach.st.p = s.mach.st.p ∧ t.mach.st.v = s.mach.st.v)) ∧
    (∀ ins b x v, lands = [⟨k, ins, .v b x v⟩] → accs = [] → ends (fun t => sameBerth t ∧ readV t.mach b x = v ∧
      (∀ b' x', 32 * b' + x' ≠ 32 * b + x → readV t.mach b' x' = readV s.mach b' x') ∧
      t.mach.st.s = s.mach.st.s ∧ t.mach.st.p = s.mach.st.p ∧ t.mach.st.d = s.mach.st.d)) ∧
    (∀ ins rk x bs lim, lands = [] → accs = [⟨k, ins, rk, .store x bs lim⟩] →
      (∀ j < bs.length, byteOk s.mach r lim true (x + (j : Int)) = true) →
      ends (fun t => (∀ j < bs.length, berthByte t.mach (x + (j : Int)).toNat = bs.getD j 0) ∧
        (∀ a : Nat, ((a : Int) < x ∨ x + (bs.length : Int) ≤ (a : Int)) → berthByte t.mach a = berthByte s.mach a) ∧
        t.mach.st.s = s.mach.st.s ∧ t.mach.st.p = s.mach.st.p ∧ t.mach.st.d = s.mach.st.d ∧ t.mach.st.v = s.mach.st.v)) ∧
    (∀ ins rk dest x len lim, lands = [] → accs = [⟨k, ins, rk, .load dest x len lim⟩] →
      (∀ j < len, byteOk s.mach r lim false (x + (j : Int)) = true) →
      ends (fun t => sameBerth t ∧ ∃ r', findRun t.mach n.val = some r' ∧
        r'.lands = r.lands.filter (·.cyc != k) ++
          [⟨k + 2, ins, loadLand dest ((List.range len).map (fun (j : Nat) => berthByte s.mach (x + (j : Int)).toNat))⟩]))

/-! ## Registers -/

/-- R13, R259, R366, R377, R387, R408, R412, R425, R446, R463, R522, R525, R622, R643, R664, R668, R704: a read of a count returns it and leaves it zero, and its
fault may be raised again; other reads capture a wide value, remove an event, or clear more than the word that they return; nothing else changes. -/
def Obligations.ReadsThatAct : Prop :=
  (∀ (s : State) (p : Path) (c : Fin 8) (r : Fin 2) (n : Fin 48) (e : Fin 16) (k : Fin 4) (t : Fin 64),
     let m := s.taken
     let clears := fun (i : Instr) (a : Nat) (f : Mach → Mach) =>
       ReadOk m p a → Leaves i s ((f (m.setRegN a 0)).emit (.readData (leBytes 4 (m.regN a))))
     clears (.dmCeCount p) rDM_CE_COUNT id ∧
     clears (.lhCapMissed p c) (rLH_CAP_MISSED c.val) (fun x => { x with lh := { x.lh with mirRaised := clearBit x.lh.mirRaised c.val } }) ∧
     clears (.auPbUnderrun p c) (rAU_PB_UNDERRUN c.val) (fun x => { x with lh := { x.lh with undRaised := clearBit x.lh.undRaised c.val } }) ∧
     clears (.cmRxErr p r) (rCM_RX_ERR r.val) id ∧
     clears (.snStreamOvr p n) (rSN_STREAM_OVR n.val) (fun x => setSctx x n.val { sctx x n.val with ovrRaised := false }) ∧
     clears (.snStreamMissed p n) (rSN_STREAM_MISSED n.val) (fun x => setSctx x n.val { sctx x n.val with missRaised := false }) ∧
     clears (.fuOutMissed p) rFU_OUT_MISSED (fun x => { x with fu := { x.fu with missRaised := false } }) ∧
     clears (.fuSnsLate p e) (rFU_SNS_LATE e.val) id ∧
     clears (.chDiscard p) rCH_DISCARD (fun x => { x with ch := { x.ch with causes := 0 } }) ∧
     clears (.chPortErr p k) (rCH_PORT_ERR k.val) id ∧
     clears (.efLost p t) (rEF_LOST t.val) id ∧
     clears (.efDevLost p) rEF_DEV_LOST id ∧
     (ReadOk m p rHS_ACCESS_ERR → Leaves (.hsAccessErr p) s
       ((m.setFldOf rHS_ACCESS_ERR 0 16 0).emit (.readData (leBytes 4 (m.regN rHS_ACCESS_ERR)))))) ∧
  (∀ (s : State) (p : Path) (r : Fin 7) (t : Fin 64) (a : Nat),
     let m := s.taken
     let reads := fun (i : Instr) (a : Nat) (x : Mach) (v : Nat) => ReadOk m p a → Leaves i s (x.emit (.readData (leBytes 4 v)))
     let holds := fun (x : Mach) (b v : Nat) => { x with shadow := tabSet x.shadow (pathKey p * wideSpan + b) (BitVec.ofNat 32 v) 0 }
     let d := rPD_DROOP_MIN r.val
     reads (.hsQCount p t) (rHS_Q_COUNT t.val)
       (setQueue (m.setFldOf (rHS_Q_COUNT t.val) 16 16 0) t.val { queueOf m t.val with noticeRaised := false })
       ((m.fldOf (rHS_Q_COUNT t.val) 16 16 * 65536 + outstanding m t.val) % 2 ^ 32) ∧
     reads (.pdStretchCount p) rPD_STRETCH_COUNT (m.setFlagOf rPD_STATUS 7 false) (m.regN rPD_STRETCH_COUNT) ∧
     reads (.pdDroopMin p r) d
       ((((holds (holds (holds m (d + 4) (m.regN (d + 4))) (d + 8) (m.regN (d + 8))) (d + 12) (m.regN (d + 12))).setRegN d 0xFFF).setRegN
         (d + 4) 0).setRegN (d + 8) 0 |>.setRegN (d + 12) 0) (m.regN d) ∧
     reads (.lhEvtPopLo p) rLH_EVT_POP_LO { holds m (rLH_EVT_POP_LO + 4) (wordOf (m.latch.headD 0) 1) with latch := m.latch.drop 1 }
       (wordOf (m.latch.headD 0) 0) ∧
     reads (.wideValueCaptureRead p rTK_TICK_LO 4) rTK_TICK_LO (holds m rTK_TICK_HI (wordOf m.clk.tick 1)) (wordOf m.clk.tick 0) ∧
     reads (.wideValueCaptureRead p rSN_TIME_LO 4) rSN_TIME_LO (holds m rSN_TIME_HI (wordOf m.clk.now 1)) (wordOf m.clk.now 0) ∧
     reads (.wideValueCaptureRead p rLH_RTC_LO 4) rLH_RTC_LO (holds m rLH_RTC_HI (wordOf m.lh.rtc.count 1)) (wordOf m.lh.rtc.count 0) ∧
     (a ∈ [rTK_TICK_HI, rSN_TIME_HI, rLH_RTC_HI] →
       reads (.wideValueCaptureRead p a 4) a m (tabGet m.shadow (pathKey p * wideSpan + a) 0).toNat))

/-- R10, R11, R551, R552, R664: an access whose path has no context does nothing; one of a register whose domain is off is counted with cause 1;
a read that no permission covers returns zero without an effect, such a write is counted with cause 2, and a locked register keeps its value. -/
def Obligations.AccessesDenied : Prop :=
  ∀ (s : State) (i : Instr) (p : Path) (a : Nat) (v : Word),
    let m := s.taken
    (readOf i = some (p, a) →
      (pathCtx m p = none → Leaves i s m) ∧
      ∀ ctx r n j, pathCtx m p = some ctx → regFind a = some (r, n, j) →
        (regOn m r = false → Leaves i s ((accessError m 1).emit (.readData (leBytes 4 0)))) ∧
        (regOn m r = true → permits m r.rd r n a ctx = false → Leaves i s (m.emit (.readData (leBytes 4 0))))) ∧
    (writeOf i = some (p, a, v) →
      (pathCtx m p = none → Leaves i s m) ∧
      ∀ ctx r n j, pathCtx m p = some ctx → regFind a = some (r, n, j) →
        (regOn m r = false → Leaves i s (accessError m 1)) ∧
        (regOn m r = true → mayWrite m r n a ctx = false → Leaves i s (accessError m 2)) ∧
        (regOn m r = true → mayWrite m r n a ctx = true → (locked m r a = true ∨ frozen m r n a = true) → Leaves i s m))

/-- R10–R13: a write of a register that has no row of its own sets its writable bits; a write to a read-only register changes nothing, one to a
write-1-to-clear register clears the bits that are 1; the upper word of a wide value is held; a write of another shape is counted with cause 3. -/
def Obligations.WritesFollowAccessCodes : Prop :=
  ∀ (s : State) (p : Path) (a ctx : Nat) (bs : List Byte), pathCtx s.mach p = some ctx →
    let m := s.taken
    let v : Word := BitVec.ofNat 32 (leNat bs)
    let k := fun (r : RegRow) => BitVec.ofNat 32 r.mask
    let word := bs.length = 4 ∧ a % 4 = 0 ∧ a + 4 ≤ bar0
    (¬(bs.length = 4 ∧ a % 4 = 0 ∨ bs.length = 8 ∧ a % 8 = 0) ∨ bar0 < a + bs.length → Leaves (.registerWrite p a bs) s (accessError m 3)) ∧
    (word → a ∈ [rTK_PERIOD_NEXT, rTK_SEAM_LEN, rHM_HOST_CTX, rPM_XTAL, rLH_WAKE_EN, rFU_GRID_PERIOD, rHS_IRQ_MASK 0] → WriteOk m p a ctx →
      ∀ r i j, regFind a = some (r, i, j) →
        Leaves (.registerWrite p a bs) s (m.setReg a ((m.reg a &&& ~~~(k r)) ||| (v &&& k r)))) ∧
    (word → windowOf a = .none → ∀ r i j, regFind a = some (r, i, j) → regOn m r = true →
      (r.acc = .ro → Leaves (.registerWrite p a bs) s m) ∧
      (r.acc = .w1c → a ≠ rLH_MIC_MUTE → r.wn ≤ 1 → mayWrite m r i a ctx = true → frozen m r i a = false →
        Leaves (.registerWrite p a bs) s (m.setReg a (m.reg a &&& ~~~(v &&& k r)))) ∧
      (r.acc = .rw → a ≠ rLH_MIC_MUTE → r.wk ≠ 0 → 1 < r.wn → mayWrite m r i a ctx = true → frozen m r i a = false →
        Leaves (.registerWrite p a bs) s { m with held := tabPut m.held (pathKey p * wideSpan + a) (v &&& k r) }))

/-- R12, R27, R177, R252: TK_COMMIT submits the shadow table for validation, QY_SELFTEST starts a test of resources that no table names, and
CR_RES sets a reservation that its pool holds. -/
def Obligations.SubmittingWrites : Prop :=
  ∀ (s : State) (p : Path) (v : Word) (ctx : Nat) (t : Fin 64) (x : Fin 5),
    let m := s.taken
    let sub : Submission := { table := m.tk.shadow, period := m.fldOf rTK_PERIOD_NEXT 0 26, seam := m.fldOf rTK_SEAM_LEN 0 16, bound := [],
                              resume := m.tk.halted ||| m.tk.haltNext }
    let w := v &&& 0x1FF0F#32
    let mask := fld w 0 4 + 256 * fld w 8 8
    let stored := (m.setFldOf rQY_SELFTEST 0 4 (fld w 0 4)).setFldOf rQY_SELFTEST 8 8 (fld w 8 8)
    let busy := m.flagOf rQY_SELFTEST 17 || anyNaming m (fun e => (e.quad &&& fld w 0 4) != 0 || (e.vec &&& fld w 8 8) != 0)
    let r := (v &&& 0xFFFF#32).toNat
    let others := resSum m x.val - m.fldOf (rCR_RES t.val x.val) 0 16
    let taken := m.setFldOf (rCR_RES t.val x.val) 0 16 r
    (WriteOk m p rTK_COMMIT ctx →
      (flag v 0 = true → m.tk.validating = none → Leaves (.tkCommit p v) s
        ((({ m with tk := { m.tk with validating := some sub } } : Mach).setFlagOf rTK_STATUS 1 false).setFlagOf rTK_STATUS 0 true)) ∧
      (flag v 0 = false ∨ m.tk.validating.isSome = true → Leaves (.tkCommit p v) s m)) ∧
    (WriteOk m p rQY_SELFTEST ctx →
      (flag w 16 = false ∨ mask = 0 → Leaves (.qySelftest p v) s stored) ∧
      (flag w 16 = true → mask ≠ 0 → busy = true → Leaves (.qySelftest p v) s (raiseT m 0x0304 0 0)) ∧
      (flag w 16 = true → mask ≠ 0 → busy = false → Leaves (.qySelftest p v) s
        { stored.setFlagOf rQY_SELFTEST 17 true with
          tk := { m.tk with testNamed := mask, testLeft := some 65536, testFail := none, testAt := if m.clk.inSeam then 2 ^ 64 else quayNow m } })) ∧
    (WriteOk m p (rCR_RES t.val x.val) ctx →
      (m.fldOf (rCR_RES_POOL x.val) 0 16 < others + r → Leaves (.crRes p t x v) s (raiseT m 0x0506 ctx 0)) ∧
      (others + r ≤ m.fldOf (rCR_RES_POOL x.val) 0 16 →
        Leaves (.crRes p t x v) s (taken.setFldOf (rCR_RES_SUM x.val) 0 16 (resSum taken x.val))))

/-- R13, R353, R385, R389, R552, R703: a new owner of a partition waits for its clearing; HM_LOCK_SET sets locks and clears none; a TAIL within
its ring is stored; the RTC and LH_RH_TENANTS take their upper word as it is held for the path. -/
def Obligations.KeepingWrites : Prop :=
  ∀ (s : State) (p : Path) (v : Word) (u : BitVec 64) (ctx : Nat) (n : Fin 64),
    let m := s.taken
    let o := (v &&& 0x3F#32).toNat
    let r := (v &&& 0xFFFF#32).toNat
    let k := fun (a : Nat) => pathKey p * wideSpan + a
    let hi := ((tabFind m.held (k rLH_RTC_HI)).map (·.toNat)).getD (wordOf m.lh.rtc.count 1)
    (WriteOk m p (rLH_PART_OWNER n.val) ctx →
      (n.val < 8 ∨ m.fldOf (rLH_PART_OWNER n.val) 0 6 = o → Leaves (.lhPartOwner p n v) s m) ∧
      (8 ≤ n.val → m.fldOf (rLH_PART_OWNER n.val) 0 6 ≠ o → Leaves (.lhPartOwner p n v) s
        (let x := (endCmdsOn m (objKey 9 n.val)).setFldOf (rLH_PART_OWNER n.val) 0 6 o
         { x with lh := { x.lh with clearing := x.lh.clearing ||| 2 ^ n.val } }))) ∧
    (WriteOk m p rHM_LOCK_SET ctx → Leaves (.hmLockSet p v) s (m.setReg rHM_LOCK_STATE (m.reg rHM_LOCK_STATE ||| (v &&& 0xFFFFF#32)))) ∧
    (WriteOk m p (rEF_TAIL n.val) ctx → Leaves (.efTail p (some n) v) s
      (if (m.fldOf (rEF_HEAD n.val) 0 16 + 65536 - r) % 65536 ≤ 64 then m.setRegN (rEF_TAIL n.val) r else m)) ∧
    (WriteOk m p rEF_DEV_TAIL ctx → Leaves (.efTail p none v) s
      (if (m.fldOf rEF_DEV_HEAD 0 16 + 65536 - r) % 65536 ≤ 1024 then m.setRegN rEF_DEV_TAIL r else m)) ∧
    (WriteOk m p rLH_RTC_LO ctx → Leaves (.lhRtcLo p v) s
      { m with held := tabDel (tabDel m.held (k rLH_RTC_LO)) (k rLH_RTC_HI),
               lh := { m.lh with rtc := { m.lh.rtc with count := (v.toNat + 2 ^ 32 * hi) % 2 ^ 64, frac := 0 } } }) ∧
    (WriteOk m p rLH_RH_TENANTS_LO ctx → Leaves (.lhRhTenants p u) s
      (let h := tabPut m.held (k rLH_RH_TENANTS_HI) (u.extractLsb' 32 32)
       let x := ({ m with held := tabDel (tabDel h (k rLH_RH_TENANTS_LO)) (k rLH_RH_TENANTS_HI) } : Mach).setReg64 rLH_RH_TENANTS_LO u.toNat
       (List.range 64).foldl rhSwitch (x.setFlagOf rLH_STATUS 3 (rhWanted x != x.hs.resident))))

/-- R364, R365, R367, R369, R371, R373, R374, R379, R380, R381, R383, R406: writes to the voice-activity detector, the mute, audio routing, touch and haptics;
enabling a capture channel takes the lowest free stream context, and one that its divisor does not give is not enabled. -/
def Obligations.AudioWrites : Prop :=
  (∀ (s : State) (p : Path) (v : Word) (ctx : Nat) (h : Fin 2),
     let m := s.taken
     let on := m.flagOf rLH_VAD_CFG 0
     let mics := popCount (fld v 16 8) 8
     let hop := fld v 8 8
     let cfg := (if 4 ≤ hop ∧ hop ≤ 32 then m.setFldOf rLH_VAD_CFG 8 8 hop else m).setFldOf rLH_VAD_CFG 16 8 (fld v 16 8)
     let x := hap m h.val
     let pol := m.fldOf rLH_TOUCH_CFG 12 2
     let per := m.fldOf rLH_TOUCH_CFG 16 10
     let meas := m.fldOf rLH_TOUCH_CFG 0 11
     let kept := (if 64 ≤ meas ∧ meas ≤ 1024 then m.setFldOf rLH_TOUCH_CFG 0 11 meas else m).setFldOf rLH_TOUCH_CFG 12 2 pol
     let cfgT := if per ≤ 1000 then kept.setFldOf rLH_TOUCH_CFG 16 10 per else kept
     let lost := cfgT.setRegN rLH_TOUCH_OVR (m.regN rLH_TOUCH_OVR + 1)
     (WriteOk m p rLH_VAD_CFG ctx →
       (flag v 0 = true → 1 ≤ mics → mics ≤ 4 → on = false → Leaves (.lhVadCfg p v) s
         (let y := cfg.setFlagOf rLH_VAD_CFG 0 true
          { y with lh := { y.lh with vad := { y.lh.vad with hop := false, frames := 0, xs := [], prev := 0, first := true, pend := none } } })) ∧
       (flag v 0 = true → ¬(1 ≤ mics ∧ mics ≤ 4) → on = false → Leaves (.lhVadCfg p v) s
         ((cfg.setFlagOf rLH_STATUS 2 true).setFlagOf rLH_VAD_CFG 0 false))) ∧
     (pathCtx m p = some ctx →
       (muteWriter m ctx = false → Leaves (.lhMicMute p v) s
         (raiseT (accessError (m.setRegN rLH_MUTE_DENIED (m.regN rLH_MUTE_DENIED + 1)) 2) 0x080A 0 ctx)) ∧
       (muteWriter m ctx = true → ctx ≠ 0 → flag v 0 = true → m.flagOf rLH_MIC_MUTE 0 = false → Leaves (.lhMicMute p v) s
         (let y := m.setFlagOf rLH_MIC_MUTE 0 true
          logMute (({ y with lh := { m.lh with muteAt := some (m.lh.muteAt.getD m.clk.now), mutedPart := true, restart := false, settle := 0 } } : Mach).emit
            (.pin "PDM_CLK" 0)) ctx true))) ∧
     (WriteOk m p rAU_COMMIT ctx → flag v 0 = true → Leaves (.auCommit p v) s
       (let y := if m.lh.commit.isSome then m.setRegN rAU_COMMIT_LOST (m.regN rAU_COMMIT_LOST + 1) else m
        ({ y with lh := { m.lh with commit := some (flag v 1) } } : Mach).setFlagOf rAU_STATUS 0 true)) ∧
     (WriteOk m p rLH_TOUCH_CFG ctx →
       (m.lh.touch.running = false → Leaves (.scan p) s (startScan cfgT)) ∧
       (m.lh.touch.running = true → pol = 0 → m.lh.touch.queued = false →
         Leaves (.scan p) s { cfgT with lh := { m.lh with touch := { m.lh.touch with queued := true } } }) ∧
       (m.lh.touch.running = true → pol = 2 → Leaves (.scan p) s { lost with lh := { m.lh with touch := { m.lh.touch with abort := true } } }) ∧
       (m.lh.touch.running = true → pol = 1 ∨ pol = 3 → Leaves (.scan p) s lost)) ∧
     (WriteOk m p (rLH_HAP_CTRL h.val) ctx →
       (64 ≤ m.fldOf (rLH_HAP_CFG h.val) 0 16 → Leaves (.hapticGo p h) s (setHap m h.val { x with go := true, stop := false })) ∧
       Leaves (.hapticStop p h) s (setHap m h.val { x with stop := true, go := false }))) ∧
  (∀ (s : State) (p : Path) (v : Word) (ctx n : Nat) (c : Fin 8), WriteOk s.taken p (rLH_CAP_CFG c.val) ctx →
     let m := s.taken
     let w := v &&& 0x3F7F#32
     let on := m.flagOf (rLH_CAP_CFG c.val) 0
     let set := fun (b : Bool) => m.setReg (rLH_CAP_CFG c.val) (setFlag w 0 b)
     let ok := capOk (m.fldOf rLH_PDM_CFG 0 2) (fld w 1 2) (fld w 3 3)
     let ring := m.reg (rLH_CAP_RING c.val)
     (flag w 0 = true → ok = true → on = false → freeCtx m = some n → Leaves (.lhCapCfg p c v) s
       (takeCtx ((set false).setFlagOf (rLH_CAP_CFG c.val) 0 true) n 1 (fld w 8 6) 0 1 c.val (fld ring 7 13 * 128) (fld ring 20 10))) ∧
     (flag w 0 = true → ok = true → on = false → freeCtx m = none → Leaves (.lhCapCfg p c v) s (raiseT (set false) 0x0805 0 c.val)) ∧
     (flag w 0 = true → ok = false → Leaves (.lhCapCfg p c v) s ((capOff (set on) c.val).setFlagOf rLH_STATUS 2 true)) ∧
     (flag w 0 = false → Leaves (.lhCapCfg p c v) s (if on then capOff (set on) c.val else set on)))

/-- R409, R414, R417, R419, R421, R422, R430: writes that bind a stream, commit a frame buffer, enable an I3C controller, and arm, disarm or
trigger a capture sequence. -/
def Obligations.SensorWrites : Prop :=
  ∀ (s : State) (p : Path) (v : Word) (ctx : Nat) (n : Fin 48) (c : Fin 8) (k : Fin 2) (q : Fin 16) (found : List (Fin 11)) (a : Alloc),
    let m := s.taken
    let src := m.fldOf (rSN_BIND_NEXT n.val) 0 8
    let kind := strKind m n.val
    let owner := ((vcStream m c.val).map (strOwner m)).getD 0
    let off := m.regN (rCM_FRAME_BASE c.val)
    let need := off + m.fldOf (rCM_LINE_PITCH c.val) 16 13 * m.fldOf (rCM_LINE_PITCH c.val) 0 15
    let vc := vctx m c.val
    (WriteOk m p (rSN_BIND_COMMIT n.val) ctx → flag v 0 = true → kind ≠ 0 → sourceOk kind src = true →
      (streamGranted m ctx kind src = false → Leaves (.snBindCommit p n v) s (raiseT m 0x0D01 ctx n.val)) ∧
      (streamGranted m ctx kind src = true → kind < 5 → Leaves (.snBindCommit p n v) s (setSctx m n.val { sctx m n.val with bind := some src }))) ∧
    (WriteOk m p (rCM_COMMIT c.val) ctx → flag v 0 = true →
      ((vcStream m c.val).isSome = true → ownAlloc m owner (m.regN (rCM_FRAME_ALLOC c.val)) = some a → a.flags = 1 → off % 64 = 0 → need ≤ a.size →
        Leaves (.cmCommit p c v) s
          (let x := if vc.pend.isSome then m.setRegN (rCM_COMMIT_LOST c.val) (m.regN (rCM_COMMIT_LOST c.val) + 1) else m
           ((setVctx x c.val { vc with pend := some (m.regN (rCM_FRAME_ALLOC c.val), a.gen, off), pendAt := m.clk.now }).setFlagOf
             (rCM_VC_STATE c.val) 2 false).setFlagOf (rCM_VC_STATE c.val) 0 true)) ∧
      (ownAlloc m owner (m.regN (rCM_FRAME_ALLOC c.val)) = none →
        Leaves (.cmCommit p c v) s (raiseT (m.setFlagOf (rCM_VC_STATE c.val) 2 true) 0x0901 owner c.val))) ∧
    (WriteOk m p (rSN_I3C_CFG k.val) ctx → m.flagOf (rSN_I3C_CFG k.val) 0 = false → (flag v 0 = false ∨ flag v 1 = true) →
      Leaves (.snI3cCfg p k found v) s (m.setReg (rSN_I3C_CFG k.val) (v &&& 0xFF03#32))) ∧
    (WriteOk m p (rSN_I3C_CFG k.val) ctx → m.flagOf (rSN_I3C_CFG k.val) 0 = false → flag v 0 = true → flag v 1 = false →
      Leaves (.snI3cCfg p k [] v) s
        ((List.range 11).foldl (fun x i => x.setFldOf (rSN_I3C_DEV k.val i) 8 7 0) (m.setReg (rSN_I3C_CFG k.val) (v &&& 0xFF03#32)))) ∧
    (WriteOk m p (rSN_SEQ_CTRL q.val) ctx →
      (seqArmed m q.val = false → Leaves (.arm p q) s
        (if sequenceOk m q.val then m.setFlagOf (rSN_SEQ_CFG q.val) 16 true else raiseT m 0x090B (seqOwner m q.val) q.val)) ∧
      Leaves (.disarm p q) s (setSeqSt (m.setFlagOf (rSN_SEQ_CFG q.val) 16 false) q.val { seqSt m q.val with waiting := none }) ∧
      (seqTrigger m q.val = 2 → seqArmed m q.val = true → (seqSt m q.val).running = false → (seqSt m q.val).waiting = none →
        (seqSt m q.val).lastTrig ≠ some m.clk.now → ∃ x, Leaves (.trig p q) s x ∧
          x.sn.seqs = tabSet (tabSet m.sn.seqs q.val { seqSt m q.val with lastTrig := some m.clk.now } SeqSt.init) q.val
            { seqSt m q.val with lastTrig := some m.clk.now, waiting := some 0 } SeqSt.init))

/-- R451, R457, R464, R465: FU_CTRL starts the engine uninitialised with its sensors OK, or refuses a bad configuration, or stops it;
FU_SNS_CTRL masks an entry and opens its readmission. -/
def Obligations.FusionWrites : Prop :=
  ∀ (s : State) (p : Path) (v : Word) (ctx : Nat) (n : Fin 16),
    let m := s.taken
    let on := m.flagOf rFU_CTRL 0
    let set := m.setFlagOf (rFU_SNS_CTRL n.val) 0 (flag v 0)
    (WriteOk m p rFU_CTRL ctx →
      (on = false → flag v 0 = true → fusionOk m = false → Leaves (.fuCtrl p v) s (raiseT m 0x0A03 (fuOwner m) 0)) ∧
      (on = false → flag v 0 = true → fusionOk m = true → ∃ x, Leaves (.fuCtrl p v) s x ∧ x.flagOf rFU_CTRL 0 = true ∧ fuStep x = 4 ∧
        initDone x = false ∧ x.fu.q = [dInt 1, 0, 0, 0] ∧ x.fu.v = [0, 0, 0] ∧ x.fu.p = [0, 0, 0] ∧ x.fu.count = 0 ∧ x.fu.ents.length = 16 ∧
        ∀ k < 16, (fuEnt x k).st = if forced m k then 2 else 0) ∧
      (on = true → flag v 0 = false → Leaves (.fuCtrl p v) s
        (showStates (((m.setFlagOf rFU_CTRL 0 false).setFldOf rFU_STATUS 0 3 4).setFldOf rFU_STATUS 3 4 0))) ∧
      (on = flag v 0 → Leaves (.fuCtrl p v) s m)) ∧
    (WriteOk m p (rFU_SNS_CTRL n.val) ctx →
      (on = false ∨ fuOn m n.val = false ∨ forced m n.val = flag v 0 → Leaves (.fuSnsCtrl p n v) s set) ∧
      (on = true → fuOn m n.val = true → forced m n.val = false → flag v 0 = true → Leaves (.fuSnsCtrl p n v) s (maskEnt set n.val 3 none)) ∧
      (on = true → fuOn m n.val = true → forced m n.val = true → flag v 0 = false → Leaves (.fuSnsCtrl p n v) s
        (setFuEnt set n.val { fuEnt m n.val with open' := true, openAt := none, passes := 0, prev := none })))

/-- R560, R585, R587, R588, R589, R613: a challenge of fresh values, unlock attempts that verify, fail or come after the block, the return to
the locked level, and the wake pattern of a port. -/
def Obligations.DebugAndWakeWrites : Prop :=
  ∀ (s : State) (p : Path) (ctx : Nat) (lv : Fin 4) (k : Fin 4),
    let m := s.taken
    let used : Mach := { m with hm := { m.hm with challenge := false } }
    let tries := satAdd 4 (m.fldOf rDB_STATE 4 4) 1
    (WriteOk m p rDB_CTRL ctx →
      (m.flagOf rHM_STATUS 2 = true → Leaves (.newChallenge p) s m) ∧
      (m.flagOf rHM_STATUS 2 = false → ∃ x, Leaves (.newChallenge p) s x ∧ x.fresh = m.fresh + 1 ∧ x.hm = { m.hm with challenge := true } ∧
        ∀ i < 12, x.regN (rDB_CHALLENGE_0 + 4 * i) = bits (Config.freeValue m.fresh) (32 * i) 32) ∧
      (m.flagOf rDB_STATE 8 = true → Leaves (.unlock p lv) s (raiseT m 0x0D0D 0 0)) ∧
      (m.flagOf rDB_STATE 8 = false → Leaves (.unlock p lv) s
        (if unlockOk s.fuses m lv.val = false then
           let x := used.setFldOf rDB_STATE 4 4 tries
           raiseT (if tries = 8 then x.setFlagOf rDB_STATE 8 true else x) 0x0D0C 0 0
         else if lv = 1 then (used.setFldOf rDB_STATE 0 2 1).setFldOf rDB_STATE 2 2 (max 1 (m.fldOf rDB_STATE 2 2))
         else settleUnlock (vendorWipe (used.setFlagOf rHM_STATUS 3 false)))) ∧
      (∀ l, unlockOk s.fuses m l = true → l = 1 ∨ l = 2) ∧
      Leaves (.relock p) s { m.setFldOf rDB_STATE 0 2 0 with hm := { m.hm with unlocking := false } }) ∧
    (WriteOk m p (rCH_PORT_CTRL k.val) ctx →
      Leaves (.sendWake p k) s
        (let x := m.emit (.pin "CH_WAKE_PATTERN" k.val)
         if portState m k.val = 1 then setPort x k.val { port m k.val with trainAt := max (m.clk.now + 1344) (port m k.val).trainAt } else x))

/-- R661, R665, R683: a write of HS_Q_CFG enables a queue pair after its checks, disables it, or configures it; the resident host's pair stands. -/
def Obligations.QueuePairWrites : Prop :=
  ∀ (s : State) (p : Path) (v : Word) (ctx : Nat) (t : Fin 64), WriteOk s.taken p (rHS_Q_CFG t.val) ctx →
    let m := s.taken
    let w := v &&& 0x0FFFFFF3#32
    let inside := flag w 1
    let sq := fld w 4 12
    let cq := fld w 16 12
    let placed := ringPlaced inside (m.reg64 (rHS_SQ_BASE_LO t.val)) (64 * (sq + 1)) && ringPlaced inside (m.reg64 (rHS_CQ_BASE_LO t.val)) (16 * (cq + 1))
    let ok := sq != 0 && cq != 0 && (inside || !isQspi m) && placed
    (isResident m t.val = true → Leaves (.hsQCfg p t v) s m) ∧
    (isResident m t.val = false →
      (qEnabled m t.val = true → Leaves (.hsQCfg p t v) s (if flag w 0 then m else m.setFlagOf (rHS_Q_CFG t.val) 0 false)) ∧
      (qEnabled m t.val = false → outstanding m t.val ≠ 0 → Leaves (.hsQCfg p t v) s m) ∧
      (qEnabled m t.val = false → outstanding m t.val = 0 → flag w 0 = false → Leaves (.hsQCfg p t v) s (m.setReg (rHS_Q_CFG t.val) w)) ∧
      (qEnabled m t.val = false → outstanding m t.val = 0 → flag w 0 = true → ok = false →
        Leaves (.hsQCfg p t v) s (raiseT m 0x0F02 0 0)) ∧
      (qEnabled m t.val = false → outstanding m t.val = 0 → flag w 0 = true → ok = true → Leaves (.hsQCfg p t v) s
        (((setQueue m t.val Queue.init).setReg (rHS_Q_CFG t.val) w).setRegN (rHS_Q_STATUS t.val) (2 ^ 28))))

/-- R656, R659, R661: QSPI transactions that are answered: STATUS, a word read or written in BAR0, words buffered and zero data while HOST is
not on, and malformed transactions. -/
def Obligations.QspiTransactions : Prop :=
  ∀ (s : State) (a n inst : Nat) (w : Word) (cut : Bool), qspiUp s.mach = true →
    let m := s.taken
    let bad := raiseT { m with hs := { m.hs with frameErr := true } } 0x0F0A 0 0
    let status := b2n (!m.hs.qspiBuf.isEmpty) + 2 * b2n (irqAsserted m) + 4 * b2n m.hs.frameErr
    let ctx := m.fldOf rHM_HOST_CTX 0 6
    (isOn m 17 = true → Leaves (.qspiStatus 0xB5) s
      (({ m with hs := { m.hs with frameErr := false } } : Mach).emit (.readData [BitVec.ofNat 8 status]))) ∧
    (isOn m 17 = false → Leaves (.qspiStatus 0xB5) s (m.emit (.readData [0]))) ∧
    (inst ≠ 0xB1 → inst ≠ 0xB2 → inst ≠ 0xB5 → Leaves (.qspiStatus inst) s bad) ∧
    (a % 4 ≠ 0 → Leaves (.qspiRead a n cut) s bad ∧ Leaves (.qspiWrite a [w] cut) s bad) ∧
    (a % 4 = 0 → isOn m 17 = false → Leaves (.qspiRead a n cut) s (m.emit (.readData (List.replicate (4 * n) 0)))) ∧
    (a % 4 = 0 → isOn m 17 = false → m.hs.qspiBuf.length < 64 →
      Leaves (.qspiWrite a [w] false) s { m with hs := { m.hs with qspiBuf := m.hs.qspiBuf ++ [(a, w)] } }) ∧
    (a % 4 = 0 → a < bar0 → isOn m 17 = true →
      Leaves (.qspiRead a 1 false) s ((busRead m (pathKey .host) ctx a 4).1.emit (.readData (busRead m (pathKey .host) ctx a 4).2)) ∧
      Leaves (.qspiWrite a [w] false) s (busWrite s.fuses m (pathKey .host) ctx a (leBytes 4 w.toNat)))

/-! ## Commands of a queue -/

/-- R479, R484, R486, R551, R553, R674, R678, R697: a command that may not begin changes nothing; one of a tenant that does not exist, one that ROM recovery does not
accept, one of tenant 0's that another sends, and one with a reserved bit set are refused, each with its fault, and have no other effect. -/
def Obligations.CommandsTurnedAway : Prop :=
  (∀ (s : State) (i : Instr) (cmd : CmdCtx) (op : Nat) (waits : RunCmd → Bool), commandOf i = some (cmd, op, waits) →
     let m := s.taken
     let q := cmd.q.val
     let ready := mayBegin m q cmd.cid waits = true ∧ (findCmd m q cmd.cid).any (·.op != op) = false
     let held := inRecovery m = true ∧ recoveryOps.contains op = false
     (mayBegin m q cmd.cid waits = false → Leaves i s m) ∧
     (ready → tenantExists m q = false → Refuses i s cmd op 0x0D01 0) ∧
     (ready → tenantExists m q = true → held → Refuses i s cmd op 0x1004 0) ∧
     (ready → tenantExists m q = true → ¬held → cmd.resv = true → Refuses i s cmd op (if op = 0x53 then 0x0D02 else 0x0F02) 0)) ∧
  (∀ (s : State) (i : Instr) (cmd : CmdCtx) (op base : Nat) (waits : RunCmd → Bool), managementOf i = some (cmd, op, waits, base) →
     let m := s.taken
     let q := cmd.q.val
     (mayBegin m q cmd.cid waits = false → Leaves i s m) ∧
     (Begins m { cmd with resv := false } op waits →
       (q ≠ 0 → Refuses i s cmd op (base + 1) 0) ∧ (q = 0 → cmd.resv = true → Refuses i s cmd op (base + 2) 0)))

/-- R551, R676: NOP completes; REG_READ completes with the register, and REG_WRITE writes it, in the context of the queue's tenant. -/
def Obligations.RegisterCommands : Prop :=
  ∀ (s : State) (cmd : CmdCtx) (off : Nat) (v : Word),
    let b := begun s.taken cmd
    let key := pathKey (.queue cmd.q)
    (Begins s.taken cmd 0x00 noWait → Completes (.nop (.command cmd)) s cmd 0x00 b 0) ∧
    (Begins s.taken cmd 0x01 noWait →
      (off + 4 ≤ bar0 → Completes (.regRead cmd off) s cmd 0x01 (busRead b key cmd.q.val off 4).1 (byteFld (busRead b key cmd.q.val off 4).2 0 4)) ∧
      (bar0 < off + 4 → Refuses (.regRead cmd off) s cmd 0x01 0x0F02 0)) ∧
    (Begins s.taken cmd 0x02 noWait →
      (off + 4 ≤ bar0 → Completes (.regWrite cmd off v) s cmd 0x02 (busWrite s.fuses b key cmd.q.val off (leBytes 4 v.toNat)) 0) ∧
      (bar0 < off + 4 → Refuses (.regWrite cmd off v) s cmd 0x02 0x0F02 0))

/-- R68, R100–R103, R356, R572: a load is ingested and hashed; a valid image for the sequencers takes the store's words under a new handle, an
invalid one changes nothing but the load's status; an unload returns the words, and a program in use stays. -/
def Obligations.ProgramCommands : Prop :=
  ∀ (s : State) (cmd : CmdCtx) (r : BufRef) (dest role tenant src image h : Nat) (corrupt : Bool) (bs : List Byte) (l : Loading)
    (ps : List SlotProg) (p : TickProg) (q : Fin 64) (cid c w : Nat),
    let m := s.taken
    let b := begun m cmd
    let others := m.sto.loading.filter (fun l => !(l.q == q.val && l.cid == cid))
    let left := ({ m with sto := { m.sto with loading := others } } : Mach).setFlagOf rSQ_LOAD_STATUS 24 (!others.isEmpty)
    let found := m.sto.loading.find? (fun l => l.q == q.val && l.cid == cid)
    (Begins m cmd 0x20 noWait → dest ≤ 1 → role ≤ 1 → tenant ≤ 63 → src ≤ 1 → (cmd.q.val = 0 ∨ tenant = cmd.q.val) → tenantExists m tenant = true →
      loadSource b cmd.q.val r ⟨dest, role, tenant, src, image⟩ corrupt = .ok bs →
      ∃ x, Leaves (.progLoad cmd r dest role tenant src image corrupt) s x ∧ x.sto.loading = m.sto.loading ++ [⟨cmd.q.val, cmd.cid, tenant, dest, role, bs⟩] ∧
        x.sto.progs = m.sto.progs ∧ x.flagOf rSQ_LOAD_STATUS 24 = true ∧ x.lh = m.lh ∧ x.st = m.st) ∧
    (Begins m cmd 0x20 noWait → dest ≤ 1 → role ≤ 1 → tenant ≤ 63 → src ≤ 1 → cmd.q.val ≠ 0 → tenant ≠ cmd.q.val →
      Refuses (.progLoad cmd r dest role tenant src image corrupt) s cmd 0x20 0x0D01 0) ∧
    (found = some l → l.dest = 0 → isOn m 12 = true → validateImage false l.image = .ok ps → progWords ps ≤ m.regN rSQ_STORE_FREE →
      m.regN (rSQ_USED l.tenant) + progWords ps ≤ m.fldOf (rSQ_QUOTA l.tenant) 0 20 → freeHandles m.sto ps.length = some h →
      ∃ x, Leaves (.programValidationDone q cid) s (complete x q.val cid 0x20 0 h 0) ∧
        x.sto.progs = m.sto.progs ++ [⟨h, l.tenant, ps, progWords ps, sha384 l.image⟩] ∧ x.sto.loading = others ∧ x.lh = m.lh ∧ x.st = m.st) ∧
    (found = some l → l.dest = 0 → isOn m 12 = true → validateImage false l.image = .error (c, w) →
      Leaves (.programValidationDone q cid) s (refuse ((left.setFldOf rSQ_LOAD_STATUS 16 8 c).setRegN rSQ_LOAD_WHERE w) q.val cid 0x20 c w)) ∧
    (Begins m cmd 0x21 (naming (objKey 4 h)) → tenant ≤ 63 → (cmd.q.val = 0 ∨ tenant = cmd.q.val) →
      m.sto.progs.find? (fun p => p.h == h && p.tenant == tenant) = some p →
      (progInUse m p = true → Refuses (.progUnload cmd h 0 tenant) s cmd 0x21 0x0209 0) ∧
      (progInUse m p = false → ∃ x, Completes (.progUnload cmd h 0 tenant) s cmd 0x21 x 0 ∧ x.sto.progs = m.sto.progs.filter (·.h != p.h) ∧
        x.st = m.st ∧ x.lh = m.lh))

/-- R226–R232, R244, R245: an allocation takes the lowest free handle with every byte zero; a free releases it, after its zeroing where it asked
for that; a manifest is stored under a new handle and leaves when nothing names it. -/
def Obligations.StoreCommands : Prop :=
  ∀ (s : State) (cmd : CmdCtx) (size flags h : Nat) (r : BufRef) (a : Alloc) (x : Manifest) (d : List Byte),
    let m := s.taken
    let b := begun m cmd
    let q := cmd.q.val
    let pages := ceilDiv size pageSize
    let inUse := m.mem.mans.any (fun x => (x.ins ++ x.wbs).any (·.h == h) && manInUse m x)
    let entries := (List.range (byteFld d 6 2 + byteFld d 8 2)).map (manEnt d)
    (Begins m cmd 0x10 noWait →
      (badFlags m q flags = true → Refuses (.alloc cmd size flags) s cmd 0x10 0x0501 0) ∧
      (badFlags m q flags = false → size ≠ 0 → hasRoom m q flags pages = true →
        (homeTier flags = 0 → dramUsedBy m q + pages ≤ m.fldOf (rTM_DRAM_QUOTA q) 0 18) →
        ∃ k y host, Completes (.alloc cmd size flags) s cmd 0x10 y k ∧
          y.mem.allocs = m.mem.allocs ++ [⟨k, q, tabGet m.mem.gens k 0 + 1, flags, pages, [], [], host, none⟩] ∧
          (∀ z ∈ m.mem.allocs, z.h ≠ k) ∧ (∀ j < k, ∃ z ∈ m.mem.allocs, z.h = j) ∧ (homeTier flags ≠ 2 → host = []) ∧
          y.regs = m.regs ∧ y.fl = m.fl ∧ y.st = m.st ∧ y.hm = m.hm)) ∧
    (Begins m cmd 0x11 (naming (objKey 1 h)) → ownAlloc m q h = some a →
      (inUse = true → Refuses (.free cmd h) s cmd 0x11 0x0505 0) ∧
      (inUse = false → a.zeroOnFree = false → Completes (.free cmd h) s cmd 0x11 (dropAlloc b h) 0) ∧
      (inUse = false → a.zeroOnFree = true → ∃ y, Leaves (.free cmd h) s y ∧ findAlloc y h = none ∧
        y.mem.allocs = (dropAlloc b h).mem.allocs ++ [{ a with data := [], zeroing := some (q, cmd.cid) }])) ∧
    (m.mem.allocs.find? (fun z => z.h == h && z.zeroing.isSome) = some a → a.zeroing = some (q, cmd.cid) →
      Leaves (.zeroOnFreeDone h) s (complete { m with mem := { m.mem with allocs := m.mem.allocs.filter (·.h != h) } } q cmd.cid 0x11 0 0 0)) ∧
    (Begins m cmd 0x18 noWait → refOk m q r false = true → readRef m q r = .ok d → manifestStep m q d = 0 →
      ∃ k y, Completes (.manifestLoad cmd r) s cmd 0x18 y k ∧ (∀ z ∈ m.mem.mans, z.h ≠ k) ∧
        y.mem.mans = m.mem.mans ++ [⟨k, m.mem.nextUid, q, byteFld d 16 8, entries.take (byteFld d 6 2), entries.drop (byteFld d 6 2)⟩] ∧
        y.mem.allocs = m.mem.allocs) ∧
    (Begins m cmd 0x19 (naming (objKey 3 h)) → m.mem.mans.find? (fun z => z.h == h && z.tenant == q) = some x →
      (manInUse m x = true → Refuses (.manifestUnload cmd h) s cmd 0x19 0x0505 0) ∧
      (manInUse m x = false → Completes (.manifestUnload cmd h) s cmd 0x19 { b with mem := { b.mem with mans := b.mem.mans.filter (·.uid != x.uid) } } 0))

/-- R288–R292, R296, R570: an image is opened, written in order, closed against its digest, deleted, listed and loaded; the boot selector and a
format are flash writes of tenant 0. -/
def Obligations.ImageCommands : Prop :=
  ∀ (s : State) (cmd : CmdCtx) (r : BufRef) (off id h : Nat) (rec bs : List Byte) (g : Ingest) (i : Image) (a : Alloc) (reads : List (Nat × Nat)),
    let m := s.taken
    let b := begun m cmd
    let q := cmd.q.val
    let finished := fun (i : Instr) (op : Nat) (act : WAct) (res : Nat) (objs : List Nat) (y : Mach) =>
      Leaves i s (finish (addWrite y act q cmd.cid none) q cmd.cid op res 0 objs)
    let mine := sortOn (·.id) (m.fl.images.filter (fun i => !i.deleting && (q == 0 || i.owner == q)))
    (Begins m cmd 0x28 noWait → refLen r = 64 → refOk m q r false = true → readRef m q r = .ok rec →
      (openFault m q rec ≠ 0 → Refuses (.imgOpen cmd r) s cmd 0x28 (openFault m q rec) 0) ∧
      (openFault m q rec = 0 → ∃ y, Completes (.imgOpen cmd r) s cmd 0x28 y 0 ∧ y.fl.images = m.fl.images ∧
        y.fl.ingest = some ⟨q, byteFld rec 0 2, byteFld rec 2 1, byteFld rec 3 1, byteFld rec 4 4, byteFld rec 8 4, slice rec 16 48, [], false⟩)) ∧
    (Begins m cmd 0x29 noWait → m.fl.ingest = some g → g.q = q → m.fl.readOnly = false →
      (dataOk g off (refLen r) = true → refOk m q r false = true → readRef m q r = .ok bs →
        ∃ y, Completes (.imgData cmd r off) s cmd 0x29 y 0 ∧ y.fl.ingest = some { g with bytes := g.bytes ++ bs } ∧ y.fl.images = m.fl.images) ∧
      (dataOk g off (refLen r) = false → g.closing = false → ∃ y, y.fl.ingest = none ∧
        Leaves (.imgData cmd r off) s (refuse y q cmd.cid 0x29 0x0606 0))) ∧
    (Begins m cmd 0x2A noWait → m.fl.ingest = some g → g.q = q → g.closing = false → g.bytes.length = g.length →
      (zeroAt g.expect 0 48 = false → g.expect ≠ sha384 g.bytes → ∃ y, y.fl.ingest = none ∧
        Leaves (.imgClose cmd) s (refuse y q cmd.cid 0x2A 0x0605 0)) ∧
      ((zeroAt g.expect 0 48 = true ∨ g.expect = sha384 g.bytes) → m.fl.readOnly = false →
        ∃ y, finished (.imgClose cmd) 0x2A .image g.id [objKey 5 g.id] y ∧ y.fl.ingest = some { g with closing := true } ∧ y.fl.images = m.fl.images)) ∧
    (Begins m cmd 0x2B (naming (objKey 5 id)) → findImage m id = some i → (inRecovery m = true → i.kind = 0) → (q = 0 ∨ (i.owner = q ∧ i.kind ≠ 0)) →
      m.fl.readOnly = false → finished (.imgDelete cmd id) 0x2B (.imageDel id) 0 [objKey 5 id]
        { b with fl := { b.fl with images := mapIf (·.id == id) (fun i => { i with deleting := true }) b.fl.images } }) ∧
    (Begins m cmd 0x2C noWait → refOk m q r false = true → Leaves (.imgList cmd r) s
      (finish (writeRef b q cmd.cid r ((mine.take (refLen r / 64)).flatMap imgRecord)) q cmd.cid 0x2C (mine.take (refLen r / 64)).length 0 [])) ∧
    (Begins m cmd 0x2D noWait → findImage m id = some i → findAlloc m h = some a → (q = 0 ∨ i.owner = q) → i.kind = 2 →
      (a.owner = i.owner ∨ (a.sharedRo = true ∧ (q = 0 ∨ a.owner = q))) → off + i.bytes.length ≤ a.size → mounted m = true →
      (sha384 i.bytes ≠ i.digest → Refuses (.imgLoad cmd id h off false []) s cmd 0x2D 0x0608 0) ∧
      (sha384 i.bytes = i.digest → m.fl.readOnly = false → Takes (.imgLoad cmd id h off false reads) s cmd 0x2D
        (writeAlloc (addReads b reads) a off i.bytes q cmd.cid none) 0 [objKey 1 h, objKey 5 id] i.version (beNat i.digest))) ∧
    (Begins m cmd 0x2E noWait →
      (q ≠ 0 → Refuses (.bootSelect cmd id) s cmd 0x2E 0x0D01 0) ∧
      (q = 0 → (findImage m id).any (·.kind == 0) = true → m.fl.readOnly = false → finished (.bootSelect cmd id) 0x2E (.selector id) 0 [] b)) ∧
    (Begins m cmd 0x2F noWait →
      (q = 0 → finished (.flashFormat cmd 0x464D5446) 0x2F .format 0 [] b) ∧ (q ≠ 0 → Refuses (.flashFormat cmd 0x464D5446) s cmd 0x2F 0x0D01 0))

/-- R312–R316: a cascade is created for its tenant, armed while the armed ones name at most 16 bonds, disarmed, and destroyed while it is disarmed
and no table names it. -/
def Obligations.CascadeCommands : Prop :=
  ∀ (s : State) (cmd : CmdCtx) (r : BufRef) (t : Fin 64) (d : List Byte) (c : Casc),
    let m := s.taken
    let b := begun m cmd
    let q := cmd.q.val
    let mine := q = 0 ∨ q = t.val
    (Begins m cmd 0x30 noWait → refOk m q r false = true → readRef m q r = .ok d →
      (cascadeReason m q d ≠ 0 → Refuses (.casCreate cmd r) s cmd 0x30 0x0701 (cascadeReason m q d)) ∧
      (cascadeReason m q d = 0 → ∃ y, Completes (.casCreate cmd r) s cmd 0x30 y 0 ∧ y.cas = m.cas ++ [descCascade q d] ∧
        y.regN (rBR_CAS_COMMITS q) = 0 ∧ y.regN (rBR_CAS_DROPS q) = 0 ∧ y.st = m.st ∧ y.mem = m.mem)) ∧
    (Begins m cmd 0x31 noWait → cascOf m t.val = some c →
      (¬mine → Refuses (.casArm cmd t) s cmd 0x31 0x0D01 0) ∧
      (mine → c.armed = true → Completes (.casArm cmd t) s cmd 0x31 b 0) ∧
      (mine → c.armed = false → 16 < bondArmed m + c.max → Refuses (.casArm cmd t) s cmd 0x31 0x0702 0) ∧
      (mine → c.armed = false → bondArmed m + c.max ≤ 16 → Completes (.casArm cmd t) s cmd 0x31 (armNow b c) 0)) ∧
    (Begins m cmd 0x32 (naming (objKey 6 t.val)) → cascOf m t.val = some c → mine →
      (c.armed = false → Completes (.casDisarm cmd t) s cmd 0x32 b 0) ∧
      (c.armed = true → c.bonds.any (·.st == 2) = false → Completes (.casDisarm cmd t) s cmd 0x32 (disarmNow b t.val) 0) ∧
      (c.armed = true → c.bonds.any (·.st == 2) = true → ∃ y, Leaves (.casDisarm cmd t) s y ∧
        y.cas = (putCasc m { c with disarming := true }).cas ∧ y.st = m.st)) ∧
    (Begins m cmd 0x33 (naming (objKey 6 t.val)) → cascOf m t.val = some c → mine →
      (c.armed = true ∨ cascadeNamed m t.val = true → Refuses (.casDestroy cmd t) s cmd 0x33 0x0703 0) ∧
      (c.armed = false → cascadeNamed m t.val = false →
        Completes (.casDestroy cmd t) s cmd 0x33 { b with cas := b.cas.filter (·.tenant != t.val) } 0))

/-- R405–R408, R561: a stream takes the lowest free context afresh; its close completes once its records are in their ring; an injected record
takes the next number; the oldest record that waits for a DRAM ring is written within its time while CRANE and DMC are on, or counted missed. -/
def Obligations.StreamCommands : Prop :=
  ∀ (s : State) (cmd : CmdCtx) (kind src size ring records n stamp : Nat) (dram : Bool) (r : BufRef) (bs : List Byte) (x : RingWrite),
    let m := s.taken
    let b := begun m cmd
    let q := cmd.q.val
    let shape := 2 ≤ kind ∧ kind ≤ 6 ∧ size < 3 ∧ sourceOk kind src = true ∧ records < 65536 ∧ ((kind = 2 ∨ kind = 5) → dram = true)
    let i := Instr.streamOpen cmd kind src size dram ring records
    let opened := takeCtx b n kind q (b2n dram) size src ring records
    let waits := m.sn.ring.any (fun r => r.stream == n) = true
    let rest := ({ m with sn := { m.sn with ring := m.sn.ring.erase x } } : Mach)
    let fits := isOn m 13 = true ∧ isOn m 15 = true ∧ m.clk.now ≤ x.due ∧ (findGen m x.h x.gen).any (fun a => decide (x.off + x.bytes.length ≤ a.size)) = true
    (Begins m cmd 0x38 noWait →
      (¬shape → Refuses i s cmd 0x38 0x0F02 0) ∧
      (shape → streamGranted m q kind src = false → Refuses i s cmd 0x38 0x0D01 0) ∧
      (shape → streamGranted m q kind src = true → ringOk m q (b2n dram) ring ((records + 1) * (64 * 2 ^ size)) = true →
        (freeCtx m = none → Refuses i s cmd 0x38 0x0905 0) ∧
        (freeCtx m = some n → Completes i s cmd 0x38 (if kind = 2 then opened.setFldOf (rCM_VC_CFG src) 8 6 n else opened) n))) ∧
    (Begins m cmd 0x39 (naming (objKey 7 n)) →
      (strKind m n < 2 ∨ strOwner m n ≠ q → Refuses (.streamClose cmd n) s cmd 0x39 0x0F02 0) ∧
      (2 ≤ strKind m n → strOwner m n = q →
        (¬waits → Completes (.streamClose cmd n) s cmd 0x39 (freeStream b n) 0) ∧
        (waits → Leaves (.streamClose cmd n) s (running (freeStream b n) q cmd.cid 0x39 waitRing (some ⟨q, cmd.cid, 0x39, 0, 0, 0, 0⟩) [objKey 7 n] 0 0)))) ∧
    (Begins m cmd 0x3A noWait → strKind m n = 6 → strOwner m n = q → 32 + refLen r ≤ strSize m n → refOk m q r false = true → readRef m q r = .ok bs →
      let y := produce b n 6 stamp 0 bs.length (strSource m n) [] bs
      let seq := (sctx m n).count % (2 ^ 32 - 1) + 1
      (strLoc y n = 0 → Completes (.streamInject cmd n stamp r) s cmd 0x3A y seq) ∧
      (strLoc y n = 1 → Leaves (.streamInject cmd n stamp r) s
        (running y q cmd.cid 0x3A waitRing (some ⟨q, cmd.cid, 0x3A, 0, seq, 0, 0⟩) [objKey 7 n] 0 0))) ∧
    (m.sn.ring.find? (fun r => r.stream == n && r.mirror == false) = none → Leaves (.ringRecordWrite n) s m) ∧
    (m.sn.ring.find? (fun r => r.stream == n && r.mirror == false) = some x →
      (fits → Leaves (.ringRecordWrite n) s (ringDone (seqWritten (storeAlloc rest x.h x.gen x.off x.bytes) n (byteFld x.bytes 0 4)) n)) ∧
      (¬fits → Leaves (.ringRecordWrite n) s (ringDone (missRecord (advanceTo rest x.due) n) n)))

/-- R33, R478–R488: a PWR_SET accepts its changes and completes with their number, or once they have ended; a PERF_SET replaces the pending
levels; a STANDING_ORDER is set, shown or removed; each is refused with the fault of its parameters. -/
def Obligations.PowerCommands : Prop :=
  ∀ (s : State) (cmd : CmdCtx) (p : List Byte),
    let m := s.taken
    let b := begun m cmd
    let W := pwrParams p
    let a := acceptPower { b with pm := { b.pm with nextReq := m.pm.nextReq + 1 } } W.mask W.st true (m.pm.nextReq + 1)
    let hostFirst := W.st ≠ 0 ∧ bit a.2.1 17 = true ∧ isResident m 0 = false
    let late := running a.1 0 cmd.cid 0x48 waitPower none [] 0 0
    let F := perfParams p
    let waiting := running (acceptPerf b F) 0 cmd.cid 0x49 waitPower none [] 0 0
    let k := byteFld p 0 1
    let order := SOrder.mk (byteFld p 2 2) (byteFld p 4 2) (bit (byteFld p 1 1) 0) (bit (byteFld p 1 1) 2) (byteFld p 6 1) (slice p 16 16)
    (cmd.q.val = 0 → Begins m cmd 0x48 noWait →
      (pwrFault m W ≠ 0 → Refuses (.pwrSet cmd p) s cmd 0x48 (pwrFault m W) 0) ∧
      (pwrFault m W = 0 → (W.wait = false ∨ hostFirst) → Leaves (.pwrSet cmd p) s
        (pumpPower (complete (setMasks a.1 a.2.1 a.2.2) 0 cmd.cid 0x48 0 (popCount a.2.1 96) (popCount a.2.2 96)))) ∧
      (pwrFault m W = 0 → W.wait = true → ¬hostFirst → Leaves (.pwrSet cmd p) s
        (pumpPower { late with pm := { late.pm with reqs := late.pm.reqs ++ [⟨m.pm.nextReq + 1, 0, cmd.cid, a.2.1, a.2.2⟩] } }))) ∧
    (cmd.q.val = 0 → Begins m cmd 0x49 noWait →
      (perfFault m F ≠ 0 → Refuses (.perfSet cmd p) s cmd 0x49 (perfFault m F) 0) ∧
      (perfFault m F = 0 → F.pl = 0xFF → F.s = 0xFF → Completes (.perfSet cmd p) s cmd 0x49 b 0) ∧
      (perfFault m F = 0 → ¬(F.pl = 0xFF ∧ F.s = 0xFF) →
        (acceptPerf b F).pm.pendPl = (if F.pl = 0xFF then m.pm.pendPl else some F.pl) ∧
        (acceptPerf b F).pm.pendS = (if F.s = 0xFF then m.pm.pendS else some F.s) ∧
        (F.wait = false → Completes (.perfSet cmd p) s cmd 0x49 (acceptPerf b F) 0) ∧
        (F.wait = true → Leaves (.perfSet cmd p) s
          { waiting with pm := { waiting.pm with perfWait := m.pm.perfWait ++ [(0, cmd.cid)] } }))) ∧
    (cmd.q.val = 0 → Begins m cmd 0x4A noWait →
      (orderFault m p ≠ 0 → Refuses (.standingOrder cmd p) s cmd 0x4A (orderFault m p) 0) ∧
      (orderFault m p = 0 → bit (byteFld p 1 1) 1 = true → Completes (.standingOrder cmd p) s cmd 0x4A
        (({ b with pm := { b.pm with orders := tabSet m.pm.orders k none none } } : Mach).setRegN (rPM_SO k) 0) 0) ∧
      (orderFault m p = 0 → bit (byteFld p 1 1) 1 = false → Completes (.standingOrder cmd p) s cmd 0x4A
        (({ b with pm := { b.pm with orders := tabSet m.pm.orders k (some order) none } } : Mach).setRegN (rPM_SO k)
          (byteFld p 2 2 % 65536 + 65536 * (byteFld p 4 2 % 32768) + 2 ^ 31)) 0))

/-- R553, R554, R556, R560–R565: a tenant is created afresh and recorded in flash; destroyed, it loses its key, cascade, manifests, images, rules and
places at once, and its record durably; a rule set is installed at once and its command completes when every revoked transfer has. -/
def Obligations.TenantCommands : Prop :=
  ∀ (s : State) (cmd : CmdCtx) (t mode quota cid : Nat) (q : Nat) (r : BufRef) (d : List Byte),
    let m := s.taken
    let posts := fun (i : Instr) (op : Nat) (act : WAct) (y : Mach) => Leaves i s (finish (addWrite y act 0 cmd.cid none) 0 cmd.cid op 0 0 [objKey 8 t])
    let fenced := (m.setFlagOf rHM_STATUS 1 false).setFldOf rHM_RULE_EPOCH 16 16 (m.fldOf rHM_RULE_EPOCH 0 16)
    let rules := ((List.range (d.length / 16)).map (ruleEnt d)).filter (·.kind != 0)
    let held := running ((installRules (begun m cmd) rules).setFlagOf rHM_STATUS 1 true) 0 cmd.cid 0x52 waitFence none [] 0 0
    let rulesOk := d.length % 16 = 0 ∧ d.length ≤ 8192 ∧ (List.range (d.length / 16)).all (ruleOk m d) = true
    let open' := m.mem.xfers.any (·.st == 2) = true ∨ m.fl.writes.any (fun w => w.unmapped && !w.done && w.xf.isSome) = true
    (cmd.q.val = 0 → Begins m cmd 0x50 noWait →
      (63 < t ∨ 1 < mode ∨ 65535 < quota → Refuses (.tenantCreate cmd t mode quota) s cmd 0x50 0x0D02 0) ∧
      (t ≤ 63 → mode ≤ 1 → quota ≤ 65535 → createReason m t ≠ 0 → Refuses (.tenantCreate cmd t mode quota) s cmd 0x50 0x0D03 (createReason m t)) ∧
      (t ≤ 63 → mode ≤ 1 → quota ≤ 65535 → createReason m t = 0 → m.fl.readOnly = false →
        ∃ y, posts (.tenantCreate cmd t mode quota) 0x50 (.record t) y ∧ y.regN (rTM_DRAM_QUOTA t) = 0 ∧ y.regN (rSQ_QUOTA t) = 0 ∧
          y.regN (rTK_CHOICE t) = 0 ∧ y.regN (rTK_CHOICE_CAUSE t) = 0 ∧ y.regN (rHM_IMG_QUOTA t) = quota ∧ y.fldOf (rHM_TENANT_CFG t) 1 1 = mode ∧
          (∀ x < 5, y.fldOf (rCR_RES t x) 0 16 = 0) ∧
          tenRec y t = { TenRec.init with nonce := Config.freeValue m.fresh % 2 ^ 128, key := true, creating := true } ∧
          y.fl = m.fl ∧ y.mem = m.mem ∧ y.st = m.st)) ∧
    (cmd.q.val = 0 → Begins m cmd 0x51 (naming (objKey 8 t)) → 1 ≤ t → t ≤ 63 →
      (destroying m t = true → Refuses (.tenantDestroy cmd t) s cmd 0x51 0x0D03 3) ∧
      (destroying m t = false → tenantExists m t = false → Refuses (.tenantDestroy cmd t) s cmd 0x51 0x0D03 5) ∧
      (destroying m t = false → tenantExists m t = true → anyNaming m (fun e => e.tenant == t) = true → Refuses (.tenantDestroy cmd t) s cmd 0x51 0x0D04 0) ∧
      (destroying m t = false → tenantExists m t = true → anyNaming m (fun e => e.tenant == t) = false → m.fl.readOnly = false →
        ∃ y, posts (.tenantDestroy cmd t) 0x51 (.erase t) y ∧ (tenRec y t).key = false ∧ cascOf y t = none ∧
          (∀ x ∈ y.mem.mans, x.tenant ≠ t) ∧ (∀ x ∈ y.fl.images, x.owner ≠ t) ∧ (∀ x ∈ y.hm.rules, x.tenant ≠ t) ∧
          (∀ x ∈ y.tk.owner, x.2 ≠ t) ∧ (∀ x ∈ y.sto.loading, x.tenant ≠ t))) ∧
    (cmd.q.val = 0 → Begins m cmd 0x52 noWait → refOk m 0 r false = true → readRef m 0 r = .ok d →
      (m.flagOf rHM_STATUS 1 = true → Refuses (.rulesUpdate cmd r) s cmd 0x52 0x0D06 0) ∧
      (m.flagOf rHM_STATUS 1 = false → ¬rulesOk → Refuses (.rulesUpdate cmd r) s cmd 0x52 0x0D05 0) ∧
      (m.flagOf rHM_STATUS 1 = false → rulesOk →
        Leaves (.rulesUpdate cmd r) s { held with hm := { held.hm with fence := some (0, cmd.cid) } } ∧ held.hm.rules = rules)) ∧
    (m.hm.fence = none → Leaves .ruleFence s m) ∧
    (m.hm.fence = some (q, cid) →
      (open' → Leaves .ruleFence s m) ∧
      (¬open' → Leaves .ruleFence s (complete { fenced with hm := { m.hm with fence := none } } q cid 0x52 0 0 0))) ∧
    Leaves (.entropyHealthTest true) s (m.setFlagOf rHM_STATUS 2 false) ∧
    Leaves (.entropyHealthTest false) s (raiseD (m.setFlagOf rHM_STATUS 2 true) 0x0D0B 0)

/-- R572–R577, R579–R582, R590: an attestation is delivered to those whom the policy lets ask; the owner key is fused once; the security version rises to
the running firmware's and never falls; the consent to an RMA is noted. -/
def Obligations.AttestationAndFuses : Prop :=
  ∀ (s : State) (cmd : CmdCtx) (r : BufRef) (kind scope nlen : Nat) (nonce d : List Byte),
    let m := s.taken
    let b := begun m cmd
    let q := cmd.q.val
    let i := Instr.attest cmd kind scope nlen r nonce
    let bad := 1 < kind ∨ 1 < scope ∨ nlen < 8 ∨ 24 < nlen
    let full := fullReport b (if scope = 1 then 64 else q) (slice nonce 0 nlen)
    let version := max s.fuses.svn ((m.hm.fw.map (·.2.1)).getD 0)
    (Begins m cmd 0x53 noWait →
      (bad → Refuses i s cmd 0x53 0x0D02 0) ∧
      (¬bad → mayAttest m q kind scope = false → Refuses i s cmd 0x53 0x0D08 0) ∧
      (¬bad → mayAttest m q kind scope = true → refOk m q r false = true →
        (kind = 1 → Leaves i s (if refLen r < certReport.length then refuse b q cmd.cid 0x53 0x0D08 0
          else taking (writeRef b q cmd.cid r certReport) q cmd.cid 0x53 certReport.length [] 0 0)) ∧
        (kind = 0 → full.1.length ≤ refLen r → Takes i s cmd 0x53 (writeRef full.2 q cmd.cid r full.1) full.1.length [] 0 0))) ∧
    (q = 0 → Begins m cmd 0x54 noWait → refLen r = 96 → refOk m 0 r false = true → readRef m 0 r = .ok d →
      (s.fuses.owner ≠ none → Refuses (.ownerEnroll cmd r) s cmd 0x54 0x0D0A 0) ∧
      (s.fuses.owner = none → exec (.ownerEnroll cmd r) s = .next { s with
        fuses := ⟨some (sha384 d), s.fuses.svn⟩, mach := ended (complete (b.setFlagOf rHM_STATUS 0 true) 0 cmd.cid 0x54 0 0 0) })) ∧
    (q = 0 → Begins m cmd 0x55 noWait → exec (.svnCommit cmd) s = .next { s with
      fuses := ⟨s.fuses.owner, version⟩, mach := ended (complete (b.setRegN rHM_SVN version) 0 cmd.cid 0x55 0 0 0) }) ∧
    (q = 0 → Begins m cmd 0x56 noWait → Completes (.rmaConsent cmd) s cmd 0x56 (b.setFlagOf rHM_STATUS 3 true) 0)

/-- R230, R266, R353, R674, R676, R677, R679: a HOST_WRITE stores its bytes and a HOST_READ delivers them; host regions are registered under the lowest
free number and leave when nothing lies in them; the lighthouse SRAM is accessed in partitions of the tenant; run notices are asked for. -/
def Obligations.HostDataCommands : Prop :=
  ∀ (s : State) (cmd : CmdCtx) (h off slot : Nat) (r : BufRef) (a : Alloc) (bs : List Byte) (g : HostRegion) (on : Bool) (reads : List (Nat × Nat)),
    let m := s.taken
    let b := begun m cmd
    let q := cmd.q.val
    let n := refLen r
    let id := lowestFree (m.hs.regions.map (·.id))
    let toFlash := (cutPages (bs.length / pageSize + 2) off bs).any (fun p => inFlash a (p.1 / pageSize)) = true
    (Begins m cmd 0x12 (overlapping h off n true) → ownAlloc m q h = some a →
      (off % 64 ≠ 0 ∨ a.size < off + n → Refuses (.hostWrite cmd h off r) s cmd 0x12 0x0F02 0) ∧
      (off % 64 = 0 → off + n ≤ a.size → refOk m q r true = false → Refuses (.hostWrite cmd h off r) s cmd 0x12 0x0F03 0) ∧
      (off % 64 = 0 → off + n ≤ a.size → refOk m q r true = true → readRef m q r = .ok bs →
        (m.fl.readOnly = true → toFlash → Refuses (.hostWrite cmd h off r) s cmd 0x12 0x0601 0) ∧
        (m.fl.readOnly = false ∨ ¬toFlash →
          Takes (.hostWrite cmd h off r) s cmd 0x12 (writeAlloc b a off bs q cmd.cid none) 0 [objKey 1 h] off (off + bs.length)))) ∧
    (Begins m cmd 0x13 (overlapping h off n false) → ownAlloc m q h = some a → off % 64 = 0 → off + n ≤ a.size → refOk m q r true = true →
      (poisoned a off n = true → Refuses (.hostRead cmd h off r reads) s cmd 0x13 (poisonFault a (off / pageSize)) 0) ∧
      (poisoned a off n = false →
        Takes (.hostRead cmd h off r reads) s cmd 0x13 (writeRef (addReads b reads) q cmd.cid r (readAlloc m a off n)) 0 [objKey 1 h] off (off + n))) ∧
    (Begins m cmd 0x14 noWait →
      (isQspi m = true → Refuses (.hostmemReg cmd r) s cmd 0x14 0x0F03 0) ∧
      (isQspi m = false → refOk m q r false = true → readRef m q r = .ok bs →
        (pageListOk bs = false → Refuses (.hostmemReg cmd r) s cmd 0x14 0x0F02 0) ∧
        (pageListOk bs = true → 1048576 < regionPages m + bs.length / 8 → Refuses (.hostmemReg cmd r) s cmd 0x14 0x0502 0) ∧
        (pageListOk bs = true → regionPages m + bs.length / 8 ≤ 1048576 → id ≤ 0xFFFF → Completes (.hostmemReg cmd r) s cmd 0x14
          { b with hs := { b.hs with regions := m.hs.regions ++ [⟨id, q, (List.range (bs.length / 8)).map (fun i => byteFld bs (8 * i) 8)⟩] } } id))) ∧
    (Begins m cmd 0x15 (naming (objKey 2 h)) →
      (m.hs.regions.find? (fun g => g.id == h && g.owner == q) = none → Refuses (.hostmemUnreg cmd h) s cmd 0x15 0x0F02 0) ∧
      (m.hs.regions.find? (fun g => g.id == h && g.owner == q) = some g →
        (regionFree m g ≠ g.pages.length → Refuses (.hostmemUnreg cmd h) s cmd 0x15 0x0F07 0) ∧
        (regionFree m g = g.pages.length →
          Completes (.hostmemUnreg cmd h) s cmd 0x15 { b with hs := { b.hs with regions := m.hs.regions.filter (·.id != h) } } 0))) ∧
    (Begins m cmd 0x3C noWait → off + n ≤ 0x100000 →
      (lhRangeOk m q off n = false → Refuses (.lhMemWrite cmd off r) s cmd 0x3C 0x0D01 0) ∧
      (lhRangeOk m q off n = true → refOk m q r false = true → readRef m q r = .ok bs →
        Takes (.lhMemWrite cmd off r) s cmd 0x3C (lhWrite b off bs) 0 (partObjs off bs.length) 0 0)) ∧
    (Begins m cmd 0x3D noWait → off + n ≤ 0x100000 →
      (lhRangeOk m q off n = false → Refuses (.lhMemRead cmd off r) s cmd 0x3D 0x0D01 0) ∧
      (lhRangeOk m q off n = true → refOk m q r false = true →
        Takes (.lhMemRead cmd off r) s cmd 0x3D (writeRef b q cmd.cid r (lhRead m off n)) 0 (partObjs off n) 0 0)) ∧
    (Begins m cmd 0x40 noWait →
      (255 ≤ slot → Refuses (.runNotify cmd slot on) s cmd 0x40 0x0F02 0) ∧
      (slot < 255 → Completes (.runNotify cmd slot on) s cmd 0x40 { b with hs := { b.hs with notify := tabSet m.hs.notify (64 * slot + q) (b2n on) 0 } } 0))

/-- R631, R632: a job is opened for a tenant on this node with its members, groups and digest, or refused with the first reason; it closes at the next
seam. -/
def Obligations.JobCommands : Prop :=
  ∀ (s : State) (cmd : CmdCtx) (r : BufRef) (d : List Byte) (job : Nat),
    let m := s.taken
    let b := begun m cmd
    let q := cmd.q.val
    (Begins m cmd 0x58 noWait →
      (q ≠ 0 → Refuses (.jobOpen cmd r) s cmd 0x58 0x0D01 0) ∧
      (q = 0 → refOk m q r false = true → readRef m q r = .ok d →
        (jobReason m d ≠ 0 → Refuses (.jobOpen cmd r) s cmd 0x58 0x0E08 (jobReason m d)) ∧
        (jobReason m d = 0 → ∃ y j, Completes (.jobOpen cmd r) s cmd 0x58 y 0 ∧ y.ch.jobs = m.ch.jobs ++ [j] ∧
          j.job = byteFld d 4 1 ∧ j.tenant = byteFld d 5 1 ∧ j.relaxed = (byteFld d 6 1 == 1) ∧ j.members = byteFld d 8 8 ∧ j.cutoff = byteFld d 32 4 ∧
          j.digest = sha384 d ∧ j.closing = false ∧ j.halting = none ∧ j.opened = fabricTick m + 1 ∧ j.groups.length = byteFld d 7 1 ∧
          y.regN (rCH_JOB_STATE j.job) = 1 + 256 * j.tenant + 65536 * b2n j.relaxed ∧ y.st = m.st ∧ y.mem = m.mem ∧ y.tk = m.tk))) ∧
    (Begins m cmd 0x59 noWait →
      (q ≠ 0 → Refuses (.jobClose cmd job) s cmd 0x59 0x0D01 0) ∧
      (q = 0 → m.ch.jobs.any (·.job == job) = false → Refuses (.jobClose cmd job) s cmd 0x59 0x0F02 0) ∧
      (q = 0 → m.ch.jobs.any (·.job == job) = true → Completes (.jobClose cmd job) s cmd 0x59
        { b with ch := { b.ch with jobs := mapIf (·.job == job) (fun x => { x with closing := true }) m.ch.jobs } } 0))

/-! ## Events -/

/-- R18, R27–R31, R63, R177, R247, R404, R494: the reference's stop makes the tick coarse and its running slots IDLE; its restart and a crystal that does
not start end what waited; a self-test ends with the resources that fail; a submission is accepted with its bindings or rejected with its first fault. -/
def Obligations.TickEvents : Prop :=
  ∀ (s : State) (fail : BitVec 16) (n e r : Nat) (sub : Submission),
    let m := s.taken
    let slots := (m.st.runs.filter (fun r => !r.isTask)).map (·.id)
    let count := fun (t : Trans) => if t.xtal then
      { t with xtal := false, begun := m.clk.now, due := m.clk.now + transTime m.fl.clean t.dom t.src t.tgt } else t
    let again := { m.clk with refStopped := false, restartAt := m.clk.now, xtalStarting := false, coarsePast := m.clk.coarsePast ++ [(m.clk.stopAt, m.clk.now)] }
    let held := m.pm.trans.filter (·.xtal)
    let first := (held.map (·.begun)).foldl min (held.headD ⟨0, 0, 0, m.clk.now, 0, false, 0⟩).begun
    let failed := advanceTo m (first + aonToRef 6144)
    let tested := advanceTo m (quayTime m (m.tk.testAt + n))
    let open' := ({ m with tk := { m.tk with validating := none } } : Mach)
    let v := e + 256 * r + 65536 * fld (tabGet sub.table 0 0) 16 16
    (m.clk.refStopped = true → Leaves .referenceStop s m) ∧
    (m.clk.refStopped = false → ∃ x, Leaves .referenceStop s x ∧
      x.clk = { m.clk with refStopped := true, stopAt := m.clk.now, coarseTick := true } ∧ x.st = { m.st with runs := mapIf (fun r => !r.isTask) SlotRun.stopped m.st.runs } ∧
      (∀ k ∈ slots, tabFind x.tk.outcomes k = some 1) ∧ x.flagOf rTK_STATUS 2 = true ∧ (m.flagOf rTK_CTRL 0 = false → x.ef = m.ef) ∧
      (m.flagOf rTK_CTRL 0 = true → ∃ f, x.ef.raised = m.ef.raised ++ [f] ∧ f.code = 0x0105 ∧ f.device = true) ∧ x.mem = m.mem ∧ x.lh = m.lh) ∧
    (m.clk.refStopped = false → Leaves .referenceRestart s m) ∧
    (m.clk.refStopped = true → Leaves .referenceRestart s (pumpPower { m with clk := again, pm := { m.pm with trans := m.pm.trans.map count } })) ∧
    (m.clk.xtalStarting = false → Leaves .crystalStartTimeout s m) ∧
    (m.clk.xtalStarting = true → Leaves .crystalStartTimeout s
      (pumpPower (freeWakes (raiseD (held.foldl abandon { failed with clk := { failed.clk with xtalStarting := false } }) 0x0B06 0)))) ∧
    (m.tk.testLeft = none ∨ m.tk.testFail.isSome = true ∨ m.clk.inSeam = true ∨ m.clk.coarseTick = true → Leaves (.selftestComplete fail) s m) ∧
    (m.tk.testLeft = some n → m.tk.testFail = none → m.clk.inSeam = false → m.clk.coarseTick = false → n ≤ testRegion m →
      Leaves (.selftestComplete fail) s { tested with tk := { m.tk with testLeft := some 0, testFail := some (fail.toNat &&& m.tk.testNamed) } }) ∧
    (m.tk.validating = none → Leaves .tableValidationDone s m) ∧
    (m.tk.validating = some sub → submissionFault open' sub = some (e, r) → Leaves .tableValidationDone s
      (raiseT (showPending ((open'.setRegN rTK_REJECT v).setFlagOf rTK_STATUS 1 true)) 0x0102 0 v)) ∧
    (m.tk.validating = some sub → submissionFault open' sub = none → ∃ x, Leaves .tableValidationDone s x ∧
      x.tk = { m.tk with validating := none, accepted := some { sub with bound := bindings m sub.table } } ∧ x.fl = m.fl ∧ x.hm = m.hm ∧ x.cas = m.cas)

/-- R37–R46, R247, R755: a slot that may start holds its resources from its START, with its outcome and its streams where it runs; it is IDLE while strict
mode, its tenant or a resource is off; at its end cycle its run is RAN or TRUNCATED, or its skip is noticed, and its next run is fed. -/
def Obligations.SlotsStartAndEnd : Prop :=
  ∀ (s : State) (n : Fin 255) (r : SlotRun),
    let m := s.taken
    let e := entryOf m.tk.active n.val
    let b := beginFlips (advanceTo m (quayTime m e.start)) e.start
    let o := startOutcome b n.val e
    let streams := if o.1 = 0 then ((slotProgOf b e.tenant e.program).map (bindStreams e)).getD [] else []
    let g := beginFlips (advanceTo m (quayTime m r.endCycle)) r.endCycle
    let c := closeRun g r
    let res := tabGet c.1.tk.outcomes n.val 1
    let through := c.2.cut = false ∧ c.2.reachedEnd = true
    let ends := fun (y : Mach) (ran : Bool) => gapScrub (feedNext y n.val c.2.tenant (waiting c.2 ran)) c.2
    (mayStart m n.val e = false → Leaves (.slotStart n) s m) ∧
    (mayStart m n.val e = true →
      (b.tk.strict = false ∨ bit b.tk.halted e.tenant = true ∨ (entryRes e).all (resOn b) = false → o.1 = 1) ∧
      ∃ y, y.st.runs = b.st.runs ++ [slotRun b n.val e streams o.2] ∧ y.tk.outcomes = tabPut b.tk.outcomes n.val o.1 ∧
        (∀ i ∈ entryRes e, tabGet y.tk.owner i 64 = e.tenant) ∧
        (idleAt b n.val e = false → y.fldOf (rCR_MAN_STATE n.val) 4 4 = manCheck b n.val e ∧
          (e.manifest ≠ 0xFFFF → y.fldOf (rCR_MAN_STATE n.val) 0 2 = 0)) ∧
        (o.1 ≠ 2 → Leaves (.slotStart n) s y) ∧
        (o.1 = 2 → o.2 = 0xFFFF → Leaves (.slotStart n) s (countChoice y e.tenant 0)) ∧
        (o.1 = 2 → o.2 ≠ 0xFFFF → Leaves (.slotStart n) s (failRun y o.2 e.tenant n.val))) ∧
    (findRun m n.val = none → Leaves (.slotEnd n) s m) ∧
    (findRun m n.val = some r →
      (res = 0 → through → Leaves (.slotEnd n) s (ends (ranEnd c.1 c.2) true)) ∧
      (res = 0 → ¬through → Leaves (.slotEnd n) s (ends (truncEnd c.1 c.2) false)) ∧
      (res = 2 → Leaves (.slotEnd n) s (ends (if c.2.skip = 0xFFFF then noteRun c.1 c.2 0 2 else noteRun c.1 c.2 c.2.skip 1) false)) ∧
      (res ≠ 0 → res ≠ 2 → Leaves (.slotEnd n) s (ends c.1 false)))

/-- R17–R20, R22, R28, R33–R36, R46, R55: the seam ends what runs, then drops what expired, delivers power, halts, scrubs, records the outcomes, activates the
accepted table, serves the fabric and the memory, and changes power and performance; the tick boundary ends the seam and begins the next tick. -/
def Obligations.SeamsAndBoundaries : Prop :=
  ∀ (s : State) (x : Mach) (sub : Submission) (n : Nat),
    let m := s.taken
    let a := endSlots m
    let f := beginFlips a (quayNow (advanceTo a (seamStart a)))
    let g := advanceTo f (seamStart f)
    let h := scrubSeam (haltSeam (deliverySeam (seamBonds { g with clk := { g.clk with inSeam := true } })))
    let b := takeTiming (advanceTo (seam m) (tickEnd (seam m)))
    (m.clk.inSeam = true → Leaves .seam s m) ∧
    (m.clk.inSeam = false →
      Leaves .seam s (perfSeam (powerSeam (memorySeam (fabricSeam (unloadSeam (activateTable (recordOutcomes h.1)))))) h.2)) ∧
    (haltSeam x).tk = { x.tk with halted := x.tk.halted ||| x.tk.haltNext, haltNext := 0 } ∧
    ((∀ k, tabGet x.tk.outcomes k 1 < 4) → n < 255 → (recordOutcomes x).fldOf (rTK_SLOT_STATE (n / 16)) (2 * (n % 16)) 2 = tabGet x.tk.outcomes n 1) ∧
    (x.tk.accepted = none → activateTable x = x) ∧
    (x.tk.accepted = some sub →
      (activateTable x).tk.active = sub.table ∧ (activateTable x).tk.shadow = x.tk.active ∧ (activateTable x).tk.bound = sub.bound ∧
        (activateTable x).tk.accepted = none ∧ (activateTable x).tk.timing = some (sub.period, sub.seam)) ∧
    ∃ y, Leaves .tickBoundary s (fabricBoundary (enableStages y)) ∧ y.clk.tick = (b.clk.tick + 1) % 2 ^ 48 ∧ y.clk.tickStart = tickEnd (seam m) ∧
      y.clk.now = b.clk.now ∧ y.clk.inSeam = false ∧ y.clk.coarseTick = stillCoarse { b with clk := { b.clk with tickStart := tickEnd (seam m) } } ∧
      y.tk.strict = b.flagOf rTK_CTRL 0 ∧ y.tk.outcomes = [] ∧ y.tk.stretched = 0 ∧ (∀ d < 96, bit y.pm.onTick d = isOn b d)

/-- R230, R241, R246–R250, R262–R266, R273–R285, R330, R332, R563, R564: a transfer is issued under the rules in force, completes with its bytes, its fault or its
revocation; a copied page waits for its seam; a flash write becomes durable; a block is relocated; a flip ends, and a bond that is due expires. -/
def Obligations.TransfersAndFlips : Prop :=
  ∀ (s : State) (id ce h p block : Nat) (e : XferEnd) (reads : List (Nat × Nat)) (x : Xfer) (a : Alloc) (w : FWrite) (rep : FtlReport) (t : Fin 64) (j : Fin 8)
    (c : Casc) (d : Bond),
    let m := s.taken
    let flashFull := x.kind = 1 ∧ m.flagOf rFL_STATUS 1 = true ∧ (findGen m x.h x.gen).any (fun a => inFlash a (x.off / pageSize)) = true
    let z := addCorrected (addReads m reads) ce
    let k := xferFault a x e
    let closes := fun (y : Mach) => releaseOld (dropXfer y x) x.h x.gen (x.off / pageSize)
    let hit := if e = .dramError then poisonPage z a (x.off / pageSize) true else if e = .flashError then poisonPage z a (x.off / pageSize) false else z
    let heldBack := heldBerths m &&& berthMask x.berth x.len
    let moved := moveBytes z x x.len
    let f := applyFtl (addReads m rep.reads) rep
    let marked := ({ f with fl := { f.fl with writes := mapIf (·.id == id) (fun w => { w with done := true }) f.fl.writes } } : Mach)
    let acted := durableAct marked w.act
    let g := addReads m rep.reads
    let relocated := { g.fl with reads := tabSet g.fl.reads block 0 0, backlog := g.fl.backlog.filter (· != block), relocs := g.fl.relocs + 1 }
    let y := (d.flip.map (fun f => advanceTo m (quayTime m (f + 16)))).getD m
    let b := beginFlip y t.val j.val
    let q := if d.flip = none then advanceTo b (b.clk.now + quayToRef (curPl b) 16) else b
    let due := advanceTo m (seamStart m)
    (m.mem.xfers.find? (·.id == id) = none → Leaves (.transferIssue id) s m ∧ Leaves (.transferComplete id e ce reads) s m) ∧
    (m.mem.xfers.find? (·.id == id) = some x →
      (mayIssue m x = false → Leaves (.transferIssue id) s m) ∧
      (mayIssue m x = true → xferGranted m x = false → Leaves (.transferIssue id) s
        (dropXfer (if x.kind = 0 then failList (raiseSlot m 0x0D07 x.tenant x.slot 0) x.list 0x0507 else raiseSlot m 0x0D07 x.tenant x.slot 0) x)) ∧
      (mayIssue m x = true → xferGranted m x = true → flashFull → Leaves (.transferIssue id) s (dropXfer (failRun m 0x0601 x.tenant x.slot) x)) ∧
      (mayIssue m x = true → xferGranted m x = true → ¬flashFull → ∃ xs, Leaves (.transferIssue id) s { m with mem := { m.mem with xfers := xs } } ∧
        xs.find? (·.id == id) = some { x with st := 1, epoch := m.fldOf rHM_RULE_EPOCH 0 16 } ∧ xs.length = m.mem.xfers.length) ∧
      (x.st = 0 ∨ (x.st = 1 ∧ heldBack ≠ 0) → Leaves (.transferComplete id e ce reads) s m) ∧
      (x.st = 2 → x.kind = 1 → Leaves (.transferComplete id e ce reads) s (closes (raiseSlot z 0x0D07 x.tenant x.slot 0))) ∧
      (2 ≤ x.st → ¬(x.st = 2 ∧ x.kind = 1) → Leaves (.transferComplete id e ce reads) s (closes z)) ∧
      (x.st = 1 → heldBack = 0 → findGen z x.h x.gen = some a →
        (k ≠ 0 → x.kind = 0 → Leaves (.transferComplete id e ce reads) s (closes (failList hit x.list k))) ∧
        (k ≠ 0 → x.kind ≠ 0 → Leaves (.transferComplete id e ce reads) s (closes (failRun hit k x.tenant x.slot))) ∧
        (k = 0 → x.kind = 0 → findList moved x.list = none → Leaves (.transferComplete id e ce reads) s (closes moved)) ∧
        (k = 0 → x.kind = 0 → ∀ l, findList moved x.list = some l → Leaves (.transferComplete id e ce reads) s
          (closes (putList moved { l with heat := l.heat ++ [(pageKey x.h x.gen (x.off / pageSize), x.len)] }))) ∧
        (k = 0 → x.kind ≠ 0 → Leaves (.transferComplete id e ce reads) s (closes (writeAlloc z a x.off (readBerths z x.berth x.len) 64 0
          (some (x.id, x.list, x.tenant, x.berth / 524288 + 64 * ((x.berth + x.len - 1) / 524288)))))))) ∧
    (findAlloc m h = some a → (a.page p).copy = 1 → Leaves (.pageCopyDone h p reads) s (putAlloc (addReads m reads) (a.setPage p { a.page p with copy := 2 }))) ∧
    (findAlloc m h = some a → (a.page p).copy ≠ 1 → Leaves (.pageCopyDone h p reads) s m) ∧
    (m.fl.writes.find? (·.id == id) = some w → (w.done = true ∨ w.held = true ∨ isOn m 16 = false) → Leaves (.writeDurable id rep) s m) ∧
    (m.fl.writes.find? (·.id == id) = some w → w.done = false → w.held = false → isOn m 16 = true → w.unmapped = false → w.xf = none → w.q < 64 →
      Leaves (.writeDurable id rep) s (settleUnlock (wakeCmd (settle acted.fl.writes [] acted) w.q w.cid))) ∧
    (tabGet m.fl.reads block 0 < m.fl.limit ∨ inhibited m = true ∨ mounted m = false → Leaves (.relocationDone block rep) s m) ∧
    (m.fl.limit ≤ tabGet m.fl.reads block 0 → inhibited m = false → mounted m = true → Leaves (.relocationDone block rep) s
      (applyFtl (({ g with fl := relocated } : Mach).setRegN rFL_RD_RELOC_COUNT (g.fl.relocs + 1)) rep)) ∧
    ((cascOf m t.val).bind (·.bond j.val) = none → Leaves (.commitFlipEnd t j) s m ∧ Leaves (.bondExpiry t j) s m) ∧
    ((cascOf m t.val).bind (·.bond j.val) = some d →
      (d.st = 0 ∨ (d.st = 1 ∧ d.flip = none ∧ m.clk.inSeam = false) → Leaves (.commitFlipEnd t j) s y) ∧
      (d.st ≠ 0 → ¬(d.st = 1 ∧ d.flip = none ∧ m.clk.inSeam = false) → Leaves (.commitFlipEnd t j) s
        (endDisarm (endFlip creditHeat (fun m n => runNotice m n.1 t.val n.2.1 n.2.2.1 n.2.2.2) q t.val j.val q.clk.now) t.val)) ∧
      (cascOf m t.val = some c → bondDue m c d = false → Leaves (.bondExpiry t j) s m) ∧
      (cascOf m t.val = some c → bondDue m c d = true → Leaves (.bondExpiry t j) s (dropBond (beginFlips due (quayNow due)) t.val j.val 0 true none)))

/-- R350–R362, R366–R369, R696, R705: an audio frame ends what the last one owes, records and plays it, and begins the next; a share ends; the tasks' stores to
the micro-array and the publication port take place; a confidence is published; a mirror is copied; a partition is cleared; the 32 kHz crystal. -/
def Obligations.LighthouseEvents : Prop :=
  ∀ (s : State) (f : FrameIn) (h : Fin 128) (c : Fin 8) (p : Fin 64) (r : SlotRun) (x : RingWrite) (y : Mach) (t conf : Nat) (nf : Int),
    let m := s.taken
    let heard := if m.pd.vioA then f else { f with caps := f.caps.map (·.map (fun _ => 0)), vad := f.vad.map (·.map (fun _ => 0)) }
    let g := closeRun (advanceTo m (lhTime m (r.start + r.length))) r
    let stores := fun (a : Nat) => (findRun m (256 + h.val)).any (fun r => nextStore r (· == a)) = true
    let rest := ({ m with sn := { m.sn with ring := m.sn.ring.erase x } } : Mach)
    let fits := isOn m 13 = true ∧ isOn m 15 = true ∧ m.clk.now ≤ x.due ∧ (findGen m x.h x.gen).any (fun a => decide (x.off + x.bytes.length ≤ a.size)) = true
    let lhOff := { m.lh with clearing := m.lh.clearing - 2 ^ p.val, sram := tabClear m.lh.sram (0x4000 * p.val) 0x4000 }
    let heldVad := advanceTo m t
    let given := ({ heldVad with lh := { m.lh with vad := { m.lh.vad with pend := none, floor := nf, first := false } } } : Mach).setRegN rLH_VAD_CONF conf
    Leaves (.audioFrame f) s (frameStartAll (sampleChg (sampleThermal (runRtc (frameEnd (advanceTo (settleFrame m) f.time) heard)) heard) f.chg)) ∧
    ((frameStartAll y).lh.frameStart = y.clk.now ∧ (frameStartAll y).regN rLH_FRAME = (y.regN rLH_FRAME + 1) % 2 ^ 32) ∧
    (findRun m (256 + h.val) = none → Leaves (.taskShareEnd h) s m) ∧
    (findRun m (256 + h.val) = some r →
      (g.2.reachedEnd = true → Leaves (.taskShareEnd h) s g.1) ∧
      (g.2.reachedEnd = false → Leaves (.taskShareEnd h) s (raiseT g.1 0x0801 g.2.tenant 0))) ∧
    (stores 0x100000 → Leaves (.microArrayStart h) s (resultLand m (256 + h.val))) ∧ (¬stores 0x100000 → Leaves (.microArrayStart h) s m) ∧
    (stores 0x100100 → Leaves (.stage1Publish h) s (resultLand m (256 + h.val))) ∧ (¬stores 0x100100 → Leaves (.stage1Publish h) s m) ∧
    (m.lh.vad.pend = none → Leaves .vadPublish s m) ∧
    (m.lh.vad.pend = some (t, conf, nf) → Leaves .vadPublish s
      (((m.cas.filter (fun c => c.armed && (c.stage 0).kind == 1)).map (·.tenant)).foldl (fun m k => publish m k 0 conf m.clk.now) given)) ∧
    (m.sn.ring.find? (fun r => r.stream == c.val && r.mirror == true) = none → Leaves (.mirrorCopy c) s m) ∧
    (m.sn.ring.find? (fun r => r.stream == c.val && r.mirror == true) = some x →
      (fits → Leaves (.mirrorCopy c) s (ringDone (storeAlloc rest x.h x.gen x.off x.bytes) c.val)) ∧
      (¬fits → Leaves (.mirrorCopy c) s (ringDone (missMirror c.val (advanceTo rest x.due)) c.val))) ∧
    (bit m.lh.clearing p.val = false → Leaves (.partitionClearDone p) s m) ∧
    (bit m.lh.clearing p.val = true → Leaves (.partitionClearDone p) s { m with lh := lhOff }) ∧
    (m.flagOf rLH_STATUS 0 = true → Leaves .xtal32Loss s m) ∧
    (m.flagOf rLH_STATUS 0 = false → Leaves .xtal32Loss s (raiseD (m.setFlagOf rLH_STATUS 0 true) 0x0806 0)) ∧
    Leaves .xtal32Relock s ((m.setFlagOf rLH_STATUS 0 false).setFlagOf rEF_START 7 true) ∧
    (m.flagOf rEF_START 7 = true ∨ m.flagOf rLH_STATUS 0 = false → Leaves .xtal32StartTimeout s m) ∧
    (m.flagOf rEF_START 7 = false → m.flagOf rLH_STATUS 0 = true → Leaves .xtal32StartTimeout s (raiseD m 0x1003 0))

/-- R380–R385, R389, R497: a due touch scan starts, queues or is lost; a measurement is stored and evaluated; a button's level is noted, wakes and is debounced;
a haptic pattern goes on; the RTC's alarm and period post their events; a queue pair changes host once nothing of it is outstanding. -/
def Obligations.TouchButtonsAndClock : Prop :=
  ∀ (s : State) (cnt : BitVec 16) (b : Fin 8) (level : Bool) (h : Fin 2) (t : Fin 64) (n : Nat) (ns : List Nat),
    let m := s.taken
    let u := m.lh.touch
    let due := ({ m with lh := { m.lh with touch := { u with due := false } } } : Mach)
    let taken := (advanceTo m (u.began + aonToRef (m.fldOf rLH_TOUCH_CFG 0 11))).setFldOf (rLH_TOUCH_CH n) 16 16 cnt.toNat
    let seen := if taken.flagOf (rLH_TOUCH_CH n) 0 then evalTouch taken n cnt.toNat else taken
    let next := { seen with lh := { seen.lh with touch := { seen.lh.touch with left := ns, began := seen.clk.now } } }
    let finished := { seen with lh := { seen.lh with touch := { seen.lh.touch with left := [], running := false } } }
    let w := m.reg (rLH_BTN_CFG b.val)
    let x := btn m b.val
    let edged := lateEdge m b.val
    let noted := { edged with lh := { edged.lh with btns := tabSet edged.lh.btns b.val { level, since := edged.clk.now } Btn.init } }
    let wakes := level = noted.flagOf (rLH_BTN_CFG b.val) 1 ∧
      (directPad noted b.val 0 = true ∨ (directPad noted b.val 1 = true ∧ blindAt noted noted.clk.now = false))
    let pressed := x.level == flag w 1
    let held := (advanceTo m (x.since + 38400 * fld w 8 8)).setFlagOf (rLH_BTN_CFG b.val) 16 pressed
    let k := hap m h.val
    let last := m.flagOf (rLH_HAP_STEP h.val k.step) 16 = true ∨ k.step = 31
    let alarmed := ({ m with lh := { m.lh with rtc := { m.lh.rtc with alarmDue := false } } } : Mach)
    let elapsed := ({ m with lh := { m.lh with rtc := { m.lh.rtc with periodDue := m.lh.rtc.periodDue - 1 } } } : Mach)
    let want := bit (m.reg64 rLH_RH_TENANTS_LO) t.val
    let changed := if want then m.hs.resident + 2 ^ t.val else m.hs.resident - 2 ^ t.val
    (u.due = false → Leaves .touchScanTimer s m) ∧
    (u.due = true → u.running = false → Leaves .touchScanTimer s (startScan due)) ∧
    (u.due = true → u.running = true → Leaves .touchScanTimer s (triggerScan due)) ∧
    (u.left = [] → Leaves (.touchMeasurementEnd cnt) s m) ∧
    (u.left = n :: ns →
      (u.abort = true → Leaves (.touchMeasurementEnd cnt) s (startScan taken)) ∧
      (u.abort = false → ns ≠ [] → Leaves (.touchMeasurementEnd cnt) s next) ∧
      (u.abort = false → ns = [] → u.queued = false → Leaves (.touchMeasurementEnd cnt) s finished) ∧
      (u.abort = false → ns = [] → u.queued = true → Leaves (.touchMeasurementEnd cnt) s (startScan finished))) ∧
    (x.level = level ∨ m.pd.vioA = false → Leaves (.buttonInput b level) s m) ∧
    (x.level ≠ level → m.pd.vioA = true → (wakes → Leaves (.buttonInput b level) s (padWake noted b.val)) ∧ (¬wakes → Leaves (.buttonInput b level) s noted)) ∧
    (flag w 0 = false ∨ pressed = flag w 16 → Leaves (.buttonDebounced b) s m) ∧
    (flag w 0 = true → pressed ≠ flag w 16 →
      (pressed = true → Leaves (.buttonDebounced b) s (postEvent held (0x8400 + b.val) 0)) ∧
      (pressed = false → flag w 2 = true → Leaves (.buttonDebounced b) s held) ∧
      (pressed = false → flag w 2 = false → Leaves (.buttonDebounced b) s (postEvent held (0x8500 + b.val) 0))) ∧
    (k.playing = false ∨ k.left ≠ 0 → Leaves (.hapticStepEnd h) s m) ∧
    (k.playing = true → k.left = 0 →
      (¬last → Leaves (.hapticStepEnd h) s (hapStep m h.val (k.step + 1) k.reps)) ∧
      (last → k.reps ≠ 0 → Leaves (.hapticStepEnd h) s (hapStep m h.val 0 (k.reps - 1))) ∧
      (last → k.reps = 0 → Leaves (.hapticStepEnd h) s (hapOut (setHap m h.val { k with playing := false, step := 0 }) h.val 0))) ∧
    (m.lh.rtc.alarmDue = false → Leaves .rtcAlarm s m) ∧ (m.lh.rtc.alarmDue = true → Leaves .rtcAlarm s (postEvent alarmed 0x8600 0)) ∧
    (m.lh.rtc.periodDue = 0 → Leaves .rtcPeriod s m) ∧ (m.lh.rtc.periodDue ≠ 0 → Leaves .rtcPeriod s (postEvent elapsed 0x8601 0)) ∧
    (want = isResident m t.val ∨ outstanding m t.val ≠ 0 → Leaves (.residentHostSwitch t) s m) ∧
    (want ≠ isResident m t.val → outstanding m t.val = 0 → Leaves (.residentHostSwitch t) s
      (showRh { m with hs := { m.hs with resident := changed } }))

/-- R404, R410–R415, R418–R428: frames open, take their lines and close with a record; in-band interrupts are answered or refused; sequences are triggered, start,
go on and end; edges are counted and reported. -/
def Obligations.CameraAndSensorEvents : Prop :=
  ∀ (s : State) (v : Fin 8) (csi dt addr : Nat) (late crcBad lost ok : Bool) (bs data : List Byte) (ecc : Ecc) (f : Frame) (fs : List Frame) (r l : Fin 2)
    (e : LaneEv) (k : Fin 2) (n : Fin 16) (w : Fin 4) (ev : WheelEv),
    let m := s.taken
    let runs := rxRuns m (v.val / 4) = true
    let on := m.flagOf (rCM_VC_CFG v.val) 0 = true
    let c := vctx m v.val
    let extra := leBytes 4 f.count ++ leBytes 2 f.csi ++ leBytes 2 f.lines ++ leBytes 4 0
    let payload := leBytes 8 f.feStamp ++ leBytes 4 f.byteCount ++ leBytes 4 f.alloc ++ leBytes 4 f.off ++ leBytes 2 f.bad
    let unknown := if knownDt dt then m else m.satFld (rCM_RX_ERR (v.val / 4)) 24 8 1
    let lane := if e = .stop then 0 else if e = .ulps then 1 else 2
    let shown := rxStatus { m with sn := { m.sn with lanes := tabSet m.sn.lanes (2 * r.val + l.val) lane 0 } } r.val
    let live := m.flagOf (rSN_I3C_CFG k.val) 0 = true ∧ m.flagOf (rSN_I3C_CFG k.val) 1 = false ∧ m.pd.vioA = true
    let target := (List.range 11).find? (fun i => addr != 0 && m.fldOf (rSN_I3C_DEV k.val i) 8 7 == addr && !m.flagOf (rSN_I3C_DEV k.val i) 16)
    let told := postEvent m (0x8900 + k.val) 0
    let q := seqSt m n.val
    let frm := if q.lastTrig = some m.clk.now then m.clk.now + 1 else m.clk.now
    let point := pointFrom (m.regN (rSN_SEQ_PERIOD n.val)) (m.regN (rSN_SEQ_PHASE n.val)) frm
    let same := (List.range 16).filter (fun k => seqCtrl m k == seqCtrl m n.val)
    let free := ¬(same.any (fun k => (seqSt m k).running) = true ∨ same.any (fun k => decide (k < n.val) && (seqSt m k).waiting.isSome) = true)
    let started := fun (d : Nat) => setSeqSt m n.val { q with waiting := none, running := true, step := 0, stamp := none,
                                                               source := strSource m (seqStream m n.val), bytes := [], ibi := d, err := false,
                                                               coarse := false, abort := none, delay := none }
    let nn := if bits (seqStep m n.val q.step) 0 4 = 1 then 0 else bits (seqStep m n.val q.step) 16 8
    let got := { q with bytes := q.bytes ++ (if ok then slice bs 0 nn else bs.take nn) }
    let cfg := m.reg (rSN_WHL_CFG w.val)
    let quad := w.val % 2 = 0 ∧ flag cfg 2 = true
    let stamp := edgeStamp m w.val
    let told2 := if (wheelSt m w.val).next ≤ stamp then wheelReport m w.val else m
    (¬(runs ∧ on) → Leaves (.frameStart v csi late) s m ∧ Leaves (.frameEnd v) s m) ∧
    (Leaves (.frameStart v csi late) s (frameStart m v.val csi late)) ∧
    (runs → on → c.frame = none → vcStream m v.val = none → frameStart m v.val csi late = m) ∧
    (∀ n, runs → on → c.frame = none → vcStream m v.val = some n → (sctx m n).bind = none → c.pend = none →
      ∃ f, (vctx (frameStart m v.val csi late) v.val).frame = some f ∧ f.stream = n ∧ f.stamp = m.clk.now ∧ f.csi = csi % 65536 ∧
        f.count = (m.regN (rCM_FRAME_COUNT v.val) + 1) % 2 ^ 32 ∧ f.seen = 0 ∧ f.lines = 0 ∧ f.alloc = c.alloc ∧ f.gen = c.gen ∧ f.off = c.off) ∧
    (runs → on → Leaves (.frameEnd v) s (closeFrame m v.val 0)) ∧
    (¬runs → Leaves (.longPacket v dt bs ecc crcBad lost) s m) ∧
    (runs → ecc = .double → Leaves (.longPacket v dt bs ecc crcBad lost) s (phyError (m.satFld (rCM_RX_ERR (v.val / 4)) 8 8 1) v.val)) ∧
    (runs → ecc ≠ .double → unknown.flagOf (rCM_VC_CFG v.val) 0 = false → Leaves (.longPacket v dt bs ecc crcBad lost) s unknown) ∧
    (runs → ecc ≠ .double → unknown.flagOf (rCM_VC_CFG v.val) 0 = true → knownDt dt = true → unknown.fldOf (rCM_VC_CFG v.val) 2 6 = dt →
      Leaves (.longPacket v dt bs ecc crcBad lost) s (frameLine unknown v.val dt bs crcBad lost)) ∧
    (runs → ecc ≠ .double → unknown.flagOf (rCM_VC_CFG v.val) 0 = true → (knownDt dt = false ∨ unknown.fldOf (rCM_VC_CFG v.val) 2 6 ≠ dt) →
      Leaves (.longPacket v dt bs ecc crcBad lost) s (unknown.setRegN (rCM_DT_DROP v.val) (unknown.regN (rCM_DT_DROP v.val) + 1))) ∧
    (c.closed = [] → Leaves (.frameRecord v) s m) ∧
    (c.closed = f :: fs → Leaves (.frameRecord v) s
      (produce (setVctx m v.val { c with closed := fs }) f.stream 2 f.stamp f.flags 22 v.val extra payload)) ∧
    (rxRuns m r.val = false → Leaves (.dphyLaneStateChange r l e) s m) ∧
    (rxRuns m r.val = true → e ≠ .hsSotError → Leaves (.dphyLaneStateChange r l e) s shown) ∧
    (rxRuns m r.val = true → e = .hsSotError → Leaves (.dphyLaneStateChange r l e) s (raiseD (shown.satFld (rCM_RX_ERR r.val) 0 8 1) 0x0904 r.val)) ∧
    (¬live → Leaves (.ibi k addr data) s m) ∧
    (live → target = none → Leaves (.ibi k addr data) s (nackIbi m k.val)) ∧
    (live → ∀ i, target = some i →
      let d := m.reg (rSN_I3C_DEV k.val i)
      (flag d 17 = false → Leaves (.ibi k addr data) s (nackIbi m k.val)) ∧
      (flag d 17 = true → (flag d 24 = false ∨ seqTrigger told (fld d 20 4) ≠ 1 ∨ seqCtrl told (fld d 20 4) ≠ k.val) → Leaves (.ibi k addr data) s told) ∧
      (flag d 17 = true → flag d 24 = true → seqTrigger told (fld d 20 4) = 1 → seqCtrl told (fld d 20 4) = k.val →
        Leaves (.ibi k addr data) s (trigger told (fld d 20 4) (leNat (slice data 0 4))))) ∧
    (m.flagOf (rSN_I3C_CFG k.val) 0 = true → m.pd.vioA = true → Leaves (.hotJoin k) s (nackIbi m k.val)) ∧
    (m.flagOf (rSN_I3C_CFG k.val) 0 = false ∨ m.pd.vioA = false → Leaves (.hotJoin k) s m) ∧
    (seqArmed m n.val = false ∨ seqTrigger m n.val ≠ 0 → Leaves (.timerTrigger n) s m) ∧
    (seqArmed m n.val = true → seqTrigger m n.val = 0 → Leaves (.timerTrigger n) s (trigger (advanceTo m point) n.val 0)) ∧
    (q.waiting = none → Leaves (.sequenceRunStart n) s m) ∧
    (∀ d, q.waiting = some d → (free → Leaves (.sequenceRunStart n) s (runStep (started d) n.val)) ∧ (¬free → Leaves (.sequenceRunStart n) s m)) ∧
    (q.running = false ∨ q.delay ≠ none → Leaves (.busTransactionDone n ok bs) s m) ∧
    (q.running = true → q.delay = none →
      (q.abort ≠ none → Leaves (.busTransactionDone n ok bs) s (endRun (setSeqSt m n.val got) n.val)) ∧
      (q.abort = none → (ok = false ∨ m.pd.vioA = false) → Leaves (.busTransactionDone n ok bs) s
        (endRun (raiseT (setSeqSt m n.val { got with err := true }) 0x0906 (seqOwner m n.val) n.val) n.val)) ∧
      (q.abort = none → ok = true → m.pd.vioA = true → Leaves (.busTransactionDone n ok bs) s
        (runStep (setSeqSt m n.val { got with step := q.step + 1 }) n.val))) ∧
    (q.delay = none → Leaves (.sequenceDelayEnd n) s m) ∧
    (∀ d, q.delay = some d → Leaves (.sequenceDelayEnd n) s
      (runStep (setSeqSt (advanceTo m d) n.val { q with delay := none, step := q.step + 1 }) n.val)) ∧
    (flag cfg 0 = false ∨ isBLine m w.val = true ∨ m.pd.vioA = false → Leaves (.wheelEdge w ev) s m) ∧
    (flag cfg 0 = true → isBLine m w.val = false → m.pd.vioA = true →
      (¬quad → Leaves (.wheelEdge w .rise) s (countEdge told2 w.val 1 stamp)) ∧
      (¬quad → flag cfg 1 = true → Leaves (.wheelEdge w .fall) s (countEdge told2 w.val 1 stamp)) ∧
      (¬quad → flag cfg 1 = false → Leaves (.wheelEdge w .fall) s told2) ∧
      (quad → Leaves (.wheelEdge w .bothLines) s (raiseT (setWheelSt told2 w.val { wheelSt told2 w.val with quadErr := true }) 0x0909
        (if strKind told2 (fld cfg 16 6) = 4 then strOwner told2 (fld cfg 16 6) else 0) w.val)) ∧
      (quad → Leaves (.wheelEdge w .up) s (countEdge told2 w.val 1 stamp)) ∧
      (quad → Leaves (.wheelEdge w .down) s (countEdge told2 w.val (-1) stamp))) ∧
    (m.flagOf (rSN_WHL_CFG w.val) 0 = false ∨ isBLine m w.val = true → Leaves (.wheelReport w) s m) ∧
    (m.flagOf (rSN_WHL_CFG w.val) 0 = true → isBLine m w.val = false →
      Leaves (.wheelReport w) s (wheelReport (advanceTo m (wheelSt m w.val).next) w.val))

/-- R445, R457, R476–R478, R482, R490–R497, R612, R659–R661, R693: a transition ends, or is abandoned at twice its time; a lowering begins once its work has
drained; the wakes post their events; the fusion engine processes a grid point and opens readmission after MASK_HOLD. -/
def Obligations.PowerAndWakeEvents : Prop :=
  ∀ (s : State) (d : Fin 96) (mountOk full : Bool) (p : Fin 4) (n : Fin 16) (t : Trans) (at' : Nat),
    let m := s.taken
    let e := endTrans m t mountOk
    let hand := if t.src < t.tgt then 50 else 0
    let late := advanceTo m (t.begun + hand + 2 * (t.due - t.begun - hand))
    let lowering := 18 ≤ d.val ∧ d.val ≤ 21 ∧ m.pm.trans.any (fun t => t.dom == d.val && decide (t.src < t.tgt)) = true
    let drained := mapIf (fun a => a.dom == d.val && a.drain) (fun a => { a with drain := false }) m.pm.acts
    let listens := domSt m (18 + p.val) = 1 ∧ inTrans m (18 + p.val) = false
    let mode := m.fldOf rPM_LINK_WAKE (2 * p.val) 2
    let k := m.fu.nextK
    let point := gridTime m k
    let g := countLates (openHolds (advanceTo m (point + m.regN rFU_LAT))) point
    let filters := k % max 1 (g.fldOf rFU_FILT 0 7) = 0
    let f := if filters then filterStep g point else if initDone g = true then strapdown g point else initPoint g point
    (m.pm.trans.find? (fun t => t.dom == d.val && !t.xtal) = none → Leaves (.domainTransitionComplete d mountOk full) s m) ∧
    (m.pm.trans.find? (fun t => t.dom == d.val && !t.xtal) = some t →
      (d.val = 15 → t.tgt = 0 → Leaves (.domainTransitionComplete d mountOk full) s (trained e t.src full)) ∧
      (d.val = 17 → t.tgt = 0 → Leaves (.domainTransitionComplete d mountOk full) s (qspiDrain s.fuses e)) ∧
      (¬(t.tgt = 0 ∧ (d.val = 15 ∨ d.val = 17)) → Leaves (.domainTransitionComplete d mountOk full) s e)) ∧
    (m.pm.trans.find? (·.dom == d.val) = none → Leaves (.transitionTimeout d) s m) ∧
    (m.pm.trans.find? (·.dom == d.val) = some t → t.xtal = true → Leaves (.transitionTimeout d) s m) ∧
    (m.pm.trans.find? (·.dom == d.val) = some t → t.xtal = false → Leaves (.transitionTimeout d) s (pumpPower (freeWakes (raiseD (abandon late t) 0x0B05 0)))) ∧
    (lowering → Leaves (.loweringStart d) s (sleepPort m (d.val - 18))) ∧
    (¬lowering → busyFor m d.val = true → Leaves (.loweringStart d) s m) ∧
    (¬lowering → busyFor m d.val = false → Leaves (.loweringStart d) s (pumpPower { m with pm := { m.pm with acts := drained } })) ∧
    (listens → mode = 1 → Leaves (.squelchBreak p) s (postEvent m (0x8800 + p.val) 0)) ∧
    (¬(listens ∧ mode = 1) → Leaves (.squelchBreak p) s m) ∧
    (listens → mode = 2 → Leaves (.wakePattern p) s (postEvent m (0x8800 + p.val) 0)) ∧
    (¬(listens ∧ mode = 2) → Leaves (.wakePattern p) s m) ∧
    (isQspi m = true ∨ isOn m 17 = true → Leaves .clkreqAssert s m) ∧ (isQspi m = false → isOn m 17 = false → Leaves .clkreqAssert s (hostWake m 0)) ∧
    (isQspi m = true → Leaves .perstDeassert s m) ∧ (isQspi m = false → Leaves .perstDeassert s (hostWake m 1)) ∧
    (isQspi m = false ∨ isOn m 17 = true → Leaves .qspiCsAssert s m) ∧ (isQspi m = true → isOn m 17 = false → Leaves .qspiCsAssert s (hostWake m 2)) ∧
    (fuRuns m = false → Leaves .gridPoint s m) ∧
    (fuRuns m = true → Leaves .gridPoint s { f with fu := { f.fu with nextK := k + 1, ents := f.fu.ents.map (pruneSamples point) } }) ∧
    ((fuEnt m n.val).openAt = none ∨ fuRuns m = false → Leaves (.maskHoldExpiry n) s m) ∧
    ((fuEnt m n.val).openAt = some at' → fuRuns m = true → Leaves (.maskHoldExpiry n) s (openEnt (advanceTo m at') n.val))

/-- R297–R299, R514–R524, R531–R535: the supply is measured and I_LIM follows; an exhausted burst waits for the seam; the assists and stretches are counted;
an undervolt and a thermal shutdown cut the running slots; the lowest droop is recorded; the comparators of VBAT act once. -/
def Obligations.DeliveryEvents : Prop :=
  ∀ (s : State) (vbat vres v c : Nat) (r : Fin 7),
    let m := s.taken
    let want := 2 * (plVolt (curPl m) + if pilotUp m then 20 else 0)
    let margin := if pilotDown m then 20 else 50
    let held := advanceTo m (quayTime m c)
    let last := m.tk.lastStretch.getD 0
    let next := if m.tk.lastStretch = none then some (max 63 (c + 1)) else if c < last then none else some (max (last + 64) (c + 1))
    let runs := m.clk.refStopped = false ∧ quadOn m = true
    (∃ x, Leaves (.ilimUpdate vbat vres) s x ∧ x.regN rPD_VBAT = vbat % 2 ^ 32 ∧ x.regN rPD_RES_VOLT = vres % 2 ^ 32 ∧
      x.regN rPD_RES_ENERGY = eBurst m vres % 2 ^ 32 ∧
      x.regN rPD_ILIM_NOW = (if m.pd.vresMin = true ∨ vbat % 2 ^ 32 = 0 then 3000 else min 3000 (pLim m * 1000 / (vbat % 2 ^ 32))) ∧
      x.tk = m.tk ∧ x.pm = m.pm ∧ x.st = m.st) ∧
    (m.pd.profileNext = some false → Leaves .burstEnergyExhausted s { m.setRegN rPD_RES_ENERGY 0 with pd := { m.pd with undockSpent := true } }) ∧
    (m.pd.profileNext ≠ some false → Leaves .burstEnergyExhausted s { m.setRegN rPD_RES_ENERGY 0 with pd := { m.pd with spent := true } }) ∧
    (∃ x, Leaves .reservoirVResMin s x ∧ x.regN rPD_RES_VOLT = 2900 ∧ x.regN rPD_RES_ENERGY = 0 ∧ x.regN rPD_ILIM_NOW = 3000 ∧
      x.pd = { m.pd with vresMin := true } ∧ x.tk = m.tk) ∧
    (v + 30 < want → Leaves (.stepAssist v) s (m.setRegN rPD_ASSIST_COUNT (m.regN rPD_ASSIST_COUNT + 1))) ∧
    (want ≤ v + 30 → Leaves (.stepAssist v) s m) ∧
    (want + margin < v → Leaves (.releaseShunt v) s (m.setRegN rPD_SHUNT_COUNT (m.regN rPD_SHUNT_COUNT + 1))) ∧
    (v ≤ want + margin → Leaves (.releaseShunt v) s m) ∧
    (¬runs ∨ 2 * plVolt (curPl m) ≤ v + 60 → Leaves (.droopStretch v c) s m) ∧
    (runs → v + 60 < 2 * plVolt (curPl m) → next = none → Leaves (.droopStretch v c) s held) ∧
    (runs → v + 60 < 2 * plVolt (curPl m) → ∀ k, next = some k → ∃ x, Leaves (.droopStretch v c) s x ∧ x.clk = held.clk ∧
      x.tk = { m.tk with stretched := m.tk.stretched + 1, lastStretch := some k } ∧ x.regN rPD_STRETCH_COUNT = (m.regN rPD_STRETCH_COUNT + 1) % 2 ^ 32 ∧
      x.flagOf rPD_STATUS 7 = true ∧ x.st = m.st ∧ x.ef = m.ef) ∧
    (¬runs → Leaves (.railUndervolt c) s m) ∧
    (runs → Leaves (.railUndervolt c) s (cutRuns (raiseAt held 0x0C05 0 true 0xFFFF 0xFFFFFFFF 0) c)) ∧
    (m.fldOf (rPD_DROOP_MIN r.val) 0 12 ≤ v → Leaves (.droopRecorderMinimum r v) s m) ∧
    (v < m.fldOf (rPD_DROOP_MIN r.val) 0 12 → ∃ x, Leaves (.droopRecorderMinimum r v) s x ∧ x.fldOf (rPD_DROOP_MIN r.val) 0 12 = v ∧
      x.reg64 (rPD_DROOP_TICK_LO r.val) = m.clk.tick % 2 ^ 64 ∧ x.ef = m.ef ∧ x.clk = m.clk ∧ x.tk = m.tk) ∧
    (m.flagOf rPD_STATUS 6 = true → Leaves .thermalShutdownComparator s m) ∧
    (m.flagOf rPD_STATUS 6 = false → Leaves .thermalShutdownComparator s (thermalShutdown m)) ∧
    (m.flagOf rPD_STATUS 8 = true → Leaves .vWarnAssert s m) ∧
    (m.flagOf rPD_STATUS 8 = false → Leaves .vWarnAssert s (raiseT (m.setFlagOf rPD_STATUS 8 true) 0x0C01 0 0)) ∧
    Leaves .vWarnDeassert s (m.setFlagOf rPD_STATUS 8 false) ∧
    (m.flagOf rPD_STATUS 9 = true → Leaves .vNvwAssert s m ∧ Leaves .vNvwDeassert s (leaveInhibit (m.setFlagOf rPD_STATUS 9 false))) ∧
    (m.flagOf rPD_STATUS 9 = false → Leaves .vNvwAssert s (enterInhibit (m.setFlagOf rPD_STATUS 9 true)) ∧ Leaves .vNvwDeassert s m) ∧
    (m.flagOf rPD_STATUS 10 = true → Leaves .vRetAssert s m) ∧
    (m.flagOf rPD_STATUS 10 = false → Leaves .vRetAssert s (retentionOrder (raiseT (m.setFlagOf rPD_STATUS 10 true) 0x0C02 0 0))) ∧
    Leaves .vRetDeassert s (m.setFlagOf rPD_STATUS 10 false)

/-- R14, R225, R536, R583, R690–R697, R711, R723, R724: a brown-out reset keeps what flash, the keep-alive supply and the model's own counter hold; the start
runs its steps in order to an accepted image or to ROM recovery; boundary scan takes every domain down and ends what runs; the banks' supplies are followed. -/
def Obligations.ResetAndStart : Prop :=
  ∀ (s : State) (z : StartIn) (kind : Nat) (h up hiV : Bool) (y : Mach) (a : Nat),
    let m := s.taken
    let b := brownOut m (if m.pm.start = some 0 then 0 else 1)
    let clocks := startClocks s.fuses z kind m
    let counted := ({ clocks with fl := { clocks.fl with boots := clocks.fl.boots + 1 } } : Mach).setRegN rHM_BOOT_COUNT (clocks.fl.boots + 1)
    let t := trainOutcome z.train
    let trained := (advanceTo counted (counted.clk.now + t.1)).setFlagOf rEF_START 2 t.2.1
    let dram := ((setDom trained 15 0).setFlagOf rDM_STATUS 0 true).setFlagOf rDM_STATUS 1 t.2.1
    let ends := fun (x : Mach) => if kind = 2 then x else passTime x
    let tried := (bootTry s.fuses z.damaged (bootOrder y.fl)).1
    let waited := (advanceTo y (y.clk.now + (tried.map imageTime).foldl (· + ·) 0)).setFldOf rEF_START 8 4 (min tried.length 15)
    (Leaves .brownOutReset s b ∧ b.pm.start = some (if m.pm.start = some 0 then 0 else 1) ∧ b.fl = keptFlash m.fl ∧ b.lh.rtc = m.lh.rtc ∧
      b.latch = m.latch ∧ b.fresh = m.fresh ∧ b.mem.allocs = keptAllocs m ∧ b.mem.gens = m.mem.gens ∧ b.pd.vioA = m.pd.vioA ∧ b.pd.vioH = m.pd.vioH ∧
      b.clk.now = 0 ∧ b.clk.tick = 0 ∧ b.tk = Tick.init ∧ b.cas = [] ∧ b.hs.cmds = [] ∧ b.ef.rings = [] ∧ b.sto.progs = [] ∧ b.hm = Harbour.init ∧
      (∀ a ∈ keptRegs, b.reg a = m.reg a) ∧ (a ∉ keptRegs → b.reg a = regReset a)) ∧
    (m.pm.start = none ∨ m.pm.start = some 2 → Leaves .keepAliveLoss s m) ∧
    (m.pm.start ≠ none → m.pm.start ≠ some 2 → ∃ x, Leaves .keepAliveLoss s x ∧ x.latch = [] ∧ x.lh = { m.lh with rtc := Rtc.init } ∧
      x.pm = { m.pm with start := some 0 } ∧ (∀ k ∈ keptRegs, x.reg k = regReset k) ∧ (a ∉ keptRegs → x.reg a = m.reg a) ∧ x.fl = m.fl ∧ x.mem = m.mem) ∧
    (m.pm.start = none → Leaves (.brownOutRelease z) s m) ∧
    (m.pm.start = some kind →
      (t.2.2 = true → Leaves (.brownOutRelease z) s (ends (startBoot s.fuses z kind m.clk.now (startMount z dram)))) ∧
      (t.2.2 = false → Leaves (.brownOutRelease z) s (ends (enterRecovery (raiseD (setDom trained 15 2) 0x1002 0))))) ∧
    (startBoot s.fuses z kind a y = (bootTry s.fuses z.damaged (bootOrder y.fl)).2.elim
      (enterRecovery ((List.range tried.length).foldl (fun m _ => raiseD m 0x0D09 0) waited)) (fun i => bootFirmware s.fuses z i kind a (tried.length - 1) waited)) ∧
    (m.hm.extest = true ∨ m.pd.vioA = false → Leaves .extestEntry s m) ∧
    (m.hm.extest = false → m.pd.vioA = true → ∃ x, Leaves .extestEntry s x ∧ x.hm = { Harbour.init with extest := true } ∧ x.pm.dom = [] ∧ x.pm.trans = [] ∧
      x.pm.acts = [] ∧ x.st.runs = [] ∧ x.ef.rings = [] ∧ x.hs.cmds = [] ∧ x.hs.queues = []) ∧
    (m.hm.extest = true → Leaves .extestExit s b) ∧ (m.hm.extest = false → Leaves .extestExit s m) ∧
    (h = true → Leaves (.vioBankSupplyChange h up hiV) s
      { m with pd := { m.pd with vioH := up, vioHHigh := if up = true ∧ m.pd.vioH = false then hiV else m.pd.vioHHigh } }) ∧
    (h = false → up = true → Leaves (.vioBankSupplyChange h up hiV) s { m with pd := { m.pd with vioA := true } }) ∧
    (h = false → up = false → ∃ x, Leaves (.vioBankSupplyChange h up hiV) s x ∧ x.pd = { m.pd with vioA := false } ∧
      (∀ k < 8, (btn x k).level = false ∧ ((btn m k).level = false → btn x k = btn m k)) ∧ x.regs = m.regs ∧ x.clk = m.clk)

/-- R604, R606, R608, R610, R612, R615, R616: a port takes a flit in order and acknowledges it, or asks once for a replay; an ACK returns credits and frees the
replay buffer; unacknowledged flits are resent; training goes on to ACTIVE or starts again; a port leaves ACTIVE. -/
def Obligations.FabricPortEvents : Prop :=
  ∀ (s : State) (p : Fin 4) (bs : List Byte) (blockErr aligned locked ready : Bool) (body : Nat) (y : Mach),
    let m := s.taken
    let c := port m p.val
    let active := portState m p.val = 2
    let crcBad := byteFld bs 72 4 ≠ crc32 (bs.take 72)
    let counted := if crcBad then m.satFld (rCH_PORT_ERR p.val) 0 16 1 else m
    let bad := crcBad ∨ blockErr = true ∨ bs.length ≠ 80 ∨ byteFld bs 76 1 ≠ c.exp
    let taken := setPort m p.val { c with exp := (c.exp + 1) % 256, nakd := false }
    let sent := ((c.sent.findIdx? (fun e => byteFld e.1 76 1 == bits body 8 8)).map (fun i => c.sent.drop (i + 1))).getD c.sent
    let freed := setPort m p.val { c with credits := c.credits.zipIdx.map (fun e => e.1 + bits body (17 + 4 * e.2) 4), sent,
                                          lastAdv := if sent.length < c.sent.length then m.clk.now else c.lastAdv }
    let cy := port y p.val
    let due := advanceTo m (c.trainAt + 3840)
    let missed := setPort due p.val { c with locked := false, ready := false, fails := c.fails + 1, failRaised := c.failRaised || decide (8 ≤ c.fails + 1),
                                             trainAt := due.clk.now + 38400 }
    let mayTrain := portRuns m p.val = true ∧ (portState m p.val = 1 ∨ portState m p.val = 3) ∧ c.trainAt ≤ m.clk.now
    let w := if portState m p.val = 3 then enterTrain m p.val m.clk.now else m
    let cw := port w p.val
    let l := cw.locked || aligned
    let r := cw.ready || (l && locked)
    let answered := (setPort w p.val { cw with locked := l, ready := r }).emit (.link p.val (leBytes 8 (0x78 + 2 ^ 16 * b2n l + 2 ^ 17 * b2n r)))
    (¬active → Leaves (.flit p bs blockErr) s m ∧ Leaves (.ack p body) s m ∧ Leaves (.replayTimeout p) s m ∧ Leaves (.sleep p) s m ∧
      Leaves (.blockLockLoss p) s m) ∧
    (active → bad → c.nakd = true → Leaves (.flit p bs blockErr) s counted) ∧
    (active → bad → c.nakd = false → Leaves (.flit p bs blockErr) s (sendAck (setPort counted p.val { c with nakd := true }) p.val true)) ∧
    (active → ¬bad → Leaves (.flit p bs blockErr) s (pumpPorts (sendAck (acceptFlit taken p.val (bs.take 72)) p.val false))) ∧
    (active → bit body 16 = false → Leaves (.ack p body) s (pumpPorts freed)) ∧
    (active → bit body 16 = true → Leaves (.ack p body) s (pumpPorts (resend freed p.val))) ∧
    (active → c.sent = [] → Leaves (.replayTimeout p) s m) ∧
    (active → c.sent ≠ [] → Leaves (.replayTimeout p) s (resend (advanceTo m (c.lastAdv + 77)) p.val)) ∧
    (cy.sent = [] → resend y p.val = y) ∧
    (cy.sent ≠ [] → cy.sent.any (fun e => decide (8 ≤ e.2)) = true → resend y p.val = linkFails y p.val) ∧
    (cy.sent ≠ [] → cy.sent.any (fun e => decide (8 ≤ e.2)) = false → p.val < y.ch.ports.length →
      (port (resend y p.val) p.val).sent = cy.sent.map (fun e => (e.1, e.2 + 1)) ∧ (resend y p.val).out = y.out ++ cy.sent.map (fun e => Out.link p.val e.1)) ∧
    (active → Leaves (.sleep p) s (leaveActive m p.val 3)) ∧
    (active → Leaves (.blockLockLoss p) s (leaveActive m p.val (if portRuns m p.val then 1 else 0))) ∧
    (¬mayTrain → Leaves (.train p aligned locked ready) s m) ∧
    (mayTrain → (r = true ∧ ready = true) → Leaves (.train p aligned locked ready) s (enterActive answered p.val)) ∧
    (mayTrain → ¬(r = true ∧ ready = true) → Leaves (.train p aligned locked ready) s answered) ∧
    (portState m p.val ≠ 1 → Leaves (.trainingTimeout p) s m) ∧
    (portState m p.val = 1 → (c.fails < 7 ∨ c.failRaised = true) → Leaves (.trainingTimeout p) s missed) ∧
    (portState m p.val = 1 → 7 ≤ c.fails → c.failRaised = false → Leaves (.trainingTimeout p) s (raiseD missed 0x0E02 p.val))

/-- R337, R614–R619, R623, R625, R626, R630, R633–R638: each message of the fabric does what its rule says once it is received, and a machine without one is
unchanged; the topology, assignment, routing and cut-off timers act when they are due. -/
def Obligations.FabricMessages : Prop :=
  ∀ (s : State) (f2 f3 : Fin 64) (x : Msg) (y : Mach) (w : WaitRec) (j : Job) (g : JGroup) (t1 at' : Nat) (P : Partials),
    let m := s.taken
    let got := fun (code : Nat) => takeMsg m (ctrlMsg code) = some (x, y)
    let topo := readTopo x.data
    let stale := topo.uid = selfUid ∨ (topoOf y topo.uid).any (fun o => !newer16 topo.seq o.seq) = true
    let a := readAssign x.data
    let old := a.leader = y.ch.lastAssignLeader ∧ newer16 a.gen y.ch.lastGen = false
    let t2 := ftime16 y x.at' + (f2.val * 1024 : Nat)
    let t3 := ftime16 y y.clk.now + (f3.val * 1024 : Nat)
    let sent : Int := (t1 + f2.val * 1024 : Nat)
    let back : Int := (x.at' * 65536 + f3.val * 1024 : Nat)
    let up := signedOf 80 (wrapInt 80 ((byteFld x.data 0 10 : Nat) - sent))
    let down := signedOf 80 (wrapInt 80 ((byteFld x.data 10 10 : Nat) - back))
    let heard := setPort y x.port { port y x.port with syncT1 := none }
    let hops := ((distFrom heard (leaderUid heard)).find? (·.1 == selfUid)).map (·.2) |>.getD 0
    let landable := fun (x : Msg) => x.typ == 1 && (sendRec m x).any (fun w => ((tdesc w.dst).berths 0 &&& heldBerths m) == 0)
    let tick := parityTick y x.tp
    let asked := (jobOf y x.ten).bind (fun j => (j.group x.chan).map (fun g => (j, g)))
    let known := (outcomeOf y x.ten x.chan tick).isSome = true ∨ (j.group x.chan).isNone = true
    let res := if x.shard = 0 then some x.data else none
    let noted := ({ y with ch := { y.ch with outs := y.ch.outs ++ [{ tenant := x.ten, tick := tick, group := x.chan, res }] } } : Mach)
    let chosen := if x.arr then countChoice noted x.ten 1 else noted
    let recs := chosen.ch.recs.filter (fun w => w.kind == 2 && w.tenant == x.ten && w.chan == x.chan && w.tick == tick)
    let placed := if x.shard = 0 then recs.foldl (fun m w => placeData m w x.data) chosen else chosen
    let ofTick := byteFld x.data 16 8
    let past := (fabricTick y + 2 ^ 48 - ofTick) % 2 ^ 48
    let waits := past = 0 ∨ 2 ^ 47 ≤ past
    let acted := applyHandoff y x x.at'
    let word := byteFld x.data 0 4
    (takeMsg m (ctrlMsg 1) = none → Leaves .hello s m) ∧
    (got 1 → Leaves .hello s (decideAdmission (setPort y x.port { port y x.port with hello := some (slice x.data 0 64) }) x.port)) ∧
    (takeMsg m (ctrlMsg 2) = none → Leaves .cert s m) ∧
    (got 2 → Leaves .cert s (decideAdmission (setPort y x.port { port y x.port with cert := some x.data }) x.port)) ∧
    (takeMsg m (ctrlMsg 8) = none → Leaves .topo s m) ∧ (got 8 → stale → Leaves .topo s y) ∧
    (got 8 → ¬stale → ∃ n, Leaves .topo s (flood n x.port 8 topo.data) ∧ topoOf n topo.uid = some topo) ∧
    ((m.clk.tick + 2 ^ 48 - m.ch.topoTick) % 2 ^ 48 < 256 → Leaves .topoTimer s m) ∧
    (256 ≤ (m.clk.tick + 2 ^ 48 - m.ch.topoTick) % 2 ^ 48 → Leaves .topoTimer s (sendTopo m)) ∧
    (isLeader m = false ∨ (connectedSet m).length ≤ 1 ∨ contentDigest m = m.ch.lastDigest → Leaves .assignTimer s m) ∧
    (isLeader m = true → 1 < (connectedSet m).length → contentDigest m ≠ m.ch.lastDigest → ∃ n b, Leaves .assignTimer s (flood n 4 9 (assignData b)) ∧
      b.leader = selfUid ∧ b.uids = (connectedSet m).take 64 ∧ b.period = m.regN rTK_PERIOD ∧ b.swap = (fabricTick m + 16) % 2 ^ 48 ∧
      b.gen = ((if m.ch.lastAssignLeader = selfUid then m.ch.lastGen else 0) + 1) % 65536) ∧
    (takeMsg m (ctrlMsg 9) = none → Leaves .assign s m) ∧ (got 9 → old → Leaves .assign s y) ∧
    (got 9 → ¬old → Leaves .assign s
      (flood (actOnAssign { y with ch := { y.ch with lastGen := a.gen, lastAssignLeader := a.leader } } a) x.port 9 x.data)) ∧
    (m.ch.oldUntil = none → Leaves .routeTableRelease s m) ∧
    (m.ch.oldUntil = some at' → Leaves .routeTableRelease s { (advanceTo m at') with ch := { m.ch with oldUntil := none } }) ∧
    (takeMsg m (ctrlMsg 3) = none → Leaves (.syncReq f2 f3) s m) ∧
    (got 3 → Leaves (.syncReq f2 f3) s (sendLink y x.port 4 (slice (stampBytes t2 ++ stampBytes t3) 0 64))) ∧
    (takeMsg m (ctrlMsg 4) = none → Leaves (.syncResp f2 f3) s m) ∧ (got 4 → (port y x.port).syncT1 = none → Leaves (.syncResp f2 f3) s y) ∧
    (got 4 → (port y x.port).syncT1 = some t1 → Leaves (.syncResp f2 f3) s
      (applyTheta ((heard.setFldOf rCH_SYNC 16 2 x.port).setFldOf rCH_SYNC 18 3 hops) ((up + down) / 2))) ∧
    (takeMsg m landable = none → Leaves .sendTransfer s m) ∧
    (takeMsg m landable = some (x, y) → sendRec y x = some w → Leaves .sendTransfer s (placeData y w x.data)) ∧
    (takeMsg m (fun x => x.typ == 2) = none → Leaves .redUp s m) ∧
    (takeMsg m (fun x => x.typ == 2) = some (x, y) → asked = none → Leaves .redUp s y) ∧
    (takeMsg m (fun x => x.typ == 2) = some (x, y) → asked = some (j, g) → ¬(g.home = selfId y ∧ bit g.shards x.shard = true) → Leaves .redUp s y) ∧
    (takeMsg m (fun x => x.typ == 2) = some (x, y) → asked = some (j, g) → g.home = selfId y → bit g.shards x.shard = true → Leaves .redUp s
      (partialArrives y j g (partsOf y x.ten x.chan tick) x.shard x.at' x.data)) ∧
    (cutoffDue m = none → Leaves .cutoffExpiry s m) ∧
    (cutoffDue m = some (P, at') → Leaves .cutoffExpiry s (setParts (advanceTo m at') (switchOrder m P))) ∧
    (takeMsg m (fun x => x.typ == 3) = none → Leaves .redDown s m) ∧
    (takeMsg m (fun x => x.typ == 3) = some (x, y) → jobOf y x.ten = none → Leaves .redDown s y) ∧
    (takeMsg m (fun x => x.typ == 3) = some (x, y) → jobOf y x.ten = some j → known → Leaves .redDown s y) ∧
    (takeMsg m (fun x => x.typ == 3) = some (x, y) → jobOf y x.ten = some j → ¬known → Leaves .redDown s (trySendDigest placed j tick)) ∧
    (takeMsg m (ctrlMsg 0x10) = none → Leaves .digest s m) ∧
    (got 0x10 → Leaves .digest s
      { y with ch := { y.ch with digests := y.ch.digests ++ [{ tenant := x.ten, tick := byteFld x.data 8 8, node := x.src, value := x.data.take 8 }] } }) ∧
    (takeMsg m (ctrlMsg 0x11) = none → Leaves .verdict s m) ∧
    (got 0x11 → Leaves .verdict s
      { y with ch := { y.ch with verdicts := y.ch.verdicts ++ [(x.ten, byteFld x.data 0 8, byteFld x.data 8 1 == 1)] } }) ∧
    (takeMsg m (ctrlMsg 0x12) = none → Leaves .cascade s m) ∧
    (got 0x12 → waits → Leaves .cascade s { y with ch := { y.ch with early := y.ch.early ++ [x] } }) ∧
    (got 0x12 → ¬waits → (x.at' = acted.clk.tickStart ∧ past = 1) → Leaves .cascade s acted) ∧
    (got 0x12 → ¬waits → ¬(x.at' = acted.clk.tickStart ∧ past = 1) → Leaves .cascade s (raiseT acted 0x0705 (bits word 0 6) 0)) ∧
    (takeMsg m (fun x => x.typ == 4) = none → Leaves .peerTransfer s m) ∧
    (takeMsg m (fun x => x.typ == 4) = some (x, y) → Leaves .peerTransfer s ((peerContexts y x).foldl (peerDeliver x) y)) ∧
    (∀ n, n ∈ peerContexts y x ↔ n < 48 ∧ strKind y n = 5 ∧ streamGranted y (strOwner y n) 5 (strSource y n) = true ∧ strSource y n < 48 ∧
      y.flagOf (rCH_PEER_IN (strSource y n)) 0 = true ∧ y.fldOf (rCH_PEER_IN (strSource y n)) 8 6 = x.src ∧
      y.fldOf (rCH_PEER_IN (strSource y n)) 16 6 = x.chan ∧ y.fldOf (rCH_PEER_IN (strSource y n)) 24 6 = x.ten)

/-- R389, R656–R658, R666, R667, R672–R675, R681, R695, R697: doorbells are checked in order and move the tail or the head; the entry at the head is fetched and
waits for its command; a command that took time posts its completion; coalesced vectors are sent; the link resets, trains, sleeps and returns. -/
def Obligations.HostEvents : Prop :=
  ∀ (s : State) (q : Fin 64) (v : Word) (ok32 lost down : Bool) (dma : Option (List Byte)) (e : List Byte) (cid : Nat) (c : RunCmd) (p : Cpl) (speed : Fin 5)
    (width : Fin 3),
    let m := s.taken
    let t := q.val
    let open' := isOn m 17 = true ∧ ok32 = true ∧ isResident m t = false ∧ qEnabled m t = true
    let head := m.fldOf (rHS_Q_STATUS t) 0 12
    let mayFetch := qEnabled m t = true ∧ isResident m t = false ∧ serving m t = true ∧ inD3 m = false ∧ isOn m 17 = true ∧ head ≠ (queueOf m t).tail ∧
      outstanding m t < 64 ∧ outstanding m t < cqFree m t
    let loc := m.flagOf (rHS_Q_CFG t) 1
    let entry := if loc then some (memRead m.hs.sram 0 (m.reg64 (rHS_SQ_BASE_LO t) + 64 * head) 64) else dma
    let moved := m.setFldOf (rHS_Q_STATUS t) 0 12 ((head + 1) % sqDepth m t)
    let fetched : RunCmd := ⟨t, byteFld e 2 2, byteFld e 0 1, bit (byteFld e 1 1) 0, false, 0, none, [], 0, 0⟩
    let joined := ({ moved with hs := { moved.hs with cmds := m.hs.cmds ++ [fetched] } } : Mach)
    let broken := fun (m : Mach) => raiseT ((stopQueue m t).setFlagOf (rHS_Q_STATUS t) 29 true) 0x0F04 t 0
    let logged := dropCmd (if p.status ≠ 0 then raiseT m p.status t p.detail else if c.op = 0x2D then logLoad m c else m) t cid
    let then' := fun (y : Mach) => if closedForBoot s.fuses m q cid then { y with pm := { y.pm with start := some 2 } } else y
    let onLink := fun (m : Mach) => qEnabled m t = true ∧ m.flagOf (rHS_Q_CFG t) 1 = false ∧ isResident m t = false ∧ isOn m 17 = true ∧ inD3 m = false
    let fails := lost = true ∧ onLink logged
    let qq := queueOf m t
    let time := m.fldOf (rHS_Q_IRQ t) 8 16
    let off := (resetMsix (dropExternal m)).setFlagOf rHS_MODE 6 false
    let pool := 31 * linkRate speed.val * width.val / 320
    let shown := ((((m.setFldOf rHS_MODE 1 3 speed.val).setFldOf rHS_MODE 4 2 width.val).setFldOf (rCR_RES_POOL 1) 0 16 pool).setFldOf (rCR_RES_POOL 2) 0 16 pool)
    let short := pool < 31 ∧ (pool < resSum shown 1 ∨ pool < resSum shown 2)
    (isOn m 17 = false → Leaves (.sqTailDoorbell q v ok32) s (accessError m 1) ∧ Leaves (.cqHeadDoorbell q v ok32) s (accessError m 1)) ∧
    (isOn m 17 = true → ok32 = false → Leaves (.sqTailDoorbell q v ok32) s (accessError m 3) ∧ Leaves (.cqHeadDoorbell q v ok32) s (accessError m 3)) ∧
    (isOn m 17 = true → ok32 = true → isResident m t = true →
      Leaves (.sqTailDoorbell q v ok32) s (accessError m 4) ∧ Leaves (.cqHeadDoorbell q v ok32) s (accessError m 4)) ∧
    (isOn m 17 = true → ok32 = true → isResident m t = false → qEnabled m t = false →
      Leaves (.sqTailDoorbell q v ok32) s (accessError m 5) ∧ Leaves (.cqHeadDoorbell q v ok32) s (accessError m 5)) ∧
    (open' → sqDepth m t ≤ v.toNat → Leaves (.sqTailDoorbell q v ok32) s (raiseT m 0x0F05 t 0)) ∧
    (open' → v.toNat < sqDepth m t → Leaves (.sqTailDoorbell q v ok32) s (setQueue m t { qq with tail := v.toNat })) ∧
    (open' → cqDepth m t ≤ v.toNat → Leaves (.cqHeadDoorbell q v ok32) s (raiseT m 0x0F05 t 0)) ∧
    (open' → v.toNat < cqDepth m t → Leaves (.cqHeadDoorbell q v ok32) s (setQueue m t { qq with used := min qq.used ((m.fldOf (rHS_Q_STATUS t) 16 12 + cqDepth m t - v.toNat) % cqDepth m t) })) ∧
    (¬mayFetch ∨ (inRecovery m = true ∧ loc = false) → Leaves (.commandFetch q dma) s m) ∧
    (mayFetch → ¬(inRecovery m = true ∧ loc = false) → entry = none → Leaves (.commandFetch q dma) s (broken m)) ∧
    (mayFetch → ¬(inRecovery m = true ∧ loc = false) → entry = some e → opcodes.contains fetched.op = true → Leaves (.commandFetch q dma) s joined) ∧
    (mayFetch → ¬(inRecovery m = true ∧ loc = false) → entry = some e → opcodes.contains fetched.op = false →
      Leaves (.commandFetch q dma) s (badOpcode joined q fetched.cid fetched.op)) ∧
    (findCmd m t cid = none → ¬(lost = true ∧ onLink m) → Leaves (.commandComplete q cid lost) s m) ∧
    (findCmd m t cid = none → lost = true → onLink m → Leaves (.commandComplete q cid lost) s (broken m)) ∧
    (findCmd m t cid = some c → c.begun = false → opcodes.contains c.op = true → Leaves (.commandComplete q cid lost) s m) ∧
    (findCmd m t cid = some c → c.begun = false → opcodes.contains c.op = false → Leaves (.commandComplete q cid lost) s (badOpcode m q cid c.op)) ∧
    (findCmd m t cid = some c → c.begun = true → (c.cpl = none ∨ c.wait ≠ 0) → Leaves (.commandComplete q cid lost) s m) ∧
    (findCmd m t cid = some c → c.begun = true → c.cpl = some p → cmdHeld m c p = true → Leaves (.commandComplete q cid lost) s m) ∧
    (findCmd m t cid = some c → c.begun = true → c.cpl = some p → c.wait = 0 → cmdHeld m c p = false →
      (fails → Leaves (.commandComplete q cid lost) s (then' (broken logged))) ∧
      (¬fails → Leaves (.commandComplete q cid lost) s (then' (postCpl logged p)))) ∧
    (qq.unsig = 0 ∨ time = 0 → Leaves (.irqCoalesceTimer q) s m) ∧
    (qq.unsig ≠ 0 → time ≠ 0 → Leaves (.irqCoalesceTimer q) s (sendVec (setQueue (advanceTo m (qq.unsigAt + usToRef time)) t { qq with unsig := 0 }) (2 * t))) ∧
    (isQspi m = true → Leaves (.linkReset down) s m ∧ Leaves .d3hotEntry s m ∧ Leaves .d0Return s m) ∧
    (isQspi m = false →
      Leaves (.linkReset down) s (raiseT ((if down then off.setFldOf rHS_MODE 1 5 0 else off).setFlagOf rHS_EVENTS 0 true) 0x0F08 0 0) ∧
      Leaves .d3hotEntry s (m.setFlagOf rHS_MODE 6 true) ∧ Leaves .d0Return s (postHeld (m.setFlagOf rHS_MODE 6 false))) ∧
    (isQspi m = true ∨ isOn m 17 = false → Leaves (.linkTrained speed width) s m) ∧
    (isQspi m = false → isOn m 17 = true → ¬short → Leaves (.linkTrained speed width) s shown) ∧
    (isQspi m = false → isOn m 17 = true → short → Leaves (.linkTrained speed width) s (raiseT (shown.setFlagOf rHS_EVENTS 1 true) 0x0F09 0 0))

/-! ## The block -/

/-- A step takes the command at the front of the queue and carries it out on the state with the queue's rest. -/
def Obligations.StepTakesTheFront : Prop :=
  ∀ (c : Instr) (rest : List Instr) (s : State), s.pending = c :: rest → step s = exec c { s with pending := rest }

/-- The model's choice (log 2), over R18 and R404: while no command waits, a step lets time pass: one reference cycle, or, while the reference is stopped, one
AON cycle, counted as 12 and 13 in turn, so that two of them are 25; nothing else changes but what was sent. -/
def Obligations.TimePassesWhileIdle : Prop :=
  ∀ s : State, s.pending = [] →
    let m := s.mach
    (m.clk.refStopped = false → step s = .next { s with mach := { m with out := [], clk := { m.clk with now := m.clk.now + 1 } } }) ∧
    (m.clk.refStopped = true → m.clk.coarse13 = false →
      step s = .next { s with mach := { m with out := [], clk := { m.clk with now := m.clk.now + 12, coarse13 := true } } }) ∧
    (m.clk.refStopped = true → m.clk.coarse13 = true →
      step s = .next { s with mach := { m with out := [], clk := { m.clk with now := m.clk.now + 13, coarse13 := false } } })

/-- R14, R16, R17, R20, R375, R403, R445, R499, R576, R620: what the machine holds at reset: every register its table's value, no command, device time and
the tick counter 0, MUTE 1, HM alone on beside AON, nothing fused, one node; that its start is a power-on start still to run is R690's. -/
def Obligations.ResetState : Prop :=
  let m := State.reset.mach
  (∀ a, m.reg a = regReset a) ∧ State.reset.pending = [] ∧ State.reset.fuses = ⟨none, 0⟩ ∧ m.clk.now = 0 ∧ m.clk.tick = 0 ∧ m.pm.start = some 0 ∧
    m.regN rTK_PERIOD = 76800 ∧ m.regN rTK_SEAM_LEN = 960 ∧ m.regN rFU_LAT = 192000 ∧ m.flagOf rLH_MIC_MUTE 0 = true ∧ curPl m = 4 ∧ m.fldOf rCH_NODE 16 7 = 1 ∧
    (∀ d < 96, isOn m d = (d == 26)) ∧ m.mem.allocs = [] ∧ m.cas = [] ∧ m.sto.progs = [] ∧ m.st.runs = [] ∧ m.st.berth = [] ∧ m.hs.cmds = [] ∧ m.ef.rings = []

/-- R701–R703: at a command's end its faults are written in ascending CODE order, those of one code as they were raised; a repeat of the newest unread record
of a ring counts in it, a record that meets a full ring is lost and counted, and any other is written and moves HEAD, ring t sending vector 2t + 1; a TAIL that
would leave more than the ring's size unread is discarded. -/
def Obligations.FaultRecords : Prop :=
  ∀ (s : State) (x : Mach) (r : FaultRec) (p : Path) (t : Fin 64) (v : Word) (ctx : Nat),
    let m := s.taken
    let head := x.fldOf (rEF_HEAD r.tenant) 0 16
    let dhead := x.fldOf rEF_DEV_HEAD 0 16
    let unread := (head + 2 ^ 16 - x.fldOf (rEF_TAIL r.tenant) 0 16) % 2 ^ 16
    let dunread := (dhead + 2 ^ 16 - x.fldOf rEF_DEV_TAIL 0 16) % 2 ^ 16
    let seen := hideRec r.tenant r
    let last := 64 * r.tenant + (head + 2 ^ 16 - 1) % 64
    let dlast := (dhead + 2 ^ 16 - 1) % 1024
    let newest := tabGet x.ef.rings last FaultRec.zero
    let dnewest := tabGet x.ef.dev dlast FaultRec.zero
    let left := (m.fldOf (rEF_HEAD t.val) 0 16 + 65536 - v.toNat % 65536) % 65536
    let dleft := (m.fldOf rEF_DEV_HEAD 0 16 + 65536 - v.toNat % 65536) % 65536
    (∃ rs : List FaultRec, flushFaults x = rs.foldl writeRec { x with ef := { x.ef with raised := [] } } ∧ rs.Perm x.ef.raised ∧
      rs.Pairwise (fun a b => a.code ≤ b.code) ∧ ∀ c, rs.filter (·.code == c) = x.ef.raised.filter (·.code == c)) ∧
    (isOn x 26 = true → writeRec x r = writeDevRing (writeTenantRing x r) r) ∧
    (unread ≠ 0 → sameRec newest seen = true → (writeTenantRing x r).regs = x.regs ∧ (writeTenantRing x r).out = x.out ∧
      tabGet (writeTenantRing x r).ef.rings last FaultRec.zero = { newest with rept := satAdd 16 newest.rept 1 }) ∧
    (¬(unread ≠ 0 ∧ sameRec newest seen = true) → unread = 64 → writeTenantRing x r = x.satFld (rEF_LOST r.tenant) 0 16 1) ∧
    (¬(unread ≠ 0 ∧ sameRec newest seen = true) → unread ≠ 64 → writeTenantRing x r =
      sendVec (({ x with ef := { x.ef with rings := tabSet x.ef.rings (64 * r.tenant + head % 64) seen FaultRec.zero } } : Mach).incFld (rEF_HEAD r.tenant) 0 16 1)
        (2 * r.tenant + 1)) ∧
    (dunread ≠ 0 → sameRec dnewest r = true → (writeDevRing x r).regs = x.regs ∧
      tabGet (writeDevRing x r).ef.dev dlast FaultRec.zero = { dnewest with rept := satAdd 16 dnewest.rept 1 }) ∧
    (¬(dunread ≠ 0 ∧ sameRec dnewest r = true) → dunread = 1024 → writeDevRing x r = x.satFld rEF_DEV_LOST 0 16 1) ∧
    (¬(dunread ≠ 0 ∧ sameRec dnewest r = true) → dunread ≠ 1024 → writeDevRing x r =
      ({ x with ef := { x.ef with dev := tabSet x.ef.dev (dhead % 1024) r FaultRec.zero } } : Mach).incFld rEF_DEV_HEAD 0 16 1) ∧
    (WriteOk m p (rEF_TAIL t.val) ctx →
      (left ≤ 64 → Leaves (.efTail p (some t) v) s (m.setRegN (rEF_TAIL t.val) (v.toNat % 65536))) ∧ (64 < left → Leaves (.efTail p (some t) v) s m)) ∧
    (WriteOk m p rEF_DEV_TAIL ctx →
      (dleft ≤ 1024 → Leaves (.efTail p none v) s (m.setRegN rEF_DEV_TAIL (v.toNat % 65536))) ∧ (1024 < dleft → Leaves (.efTail p none v) s m))

/-- R477, whole: a transition that has taken twice its time, and its handshake, is abandoned at that time: it is no transition any more when what waited may begin,
its domain is in the state it left, and PM_TRANSITION_TIMEOUT is raised for the device. -/
def Obligations.TransitionTimeoutAbandons : Prop :=
  ∀ (s : State) (d : Fin 96) (t : Trans),
    let m := s.taken
    let hand := if t.src < t.tgt then 50 else 0
    m.pm.trans.find? (·.dom == d.val) = some t → t.xtal = false → domSt m d.val = t.src →
      ∃ x y rec, Leaves (.transitionTimeout d) s x ∧ x = pumpPower (freeWakes y) ∧ (∀ u ∈ y.pm.trans, u.dom ≠ d.val) ∧ domSt x d.val = t.src ∧ rec ∈ x.ef.raised ∧ rec.code = 0x0B05 ∧ rec.device = true ∧
        x.clk.now = max m.clk.now (t.begun + hand + 2 * (t.due - t.begun - hand)) ∧ x.tk = m.tk ∧ x.st = m.st ∧ x.mem = m.mem

/-- R576, whole: the fused counter starts at 0, and no step lowers it. -/
def Obligations.SvnOnlyRises : Prop :=
  State.reset.fuses.svn = 0 ∧ ∀ s t : State, step s = .next t → s.fuses.svn ≤ t.fuses.svn

/-! ## What every step keeps -/

/-- R575, R676, R701: every step answers a next state: the command leaves the queue, no other does; its faults have become records; an owner that was enrolled
stays enrolled, and what is fused changes by OWNER_ENROLL and SVN_COMMIT alone. -/
def Obligations.EveryStepSettles : Prop :=
  ∀ s : State, ∃ t, step s = .next t ∧ t.pending = s.pending.tail ∧ (Settled s ∨ s.pending ≠ [] → Settled t) ∧
    (∀ k, s.fuses.owner = some k → t.fuses.owner = some k) ∧
    (t.fuses ≠ s.fuses → (∃ cmd r, s.pending.head? = some (.ownerEnroll cmd r)) ∨ ∃ cmd, s.pending.head? = some (.svnCommit cmd))

/-- R17, R403: every step keeps the tick counter within its 48 bits, and device time never decreases but in a brown-out reset, which EXTEST's exit is too. -/
def Obligations.EveryStepKeepsTheClocks : Prop :=
  ∀ s t : State, Kept s → step s = .next t →
    Kept t ∧ (s.pending.head? ≠ some .brownOutReset → s.pending.head? ≠ some .extestExit → s.mach.clk.now ≤ t.mach.clk.now)

/-- At reset the tick counter is within its 48 bits, and no fault waits. -/
def Obligations.KeptAtReset : Prop := Kept State.reset
end

