-- ==== Sys2Proof/Laws/Table.lean ====
section
/-!
SUPPORT. The laws of sparse tables and byte memories: what a read after a write gives, and that every operation keeps the canonical form.
-/
namespace Sys2Proof.Machine

variable {β : Type}

/-- A key that was put is found; the others are found as before. -/
theorem tabFind_tabPut (t : Tab β) (a k : Nat) (x : β) : tabFind (tabPut t a x) k = if k = a then some x else tabFind t k := by
  induction t with
  | nil => simp [tabPut, tabFind, eq_comm]
  | cons e t ih =>
    obtain ⟨j, v⟩ := e
    unfold tabPut
    split
    · simp [tabFind, eq_comm]
    · split
      · subst_vars; simp only [tabFind]; split <;> simp_all [eq_comm]
      · simp only [tabFind, ih]; split <;> simp_all [eq_comm]

/-- A deleted key is not found; the others are found as before. -/
theorem tabFind_tabDel (t : Tab β) (a k : Nat) : tabFind (tabDel t a) k = if k = a then none else tabFind t k := by
  induction t with
  | nil => simp [tabDel, tabFind]
  | cons e t ih =>
    obtain ⟨j, v⟩ := e
    unfold tabDel at ih ⊢
    simp only [List.filter_cons]
    split
    · simp only [tabFind, ih]; split <;> simp_all
    · simp only [tabFind, ih]
      split
      · rfl
      · rw [if_neg (by rintro rfl; simp_all)]

/-- A read after a write gives the value written; a read of another key gives what it gave before. -/
theorem tabGet_tabSet [DecidableEq β] (t : Tab β) (a k : Nat) (x d : β) :
    tabGet (tabSet t a x d) k d = if k = a then x else tabGet t k d := by
  unfold tabGet tabSet
  split
  · rw [tabFind_tabDel]; split <;> simp_all
  · rw [tabFind_tabPut]; split <;> simp_all

@[simp] theorem tabGet_tabSet_same [DecidableEq β] (t : Tab β) (a : Nat) (x d : β) : tabGet (tabSet t a x d) a d = x := by
  rw [tabGet_tabSet, if_pos rfl]

theorem tabGet_tabSet_ne [DecidableEq β] (t : Tab β) {a k : Nat} (x d : β) (h : k ≠ a) :
    tabGet (tabSet t a x d) k d = tabGet t k d := by
  rw [tabGet_tabSet, if_neg h]

/-- A read after a change of one key. -/
theorem tabGet_tabMod [DecidableEq β] (t : Tab β) (a k : Nat) (d : β) (f : β → β) :
    tabGet (tabMod t a d f) k d = if k = a then f (tabGet t a d) else tabGet t k d := tabGet_tabSet ..

/-! ## The canonical form -/

/-- The canonical form as a pairwise property: keys strictly rise, and no entry holds the default. -/
def tabOk (t : Tab β) (d : β) : Prop := t.Pairwise (fun x y => x.1 < y.1) ∧ ∀ e ∈ t, e.2 ≠ d

theorem tabOk_nil (d : β) : tabOk ([] : Tab β) d := ⟨List.Pairwise.nil, by simp⟩

theorem tabOk_filter {t : Tab β} {d : β} (h : tabOk t d) (p : Nat × β → Bool) : tabOk (t.filter p) d :=
  ⟨h.1.filter _, fun e he => h.2 e (List.mem_of_mem_filter he)⟩

theorem tabOk_del {t : Tab β} {d : β} (h : tabOk t d) (a : Nat) : tabOk (tabDel t a) d := tabOk_filter h _

theorem tabOk_clear {t : Tab β} {d : β} (h : tabOk t d) (lo n : Nat) : tabOk (tabClear t lo n) d := tabOk_filter h _

/-- The entries of a table with a key put are the entry put and old entries. -/
theorem mem_tabPut {t : Tab β} {a : Nat} {x : β} {e : Nat × β} (h : e ∈ tabPut t a x) : e = (a, x) ∨ e ∈ t := by
  induction t with
  | nil => simpa [tabPut] using h
  | cons f t ih =>
    obtain ⟨j, v⟩ := f
    unfold tabPut at h
    split at h
    · simpa using h
    · split at h
      · rcases List.mem_cons.1 h with h | h <;> simp [h]
      · rcases List.mem_cons.1 h with h | h
        · simp [h]
        · rcases ih h with h | h <;> simp [h]

theorem tabOk_put {t : Tab β} {d : β} (h : tabOk t d) (a : Nat) {x : β} (hx : x ≠ d) : tabOk (tabPut t a x) d := by
  refine ⟨?_, fun e he => ?_⟩
  · obtain ⟨hr, -⟩ := h
    induction t with
    | nil => simp [tabPut]
    | cons f t ih =>
      obtain ⟨j, v⟩ := f
      rw [List.pairwise_cons] at hr
      unfold tabPut
      split
      · rename_i hl
        refine List.pairwise_cons.2 ⟨fun e he => ?_, List.pairwise_cons.2 hr⟩
        rcases List.mem_cons.1 he with rfl | he
        · exact hl
        · exact lt_trans hl (hr.1 e he)
      · split
        · subst_vars; exact List.pairwise_cons.2 hr
        · refine List.pairwise_cons.2 ⟨fun e he => ?_, ih hr.2⟩
          rcases mem_tabPut he with rfl | he
          · simp only; omega
          · exact hr.1 e he
  · rcases mem_tabPut he with rfl | he
    · exact hx
    · exact h.2 e he

theorem tabOk_set [DecidableEq β] {t : Tab β} {d : β} (h : tabOk t d) (a : Nat) (x : β) : tabOk (tabSet t a x d) d := by
  unfold tabSet; split
  · exact tabOk_del h a
  · exact tabOk_put h a ‹_›

theorem tabOk_mod [DecidableEq β] {t : Tab β} {d : β} (h : tabOk t d) (a : Nat) (f : β → β) : tabOk (tabMod t a d f) d := tabOk_set h _ _

/-- The canonical form as it is computed. -/
theorem tabRising_some (b : Nat) (t : Tab β) :
    tabRising (some b) t = true ↔ (∀ e ∈ t, b < e.1) ∧ t.Pairwise (fun x y => x.1 < y.1) := by
  induction t generalizing b with
  | nil => simp [tabRising]
  | cons e t ih =>
    obtain ⟨k, v⟩ := e
    simp only [tabRising, Bool.and_eq_true, decide_eq_true_eq, ih, List.pairwise_cons, List.mem_cons, forall_eq_or_imp]
    constructor
    · rintro ⟨h1, h2, h3⟩; exact ⟨⟨h1, fun e he => lt_trans h1 (h2 e he)⟩, h2, h3⟩
    · rintro ⟨⟨h1, -⟩, h2, h3⟩; exact ⟨h1, h2, h3⟩

theorem tabRising_none (t : Tab β) : tabRising none t = true ↔ t.Pairwise (fun x y => x.1 < y.1) := by
  cases t with
  | nil => simp [tabRising]
  | cons e t => obtain ⟨k, v⟩ := e; simp [tabRising, tabRising_some, List.pairwise_cons]

/-- Memory.wf says the canonical form. -/
theorem Memory.wf_iff (t : Tab Byte) (d : Byte) : Memory.wf t d = true ↔ tabOk t d := by
  simp [Memory.wf, tabOk, tabRising_none]

theorem Memory.wf_nil (d : Byte) : Memory.wf [] d = true := by simp [Memory.wf, tabRising]

/-- A byte stored keeps the canonical form. -/
theorem Memory.wf_set {t : Tab Byte} {d : Byte} (h : Memory.wf t d = true) (a : Nat) (x : Byte) : Memory.wf (tabSet t a x d) d = true :=
  (wf_iff _ _).2 (tabOk_set ((wf_iff _ _).1 h) a x)

/-- Bytes stored keep the canonical form. -/
theorem Memory.wf_write {t : Tab Byte} {d : Byte} (h : Memory.wf t d = true) (a : Nat) (bs : List Byte) :
    Memory.wf (memWrite t d a bs) d = true := by
  induction bs generalizing t a with
  | nil => exact h
  | cons b bs ih => exact ih (Memory.wf_set h a b) _

/-- Clearing a range keeps the canonical form. -/
theorem Memory.wf_clear {t : Tab Byte} {d : Byte} (h : Memory.wf t d = true) (lo n : Nat) : Memory.wf (tabClear t lo n) d = true :=
  (wf_iff _ _).2 (tabOk_clear ((wf_iff _ _).1 h) lo n)

/-! ## Byte memories -/

/-- What one address reads after bytes were stored. -/
theorem tabGet_memWrite (t : Tab Byte) (d : Byte) (a k : Nat) (bs : List Byte) :
    tabGet (memWrite t d a bs) k d = if a ≤ k ∧ k < a + bs.length then bs.getD (k - a) d else tabGet t k d := by
  induction bs generalizing t a with
  | nil => simp [memWrite]
  | cons b bs ih =>
    rw [memWrite, ih, tabGet_tabSet]
    by_cases h : k = a
    · subst h; simp
    · by_cases h2 : a + 1 ≤ k ∧ k < a + 1 + bs.length
      · rw [if_pos h2, if_pos (by simp; omega)]
        obtain ⟨n, hn⟩ : ∃ n, k = a + 1 + n := ⟨k - (a + 1), by omega⟩
        subst hn
        rw [show a + 1 + n - (a + 1) = n by omega, show a + 1 + n - a = n + 1 by omega]; simp
      · rw [if_neg h2, if_neg h, if_neg (by simp; omega)]

/-- Bytes stored leave every other address alone. -/
theorem tabGet_memWrite_ne (t : Tab Byte) (d : Byte) {a k : Nat} (bs : List Byte) (h : k < a ∨ a + bs.length ≤ k) :
    tabGet (memWrite t d a bs) k d = tabGet t k d := by
  rw [tabGet_memWrite, if_neg (by omega)]

/-- A range reads what its addresses read. -/
theorem memRead_congr {t t' : Tab Byte} {d : Byte} {a n : Nat} (h : ∀ k, a ≤ k → k < a + n → tabGet t' k d = tabGet t k d) :
    memRead t' d a n = memRead t d a n := by
  induction n generalizing a with
  | zero => rfl
  | succ n ih => rw [memRead, memRead, h a le_rfl (by omega), ih (fun k h1 h2 => h k (by omega) (by omega))]

@[simp] theorem memRead_length (t : Tab Byte) (d : Byte) (a n : Nat) : (memRead t d a n).length = n := by
  induction n generalizing a with
  | zero => rfl
  | succ n ih => simp [memRead, ih]

/-- A range that was stored reads as it was stored. -/
theorem memRead_memWrite (t : Tab Byte) (d : Byte) (a : Nat) (bs : List Byte) : memRead (memWrite t d a bs) d a bs.length = bs := by
  induction bs generalizing t a with
  | nil => rfl
  | cons b bs ih =>
    rw [memWrite, List.length_cons, memRead, ih, tabGet_memWrite_ne _ _ _ (.inl (by omega)), tabGet_tabSet_same]

@[simp] theorem leBytes_length (n v : Nat) : (leBytes n v).length = n := by
  induction n generalizing v with
  | zero => rfl
  | succ n ih => simp [leBytes, ih]

/-- The bytes of a number spell it modulo their width. -/
theorem leNat_leBytes (n v : Nat) : leNat (leBytes n v) = v % 2 ^ (8 * n) := by
  induction n generalizing v with
  | zero => simp [leBytes, leNat, Nat.mod_one]
  | succ n ih =>
    rw [leBytes, leNat, ih, BitVec.toNat_ofNat, show 8 * (n + 1) = 8 + 8 * n by ring, pow_add, Nat.mod_mul]
    norm_num

end Sys2Proof.Machine
end

