-- ==== Sys2Proof/Laws/State.lean ====
section
/-!
SUPPORT. What each update of the machine leaves alone: one lemma for each part and update, true by unfolding.
-/
namespace Sys2Proof.Machine

variable (m : Mach)

@[simp] theorem Mach.setReg_shadow (a : Nat) (w : Word) : (m.setReg a w).shadow = m.shadow := rfl
@[simp] theorem Mach.setReg_held (a : Nat) (w : Word) : (m.setReg a w).held = m.held := rfl
@[simp] theorem Mach.setReg_clk (a : Nat) (w : Word) : (m.setReg a w).clk = m.clk := rfl
@[simp] theorem Mach.setReg_ef (a : Nat) (w : Word) : (m.setReg a w).ef = m.ef := rfl
@[simp] theorem Mach.setReg_hs (a : Nat) (w : Word) : (m.setReg a w).hs = m.hs := rfl
@[simp] theorem Mach.setReg_pm (a : Nat) (w : Word) : (m.setReg a w).pm = m.pm := rfl
@[simp] theorem Mach.setReg_pd (a : Nat) (w : Word) : (m.setReg a w).pd = m.pd := rfl
@[simp] theorem Mach.setReg_latch (a : Nat) (w : Word) : (m.setReg a w).latch = m.latch := rfl
@[simp] theorem Mach.setReg_tk (a : Nat) (w : Word) : (m.setReg a w).tk = m.tk := rfl
@[simp] theorem Mach.setReg_st (a : Nat) (w : Word) : (m.setReg a w).st = m.st := rfl
@[simp] theorem Mach.setReg_sto (a : Nat) (w : Word) : (m.setReg a w).sto = m.sto := rfl
@[simp] theorem Mach.setReg_cas (a : Nat) (w : Word) : (m.setReg a w).cas = m.cas := rfl
@[simp] theorem Mach.setReg_lh (a : Nat) (w : Word) : (m.setReg a w).lh = m.lh := rfl
@[simp] theorem Mach.setReg_mem (a : Nat) (w : Word) : (m.setReg a w).mem = m.mem := rfl
@[simp] theorem Mach.setReg_fl (a : Nat) (w : Word) : (m.setReg a w).fl = m.fl := rfl
@[simp] theorem Mach.setReg_hm (a : Nat) (w : Word) : (m.setReg a w).hm = m.hm := rfl
@[simp] theorem Mach.setReg_sn (a : Nat) (w : Word) : (m.setReg a w).sn = m.sn := rfl
@[simp] theorem Mach.setReg_fu (a : Nat) (w : Word) : (m.setReg a w).fu = m.fu := rfl
@[simp] theorem Mach.setReg_ch (a : Nat) (w : Word) : (m.setReg a w).ch = m.ch := rfl
@[simp] theorem Mach.setReg_out (a : Nat) (w : Word) : (m.setReg a w).out = m.out := rfl
@[simp] theorem Mach.setReg_fresh (a : Nat) (w : Word) : (m.setReg a w).fresh = m.fresh := rfl

@[simp] theorem Mach.setRegN_shadow (a v : Nat) : (m.setRegN a v).shadow = m.shadow := rfl
@[simp] theorem Mach.setRegN_held (a v : Nat) : (m.setRegN a v).held = m.held := rfl
@[simp] theorem Mach.setRegN_clk (a v : Nat) : (m.setRegN a v).clk = m.clk := rfl
@[simp] theorem Mach.setRegN_ef (a v : Nat) : (m.setRegN a v).ef = m.ef := rfl
@[simp] theorem Mach.setRegN_hs (a v : Nat) : (m.setRegN a v).hs = m.hs := rfl
@[simp] theorem Mach.setRegN_pm (a v : Nat) : (m.setRegN a v).pm = m.pm := rfl
@[simp] theorem Mach.setRegN_pd (a v : Nat) : (m.setRegN a v).pd = m.pd := rfl
@[simp] theorem Mach.setRegN_latch (a v : Nat) : (m.setRegN a v).latch = m.latch := rfl
@[simp] theorem Mach.setRegN_tk (a v : Nat) : (m.setRegN a v).tk = m.tk := rfl
@[simp] theorem Mach.setRegN_st (a v : Nat) : (m.setRegN a v).st = m.st := rfl
@[simp] theorem Mach.setRegN_sto (a v : Nat) : (m.setRegN a v).sto = m.sto := rfl
@[simp] theorem Mach.setRegN_cas (a v : Nat) : (m.setRegN a v).cas = m.cas := rfl
@[simp] theorem Mach.setRegN_lh (a v : Nat) : (m.setRegN a v).lh = m.lh := rfl
@[simp] theorem Mach.setRegN_mem (a v : Nat) : (m.setRegN a v).mem = m.mem := rfl
@[simp] theorem Mach.setRegN_fl (a v : Nat) : (m.setRegN a v).fl = m.fl := rfl
@[simp] theorem Mach.setRegN_hm (a v : Nat) : (m.setRegN a v).hm = m.hm := rfl
@[simp] theorem Mach.setRegN_sn (a v : Nat) : (m.setRegN a v).sn = m.sn := rfl
@[simp] theorem Mach.setRegN_fu (a v : Nat) : (m.setRegN a v).fu = m.fu := rfl
@[simp] theorem Mach.setRegN_ch (a v : Nat) : (m.setRegN a v).ch = m.ch := rfl
@[simp] theorem Mach.setRegN_out (a v : Nat) : (m.setRegN a v).out = m.out := rfl
@[simp] theorem Mach.setRegN_fresh (a v : Nat) : (m.setRegN a v).fresh = m.fresh := rfl

@[simp] theorem Mach.setFldOf_shadow (a lo n v : Nat) : (m.setFldOf a lo n v).shadow = m.shadow := rfl
@[simp] theorem Mach.setFldOf_held (a lo n v : Nat) : (m.setFldOf a lo n v).held = m.held := rfl
@[simp] theorem Mach.setFldOf_clk (a lo n v : Nat) : (m.setFldOf a lo n v).clk = m.clk := rfl
@[simp] theorem Mach.setFldOf_ef (a lo n v : Nat) : (m.setFldOf a lo n v).ef = m.ef := rfl
@[simp] theorem Mach.setFldOf_hs (a lo n v : Nat) : (m.setFldOf a lo n v).hs = m.hs := rfl
@[simp] theorem Mach.setFldOf_pm (a lo n v : Nat) : (m.setFldOf a lo n v).pm = m.pm := rfl
@[simp] theorem Mach.setFldOf_pd (a lo n v : Nat) : (m.setFldOf a lo n v).pd = m.pd := rfl
@[simp] theorem Mach.setFldOf_latch (a lo n v : Nat) : (m.setFldOf a lo n v).latch = m.latch := rfl
@[simp] theorem Mach.setFldOf_tk (a lo n v : Nat) : (m.setFldOf a lo n v).tk = m.tk := rfl
@[simp] theorem Mach.setFldOf_st (a lo n v : Nat) : (m.setFldOf a lo n v).st = m.st := rfl
@[simp] theorem Mach.setFldOf_sto (a lo n v : Nat) : (m.setFldOf a lo n v).sto = m.sto := rfl
@[simp] theorem Mach.setFldOf_cas (a lo n v : Nat) : (m.setFldOf a lo n v).cas = m.cas := rfl
@[simp] theorem Mach.setFldOf_lh (a lo n v : Nat) : (m.setFldOf a lo n v).lh = m.lh := rfl
@[simp] theorem Mach.setFldOf_mem (a lo n v : Nat) : (m.setFldOf a lo n v).mem = m.mem := rfl
@[simp] theorem Mach.setFldOf_fl (a lo n v : Nat) : (m.setFldOf a lo n v).fl = m.fl := rfl
@[simp] theorem Mach.setFldOf_hm (a lo n v : Nat) : (m.setFldOf a lo n v).hm = m.hm := rfl
@[simp] theorem Mach.setFldOf_sn (a lo n v : Nat) : (m.setFldOf a lo n v).sn = m.sn := rfl
@[simp] theorem Mach.setFldOf_fu (a lo n v : Nat) : (m.setFldOf a lo n v).fu = m.fu := rfl
@[simp] theorem Mach.setFldOf_ch (a lo n v : Nat) : (m.setFldOf a lo n v).ch = m.ch := rfl
@[simp] theorem Mach.setFldOf_out (a lo n v : Nat) : (m.setFldOf a lo n v).out = m.out := rfl
@[simp] theorem Mach.setFldOf_fresh (a lo n v : Nat) : (m.setFldOf a lo n v).fresh = m.fresh := rfl

@[simp] theorem Mach.setFlagOf_shadow (a i : Nat) (b : Bool) : (m.setFlagOf a i b).shadow = m.shadow := rfl
@[simp] theorem Mach.setFlagOf_held (a i : Nat) (b : Bool) : (m.setFlagOf a i b).held = m.held := rfl
@[simp] theorem Mach.setFlagOf_clk (a i : Nat) (b : Bool) : (m.setFlagOf a i b).clk = m.clk := rfl
@[simp] theorem Mach.setFlagOf_ef (a i : Nat) (b : Bool) : (m.setFlagOf a i b).ef = m.ef := rfl
@[simp] theorem Mach.setFlagOf_hs (a i : Nat) (b : Bool) : (m.setFlagOf a i b).hs = m.hs := rfl
@[simp] theorem Mach.setFlagOf_pm (a i : Nat) (b : Bool) : (m.setFlagOf a i b).pm = m.pm := rfl
@[simp] theorem Mach.setFlagOf_pd (a i : Nat) (b : Bool) : (m.setFlagOf a i b).pd = m.pd := rfl
@[simp] theorem Mach.setFlagOf_latch (a i : Nat) (b : Bool) : (m.setFlagOf a i b).latch = m.latch := rfl
@[simp] theorem Mach.setFlagOf_tk (a i : Nat) (b : Bool) : (m.setFlagOf a i b).tk = m.tk := rfl
@[simp] theorem Mach.setFlagOf_st (a i : Nat) (b : Bool) : (m.setFlagOf a i b).st = m.st := rfl
@[simp] theorem Mach.setFlagOf_sto (a i : Nat) (b : Bool) : (m.setFlagOf a i b).sto = m.sto := rfl
@[simp] theorem Mach.setFlagOf_cas (a i : Nat) (b : Bool) : (m.setFlagOf a i b).cas = m.cas := rfl
@[simp] theorem Mach.setFlagOf_lh (a i : Nat) (b : Bool) : (m.setFlagOf a i b).lh = m.lh := rfl
@[simp] theorem Mach.setFlagOf_mem (a i : Nat) (b : Bool) : (m.setFlagOf a i b).mem = m.mem := rfl
@[simp] theorem Mach.setFlagOf_fl (a i : Nat) (b : Bool) : (m.setFlagOf a i b).fl = m.fl := rfl
@[simp] theorem Mach.setFlagOf_hm (a i : Nat) (b : Bool) : (m.setFlagOf a i b).hm = m.hm := rfl
@[simp] theorem Mach.setFlagOf_sn (a i : Nat) (b : Bool) : (m.setFlagOf a i b).sn = m.sn := rfl
@[simp] theorem Mach.setFlagOf_fu (a i : Nat) (b : Bool) : (m.setFlagOf a i b).fu = m.fu := rfl
@[simp] theorem Mach.setFlagOf_ch (a i : Nat) (b : Bool) : (m.setFlagOf a i b).ch = m.ch := rfl
@[simp] theorem Mach.setFlagOf_out (a i : Nat) (b : Bool) : (m.setFlagOf a i b).out = m.out := rfl
@[simp] theorem Mach.setFlagOf_fresh (a i : Nat) (b : Bool) : (m.setFlagOf a i b).fresh = m.fresh := rfl

@[simp] theorem Mach.incFld_shadow (a lo n d : Nat) : (m.incFld a lo n d).shadow = m.shadow := rfl
@[simp] theorem Mach.incFld_held (a lo n d : Nat) : (m.incFld a lo n d).held = m.held := rfl
@[simp] theorem Mach.incFld_clk (a lo n d : Nat) : (m.incFld a lo n d).clk = m.clk := rfl
@[simp] theorem Mach.incFld_ef (a lo n d : Nat) : (m.incFld a lo n d).ef = m.ef := rfl
@[simp] theorem Mach.incFld_hs (a lo n d : Nat) : (m.incFld a lo n d).hs = m.hs := rfl
@[simp] theorem Mach.incFld_pm (a lo n d : Nat) : (m.incFld a lo n d).pm = m.pm := rfl
@[simp] theorem Mach.incFld_pd (a lo n d : Nat) : (m.incFld a lo n d).pd = m.pd := rfl
@[simp] theorem Mach.incFld_latch (a lo n d : Nat) : (m.incFld a lo n d).latch = m.latch := rfl
@[simp] theorem Mach.incFld_tk (a lo n d : Nat) : (m.incFld a lo n d).tk = m.tk := rfl
@[simp] theorem Mach.incFld_st (a lo n d : Nat) : (m.incFld a lo n d).st = m.st := rfl
@[simp] theorem Mach.incFld_sto (a lo n d : Nat) : (m.incFld a lo n d).sto = m.sto := rfl
@[simp] theorem Mach.incFld_cas (a lo n d : Nat) : (m.incFld a lo n d).cas = m.cas := rfl
@[simp] theorem Mach.incFld_lh (a lo n d : Nat) : (m.incFld a lo n d).lh = m.lh := rfl
@[simp] theorem Mach.incFld_mem (a lo n d : Nat) : (m.incFld a lo n d).mem = m.mem := rfl
@[simp] theorem Mach.incFld_fl (a lo n d : Nat) : (m.incFld a lo n d).fl = m.fl := rfl
@[simp] theorem Mach.incFld_hm (a lo n d : Nat) : (m.incFld a lo n d).hm = m.hm := rfl
@[simp] theorem Mach.incFld_sn (a lo n d : Nat) : (m.incFld a lo n d).sn = m.sn := rfl
@[simp] theorem Mach.incFld_fu (a lo n d : Nat) : (m.incFld a lo n d).fu = m.fu := rfl
@[simp] theorem Mach.incFld_ch (a lo n d : Nat) : (m.incFld a lo n d).ch = m.ch := rfl
@[simp] theorem Mach.incFld_out (a lo n d : Nat) : (m.incFld a lo n d).out = m.out := rfl
@[simp] theorem Mach.incFld_fresh (a lo n d : Nat) : (m.incFld a lo n d).fresh = m.fresh := rfl

@[simp] theorem Mach.satFld_shadow (a lo n d : Nat) : (m.satFld a lo n d).shadow = m.shadow := rfl
@[simp] theorem Mach.satFld_held (a lo n d : Nat) : (m.satFld a lo n d).held = m.held := rfl
@[simp] theorem Mach.satFld_clk (a lo n d : Nat) : (m.satFld a lo n d).clk = m.clk := rfl
@[simp] theorem Mach.satFld_ef (a lo n d : Nat) : (m.satFld a lo n d).ef = m.ef := rfl
@[simp] theorem Mach.satFld_hs (a lo n d : Nat) : (m.satFld a lo n d).hs = m.hs := rfl
@[simp] theorem Mach.satFld_pm (a lo n d : Nat) : (m.satFld a lo n d).pm = m.pm := rfl
@[simp] theorem Mach.satFld_pd (a lo n d : Nat) : (m.satFld a lo n d).pd = m.pd := rfl
@[simp] theorem Mach.satFld_latch (a lo n d : Nat) : (m.satFld a lo n d).latch = m.latch := rfl
@[simp] theorem Mach.satFld_tk (a lo n d : Nat) : (m.satFld a lo n d).tk = m.tk := rfl
@[simp] theorem Mach.satFld_st (a lo n d : Nat) : (m.satFld a lo n d).st = m.st := rfl
@[simp] theorem Mach.satFld_sto (a lo n d : Nat) : (m.satFld a lo n d).sto = m.sto := rfl
@[simp] theorem Mach.satFld_cas (a lo n d : Nat) : (m.satFld a lo n d).cas = m.cas := rfl
@[simp] theorem Mach.satFld_lh (a lo n d : Nat) : (m.satFld a lo n d).lh = m.lh := rfl
@[simp] theorem Mach.satFld_mem (a lo n d : Nat) : (m.satFld a lo n d).mem = m.mem := rfl
@[simp] theorem Mach.satFld_fl (a lo n d : Nat) : (m.satFld a lo n d).fl = m.fl := rfl
@[simp] theorem Mach.satFld_hm (a lo n d : Nat) : (m.satFld a lo n d).hm = m.hm := rfl
@[simp] theorem Mach.satFld_sn (a lo n d : Nat) : (m.satFld a lo n d).sn = m.sn := rfl
@[simp] theorem Mach.satFld_fu (a lo n d : Nat) : (m.satFld a lo n d).fu = m.fu := rfl
@[simp] theorem Mach.satFld_ch (a lo n d : Nat) : (m.satFld a lo n d).ch = m.ch := rfl
@[simp] theorem Mach.satFld_out (a lo n d : Nat) : (m.satFld a lo n d).out = m.out := rfl
@[simp] theorem Mach.satFld_fresh (a lo n d : Nat) : (m.satFld a lo n d).fresh = m.fresh := rfl

@[simp] theorem Mach.setReg64_shadow (a v : Nat) : (m.setReg64 a v).shadow = m.shadow := rfl
@[simp] theorem Mach.setReg64_held (a v : Nat) : (m.setReg64 a v).held = m.held := rfl
@[simp] theorem Mach.setReg64_clk (a v : Nat) : (m.setReg64 a v).clk = m.clk := rfl
@[simp] theorem Mach.setReg64_ef (a v : Nat) : (m.setReg64 a v).ef = m.ef := rfl
@[simp] theorem Mach.setReg64_hs (a v : Nat) : (m.setReg64 a v).hs = m.hs := rfl
@[simp] theorem Mach.setReg64_pm (a v : Nat) : (m.setReg64 a v).pm = m.pm := rfl
@[simp] theorem Mach.setReg64_pd (a v : Nat) : (m.setReg64 a v).pd = m.pd := rfl
@[simp] theorem Mach.setReg64_latch (a v : Nat) : (m.setReg64 a v).latch = m.latch := rfl
@[simp] theorem Mach.setReg64_tk (a v : Nat) : (m.setReg64 a v).tk = m.tk := rfl
@[simp] theorem Mach.setReg64_st (a v : Nat) : (m.setReg64 a v).st = m.st := rfl
@[simp] theorem Mach.setReg64_sto (a v : Nat) : (m.setReg64 a v).sto = m.sto := rfl
@[simp] theorem Mach.setReg64_cas (a v : Nat) : (m.setReg64 a v).cas = m.cas := rfl
@[simp] theorem Mach.setReg64_lh (a v : Nat) : (m.setReg64 a v).lh = m.lh := rfl
@[simp] theorem Mach.setReg64_mem (a v : Nat) : (m.setReg64 a v).mem = m.mem := rfl
@[simp] theorem Mach.setReg64_fl (a v : Nat) : (m.setReg64 a v).fl = m.fl := rfl
@[simp] theorem Mach.setReg64_hm (a v : Nat) : (m.setReg64 a v).hm = m.hm := rfl
@[simp] theorem Mach.setReg64_sn (a v : Nat) : (m.setReg64 a v).sn = m.sn := rfl
@[simp] theorem Mach.setReg64_fu (a v : Nat) : (m.setReg64 a v).fu = m.fu := rfl
@[simp] theorem Mach.setReg64_ch (a v : Nat) : (m.setReg64 a v).ch = m.ch := rfl
@[simp] theorem Mach.setReg64_out (a v : Nat) : (m.setReg64 a v).out = m.out := rfl
@[simp] theorem Mach.setReg64_fresh (a v : Nat) : (m.setReg64 a v).fresh = m.fresh := rfl

@[simp] theorem Mach.emit_regs (o : Out) : (m.emit o).regs = m.regs := rfl
@[simp] theorem Mach.emit_shadow (o : Out) : (m.emit o).shadow = m.shadow := rfl
@[simp] theorem Mach.emit_held (o : Out) : (m.emit o).held = m.held := rfl
@[simp] theorem Mach.emit_clk (o : Out) : (m.emit o).clk = m.clk := rfl
@[simp] theorem Mach.emit_ef (o : Out) : (m.emit o).ef = m.ef := rfl
@[simp] theorem Mach.emit_hs (o : Out) : (m.emit o).hs = m.hs := rfl
@[simp] theorem Mach.emit_pm (o : Out) : (m.emit o).pm = m.pm := rfl
@[simp] theorem Mach.emit_pd (o : Out) : (m.emit o).pd = m.pd := rfl
@[simp] theorem Mach.emit_latch (o : Out) : (m.emit o).latch = m.latch := rfl
@[simp] theorem Mach.emit_tk (o : Out) : (m.emit o).tk = m.tk := rfl
@[simp] theorem Mach.emit_st (o : Out) : (m.emit o).st = m.st := rfl
@[simp] theorem Mach.emit_sto (o : Out) : (m.emit o).sto = m.sto := rfl
@[simp] theorem Mach.emit_cas (o : Out) : (m.emit o).cas = m.cas := rfl
@[simp] theorem Mach.emit_lh (o : Out) : (m.emit o).lh = m.lh := rfl
@[simp] theorem Mach.emit_mem (o : Out) : (m.emit o).mem = m.mem := rfl
@[simp] theorem Mach.emit_fl (o : Out) : (m.emit o).fl = m.fl := rfl
@[simp] theorem Mach.emit_hm (o : Out) : (m.emit o).hm = m.hm := rfl
@[simp] theorem Mach.emit_sn (o : Out) : (m.emit o).sn = m.sn := rfl
@[simp] theorem Mach.emit_fu (o : Out) : (m.emit o).fu = m.fu := rfl
@[simp] theorem Mach.emit_ch (o : Out) : (m.emit o).ch = m.ch := rfl
@[simp] theorem Mach.emit_fresh (o : Out) : (m.emit o).fresh = m.fresh := rfl

@[simp] theorem raiseAt_regs (c t : Nat) (d : Bool) (n k i : Nat) : (raiseAt m c t d n k i).regs = m.regs := rfl
@[simp] theorem raiseAt_shadow (c t : Nat) (d : Bool) (n k i : Nat) : (raiseAt m c t d n k i).shadow = m.shadow := rfl
@[simp] theorem raiseAt_held (c t : Nat) (d : Bool) (n k i : Nat) : (raiseAt m c t d n k i).held = m.held := rfl
@[simp] theorem raiseAt_clk (c t : Nat) (d : Bool) (n k i : Nat) : (raiseAt m c t d n k i).clk = m.clk := rfl
@[simp] theorem raiseAt_hs (c t : Nat) (d : Bool) (n k i : Nat) : (raiseAt m c t d n k i).hs = m.hs := rfl
@[simp] theorem raiseAt_pm (c t : Nat) (d : Bool) (n k i : Nat) : (raiseAt m c t d n k i).pm = m.pm := rfl
@[simp] theorem raiseAt_pd (c t : Nat) (d : Bool) (n k i : Nat) : (raiseAt m c t d n k i).pd = m.pd := rfl
@[simp] theorem raiseAt_latch (c t : Nat) (d : Bool) (n k i : Nat) : (raiseAt m c t d n k i).latch = m.latch := rfl
@[simp] theorem raiseAt_tk (c t : Nat) (d : Bool) (n k i : Nat) : (raiseAt m c t d n k i).tk = m.tk := rfl
@[simp] theorem raiseAt_st (c t : Nat) (d : Bool) (n k i : Nat) : (raiseAt m c t d n k i).st = m.st := rfl
@[simp] theorem raiseAt_sto (c t : Nat) (d : Bool) (n k i : Nat) : (raiseAt m c t d n k i).sto = m.sto := rfl
@[simp] theorem raiseAt_cas (c t : Nat) (d : Bool) (n k i : Nat) : (raiseAt m c t d n k i).cas = m.cas := rfl
@[simp] theorem raiseAt_lh (c t : Nat) (d : Bool) (n k i : Nat) : (raiseAt m c t d n k i).lh = m.lh := rfl
@[simp] theorem raiseAt_mem (c t : Nat) (d : Bool) (n k i : Nat) : (raiseAt m c t d n k i).mem = m.mem := rfl
@[simp] theorem raiseAt_fl (c t : Nat) (d : Bool) (n k i : Nat) : (raiseAt m c t d n k i).fl = m.fl := rfl
@[simp] theorem raiseAt_hm (c t : Nat) (d : Bool) (n k i : Nat) : (raiseAt m c t d n k i).hm = m.hm := rfl
@[simp] theorem raiseAt_sn (c t : Nat) (d : Bool) (n k i : Nat) : (raiseAt m c t d n k i).sn = m.sn := rfl
@[simp] theorem raiseAt_fu (c t : Nat) (d : Bool) (n k i : Nat) : (raiseAt m c t d n k i).fu = m.fu := rfl
@[simp] theorem raiseAt_ch (c t : Nat) (d : Bool) (n k i : Nat) : (raiseAt m c t d n k i).ch = m.ch := rfl
@[simp] theorem raiseAt_out (c t : Nat) (d : Bool) (n k i : Nat) : (raiseAt m c t d n k i).out = m.out := rfl
@[simp] theorem raiseAt_fresh (c t : Nat) (d : Bool) (n k i : Nat) : (raiseAt m c t d n k i).fresh = m.fresh := rfl

@[simp] theorem raiseT_regs (c t i : Nat) : (raiseT m c t i).regs = m.regs := rfl
@[simp] theorem raiseT_shadow (c t i : Nat) : (raiseT m c t i).shadow = m.shadow := rfl
@[simp] theorem raiseT_held (c t i : Nat) : (raiseT m c t i).held = m.held := rfl
@[simp] theorem raiseT_clk (c t i : Nat) : (raiseT m c t i).clk = m.clk := rfl
@[simp] theorem raiseT_hs (c t i : Nat) : (raiseT m c t i).hs = m.hs := rfl
@[simp] theorem raiseT_pm (c t i : Nat) : (raiseT m c t i).pm = m.pm := rfl
@[simp] theorem raiseT_pd (c t i : Nat) : (raiseT m c t i).pd = m.pd := rfl
@[simp] theorem raiseT_latch (c t i : Nat) : (raiseT m c t i).latch = m.latch := rfl
@[simp] theorem raiseT_tk (c t i : Nat) : (raiseT m c t i).tk = m.tk := rfl
@[simp] theorem raiseT_st (c t i : Nat) : (raiseT m c t i).st = m.st := rfl
@[simp] theorem raiseT_sto (c t i : Nat) : (raiseT m c t i).sto = m.sto := rfl
@[simp] theorem raiseT_cas (c t i : Nat) : (raiseT m c t i).cas = m.cas := rfl
@[simp] theorem raiseT_lh (c t i : Nat) : (raiseT m c t i).lh = m.lh := rfl
@[simp] theorem raiseT_mem (c t i : Nat) : (raiseT m c t i).mem = m.mem := rfl
@[simp] theorem raiseT_fl (c t i : Nat) : (raiseT m c t i).fl = m.fl := rfl
@[simp] theorem raiseT_hm (c t i : Nat) : (raiseT m c t i).hm = m.hm := rfl
@[simp] theorem raiseT_sn (c t i : Nat) : (raiseT m c t i).sn = m.sn := rfl
@[simp] theorem raiseT_fu (c t i : Nat) : (raiseT m c t i).fu = m.fu := rfl
@[simp] theorem raiseT_ch (c t i : Nat) : (raiseT m c t i).ch = m.ch := rfl
@[simp] theorem raiseT_out (c t i : Nat) : (raiseT m c t i).out = m.out := rfl
@[simp] theorem raiseT_fresh (c t i : Nat) : (raiseT m c t i).fresh = m.fresh := rfl

@[simp] theorem raiseD_regs (c i : Nat) : (raiseD m c i).regs = m.regs := rfl
@[simp] theorem raiseD_shadow (c i : Nat) : (raiseD m c i).shadow = m.shadow := rfl
@[simp] theorem raiseD_held (c i : Nat) : (raiseD m c i).held = m.held := rfl
@[simp] theorem raiseD_clk (c i : Nat) : (raiseD m c i).clk = m.clk := rfl
@[simp] theorem raiseD_hs (c i : Nat) : (raiseD m c i).hs = m.hs := rfl
@[simp] theorem raiseD_pm (c i : Nat) : (raiseD m c i).pm = m.pm := rfl
@[simp] theorem raiseD_pd (c i : Nat) : (raiseD m c i).pd = m.pd := rfl
@[simp] theorem raiseD_latch (c i : Nat) : (raiseD m c i).latch = m.latch := rfl
@[simp] theorem raiseD_tk (c i : Nat) : (raiseD m c i).tk = m.tk := rfl
@[simp] theorem raiseD_st (c i : Nat) : (raiseD m c i).st = m.st := rfl
@[simp] theorem raiseD_sto (c i : Nat) : (raiseD m c i).sto = m.sto := rfl
@[simp] theorem raiseD_cas (c i : Nat) : (raiseD m c i).cas = m.cas := rfl
@[simp] theorem raiseD_lh (c i : Nat) : (raiseD m c i).lh = m.lh := rfl
@[simp] theorem raiseD_mem (c i : Nat) : (raiseD m c i).mem = m.mem := rfl
@[simp] theorem raiseD_fl (c i : Nat) : (raiseD m c i).fl = m.fl := rfl
@[simp] theorem raiseD_hm (c i : Nat) : (raiseD m c i).hm = m.hm := rfl
@[simp] theorem raiseD_sn (c i : Nat) : (raiseD m c i).sn = m.sn := rfl
@[simp] theorem raiseD_fu (c i : Nat) : (raiseD m c i).fu = m.fu := rfl
@[simp] theorem raiseD_ch (c i : Nat) : (raiseD m c i).ch = m.ch := rfl
@[simp] theorem raiseD_out (c i : Nat) : (raiseD m c i).out = m.out := rfl
@[simp] theorem raiseD_fresh (c i : Nat) : (raiseD m c i).fresh = m.fresh := rfl

@[simp] theorem setQueue_regs (t : Nat) (q : Queue) : (setQueue m t q).regs = m.regs := rfl
@[simp] theorem setQueue_shadow (t : Nat) (q : Queue) : (setQueue m t q).shadow = m.shadow := rfl
@[simp] theorem setQueue_held (t : Nat) (q : Queue) : (setQueue m t q).held = m.held := rfl
@[simp] theorem setQueue_clk (t : Nat) (q : Queue) : (setQueue m t q).clk = m.clk := rfl
@[simp] theorem setQueue_ef (t : Nat) (q : Queue) : (setQueue m t q).ef = m.ef := rfl
@[simp] theorem setQueue_pm (t : Nat) (q : Queue) : (setQueue m t q).pm = m.pm := rfl
@[simp] theorem setQueue_pd (t : Nat) (q : Queue) : (setQueue m t q).pd = m.pd := rfl
@[simp] theorem setQueue_latch (t : Nat) (q : Queue) : (setQueue m t q).latch = m.latch := rfl
@[simp] theorem setQueue_tk (t : Nat) (q : Queue) : (setQueue m t q).tk = m.tk := rfl
@[simp] theorem setQueue_st (t : Nat) (q : Queue) : (setQueue m t q).st = m.st := rfl
@[simp] theorem setQueue_sto (t : Nat) (q : Queue) : (setQueue m t q).sto = m.sto := rfl
@[simp] theorem setQueue_cas (t : Nat) (q : Queue) : (setQueue m t q).cas = m.cas := rfl
@[simp] theorem setQueue_lh (t : Nat) (q : Queue) : (setQueue m t q).lh = m.lh := rfl
@[simp] theorem setQueue_mem (t : Nat) (q : Queue) : (setQueue m t q).mem = m.mem := rfl
@[simp] theorem setQueue_fl (t : Nat) (q : Queue) : (setQueue m t q).fl = m.fl := rfl
@[simp] theorem setQueue_hm (t : Nat) (q : Queue) : (setQueue m t q).hm = m.hm := rfl
@[simp] theorem setQueue_sn (t : Nat) (q : Queue) : (setQueue m t q).sn = m.sn := rfl
@[simp] theorem setQueue_fu (t : Nat) (q : Queue) : (setQueue m t q).fu = m.fu := rfl
@[simp] theorem setQueue_ch (t : Nat) (q : Queue) : (setQueue m t q).ch = m.ch := rfl
@[simp] theorem setQueue_out (t : Nat) (q : Queue) : (setQueue m t q).out = m.out := rfl
@[simp] theorem setQueue_fresh (t : Nat) (q : Queue) : (setQueue m t q).fresh = m.fresh := rfl

@[simp] theorem dropCmd_regs (q cid : Nat) : (dropCmd m q cid).regs = m.regs := rfl
@[simp] theorem dropCmd_shadow (q cid : Nat) : (dropCmd m q cid).shadow = m.shadow := rfl
@[simp] theorem dropCmd_held (q cid : Nat) : (dropCmd m q cid).held = m.held := rfl
@[simp] theorem dropCmd_clk (q cid : Nat) : (dropCmd m q cid).clk = m.clk := rfl
@[simp] theorem dropCmd_ef (q cid : Nat) : (dropCmd m q cid).ef = m.ef := rfl
@[simp] theorem dropCmd_pm (q cid : Nat) : (dropCmd m q cid).pm = m.pm := rfl
@[simp] theorem dropCmd_pd (q cid : Nat) : (dropCmd m q cid).pd = m.pd := rfl
@[simp] theorem dropCmd_latch (q cid : Nat) : (dropCmd m q cid).latch = m.latch := rfl
@[simp] theorem dropCmd_tk (q cid : Nat) : (dropCmd m q cid).tk = m.tk := rfl
@[simp] theorem dropCmd_st (q cid : Nat) : (dropCmd m q cid).st = m.st := rfl
@[simp] theorem dropCmd_sto (q cid : Nat) : (dropCmd m q cid).sto = m.sto := rfl
@[simp] theorem dropCmd_cas (q cid : Nat) : (dropCmd m q cid).cas = m.cas := rfl
@[simp] theorem dropCmd_lh (q cid : Nat) : (dropCmd m q cid).lh = m.lh := rfl
@[simp] theorem dropCmd_mem (q cid : Nat) : (dropCmd m q cid).mem = m.mem := rfl
@[simp] theorem dropCmd_fl (q cid : Nat) : (dropCmd m q cid).fl = m.fl := rfl
@[simp] theorem dropCmd_hm (q cid : Nat) : (dropCmd m q cid).hm = m.hm := rfl
@[simp] theorem dropCmd_sn (q cid : Nat) : (dropCmd m q cid).sn = m.sn := rfl
@[simp] theorem dropCmd_fu (q cid : Nat) : (dropCmd m q cid).fu = m.fu := rfl
@[simp] theorem dropCmd_ch (q cid : Nat) : (dropCmd m q cid).ch = m.ch := rfl
@[simp] theorem dropCmd_out (q cid : Nat) : (dropCmd m q cid).out = m.out := rfl
@[simp] theorem dropCmd_fresh (q cid : Nat) : (dropCmd m q cid).fresh = m.fresh := rfl

@[simp] theorem advanceTo_regs (t : Nat) : (advanceTo m t).regs = m.regs := rfl
@[simp] theorem advanceTo_shadow (t : Nat) : (advanceTo m t).shadow = m.shadow := rfl
@[simp] theorem advanceTo_held (t : Nat) : (advanceTo m t).held = m.held := rfl
@[simp] theorem advanceTo_ef (t : Nat) : (advanceTo m t).ef = m.ef := rfl
@[simp] theorem advanceTo_hs (t : Nat) : (advanceTo m t).hs = m.hs := rfl
@[simp] theorem advanceTo_pm (t : Nat) : (advanceTo m t).pm = m.pm := rfl
@[simp] theorem advanceTo_pd (t : Nat) : (advanceTo m t).pd = m.pd := rfl
@[simp] theorem advanceTo_latch (t : Nat) : (advanceTo m t).latch = m.latch := rfl
@[simp] theorem advanceTo_tk (t : Nat) : (advanceTo m t).tk = m.tk := rfl
@[simp] theorem advanceTo_st (t : Nat) : (advanceTo m t).st = m.st := rfl
@[simp] theorem advanceTo_sto (t : Nat) : (advanceTo m t).sto = m.sto := rfl
@[simp] theorem advanceTo_cas (t : Nat) : (advanceTo m t).cas = m.cas := rfl
@[simp] theorem advanceTo_lh (t : Nat) : (advanceTo m t).lh = m.lh := rfl
@[simp] theorem advanceTo_mem (t : Nat) : (advanceTo m t).mem = m.mem := rfl
@[simp] theorem advanceTo_fl (t : Nat) : (advanceTo m t).fl = m.fl := rfl
@[simp] theorem advanceTo_hm (t : Nat) : (advanceTo m t).hm = m.hm := rfl
@[simp] theorem advanceTo_sn (t : Nat) : (advanceTo m t).sn = m.sn := rfl
@[simp] theorem advanceTo_fu (t : Nat) : (advanceTo m t).fu = m.fu := rfl
@[simp] theorem advanceTo_ch (t : Nat) : (advanceTo m t).ch = m.ch := rfl
@[simp] theorem advanceTo_out (t : Nat) : (advanceTo m t).out = m.out := rfl
@[simp] theorem advanceTo_fresh (t : Nat) : (advanceTo m t).fresh = m.fresh := rfl

@[simp] theorem putRun_regs (r : SlotRun) : (putRun m r).regs = m.regs := rfl
@[simp] theorem putRun_shadow (r : SlotRun) : (putRun m r).shadow = m.shadow := rfl
@[simp] theorem putRun_held (r : SlotRun) : (putRun m r).held = m.held := rfl
@[simp] theorem putRun_clk (r : SlotRun) : (putRun m r).clk = m.clk := rfl
@[simp] theorem putRun_ef (r : SlotRun) : (putRun m r).ef = m.ef := rfl
@[simp] theorem putRun_hs (r : SlotRun) : (putRun m r).hs = m.hs := rfl
@[simp] theorem putRun_pm (r : SlotRun) : (putRun m r).pm = m.pm := rfl
@[simp] theorem putRun_pd (r : SlotRun) : (putRun m r).pd = m.pd := rfl
@[simp] theorem putRun_latch (r : SlotRun) : (putRun m r).latch = m.latch := rfl
@[simp] theorem putRun_tk (r : SlotRun) : (putRun m r).tk = m.tk := rfl
@[simp] theorem putRun_sto (r : SlotRun) : (putRun m r).sto = m.sto := rfl
@[simp] theorem putRun_cas (r : SlotRun) : (putRun m r).cas = m.cas := rfl
@[simp] theorem putRun_lh (r : SlotRun) : (putRun m r).lh = m.lh := rfl
@[simp] theorem putRun_mem (r : SlotRun) : (putRun m r).mem = m.mem := rfl
@[simp] theorem putRun_fl (r : SlotRun) : (putRun m r).fl = m.fl := rfl
@[simp] theorem putRun_hm (r : SlotRun) : (putRun m r).hm = m.hm := rfl
@[simp] theorem putRun_sn (r : SlotRun) : (putRun m r).sn = m.sn := rfl
@[simp] theorem putRun_fu (r : SlotRun) : (putRun m r).fu = m.fu := rfl
@[simp] theorem putRun_ch (r : SlotRun) : (putRun m r).ch = m.ch := rfl
@[simp] theorem putRun_out (r : SlotRun) : (putRun m r).out = m.out := rfl
@[simp] theorem putRun_fresh (r : SlotRun) : (putRun m r).fresh = m.fresh := rfl

@[simp] theorem writeS_regs (b r : Nat) (v : BitVec 64) : (writeS m b r v).regs = m.regs := rfl
@[simp] theorem writeS_shadow (b r : Nat) (v : BitVec 64) : (writeS m b r v).shadow = m.shadow := rfl
@[simp] theorem writeS_held (b r : Nat) (v : BitVec 64) : (writeS m b r v).held = m.held := rfl
@[simp] theorem writeS_clk (b r : Nat) (v : BitVec 64) : (writeS m b r v).clk = m.clk := rfl
@[simp] theorem writeS_ef (b r : Nat) (v : BitVec 64) : (writeS m b r v).ef = m.ef := rfl
@[simp] theorem writeS_hs (b r : Nat) (v : BitVec 64) : (writeS m b r v).hs = m.hs := rfl
@[simp] theorem writeS_pm (b r : Nat) (v : BitVec 64) : (writeS m b r v).pm = m.pm := rfl
@[simp] theorem writeS_pd (b r : Nat) (v : BitVec 64) : (writeS m b r v).pd = m.pd := rfl
@[simp] theorem writeS_latch (b r : Nat) (v : BitVec 64) : (writeS m b r v).latch = m.latch := rfl
@[simp] theorem writeS_tk (b r : Nat) (v : BitVec 64) : (writeS m b r v).tk = m.tk := rfl
@[simp] theorem writeS_sto (b r : Nat) (v : BitVec 64) : (writeS m b r v).sto = m.sto := rfl
@[simp] theorem writeS_cas (b r : Nat) (v : BitVec 64) : (writeS m b r v).cas = m.cas := rfl
@[simp] theorem writeS_lh (b r : Nat) (v : BitVec 64) : (writeS m b r v).lh = m.lh := rfl
@[simp] theorem writeS_mem (b r : Nat) (v : BitVec 64) : (writeS m b r v).mem = m.mem := rfl
@[simp] theorem writeS_fl (b r : Nat) (v : BitVec 64) : (writeS m b r v).fl = m.fl := rfl
@[simp] theorem writeS_hm (b r : Nat) (v : BitVec 64) : (writeS m b r v).hm = m.hm := rfl
@[simp] theorem writeS_sn (b r : Nat) (v : BitVec 64) : (writeS m b r v).sn = m.sn := rfl
@[simp] theorem writeS_fu (b r : Nat) (v : BitVec 64) : (writeS m b r v).fu = m.fu := rfl
@[simp] theorem writeS_ch (b r : Nat) (v : BitVec 64) : (writeS m b r v).ch = m.ch := rfl
@[simp] theorem writeS_out (b r : Nat) (v : BitVec 64) : (writeS m b r v).out = m.out := rfl
@[simp] theorem writeS_fresh (b r : Nat) (v : BitVec 64) : (writeS m b r v).fresh = m.fresh := rfl

@[simp] theorem writeD_regs (b r : Nat) (v : BitVec 512) : (writeD m b r v).regs = m.regs := rfl
@[simp] theorem writeD_shadow (b r : Nat) (v : BitVec 512) : (writeD m b r v).shadow = m.shadow := rfl
@[simp] theorem writeD_held (b r : Nat) (v : BitVec 512) : (writeD m b r v).held = m.held := rfl
@[simp] theorem writeD_clk (b r : Nat) (v : BitVec 512) : (writeD m b r v).clk = m.clk := rfl
@[simp] theorem writeD_ef (b r : Nat) (v : BitVec 512) : (writeD m b r v).ef = m.ef := rfl
@[simp] theorem writeD_hs (b r : Nat) (v : BitVec 512) : (writeD m b r v).hs = m.hs := rfl
@[simp] theorem writeD_pm (b r : Nat) (v : BitVec 512) : (writeD m b r v).pm = m.pm := rfl
@[simp] theorem writeD_pd (b r : Nat) (v : BitVec 512) : (writeD m b r v).pd = m.pd := rfl
@[simp] theorem writeD_latch (b r : Nat) (v : BitVec 512) : (writeD m b r v).latch = m.latch := rfl
@[simp] theorem writeD_tk (b r : Nat) (v : BitVec 512) : (writeD m b r v).tk = m.tk := rfl
@[simp] theorem writeD_sto (b r : Nat) (v : BitVec 512) : (writeD m b r v).sto = m.sto := rfl
@[simp] theorem writeD_cas (b r : Nat) (v : BitVec 512) : (writeD m b r v).cas = m.cas := rfl
@[simp] theorem writeD_lh (b r : Nat) (v : BitVec 512) : (writeD m b r v).lh = m.lh := rfl
@[simp] theorem writeD_mem (b r : Nat) (v : BitVec 512) : (writeD m b r v).mem = m.mem := rfl
@[simp] theorem writeD_fl (b r : Nat) (v : BitVec 512) : (writeD m b r v).fl = m.fl := rfl
@[simp] theorem writeD_hm (b r : Nat) (v : BitVec 512) : (writeD m b r v).hm = m.hm := rfl
@[simp] theorem writeD_sn (b r : Nat) (v : BitVec 512) : (writeD m b r v).sn = m.sn := rfl
@[simp] theorem writeD_fu (b r : Nat) (v : BitVec 512) : (writeD m b r v).fu = m.fu := rfl
@[simp] theorem writeD_ch (b r : Nat) (v : BitVec 512) : (writeD m b r v).ch = m.ch := rfl
@[simp] theorem writeD_out (b r : Nat) (v : BitVec 512) : (writeD m b r v).out = m.out := rfl
@[simp] theorem writeD_fresh (b r : Nat) (v : BitVec 512) : (writeD m b r v).fresh = m.fresh := rfl

@[simp] theorem writeV_regs (c r : Nat) (v : BitVec 2048) : (writeV m c r v).regs = m.regs := rfl
@[simp] theorem writeV_shadow (c r : Nat) (v : BitVec 2048) : (writeV m c r v).shadow = m.shadow := rfl
@[simp] theorem writeV_held (c r : Nat) (v : BitVec 2048) : (writeV m c r v).held = m.held := rfl
@[simp] theorem writeV_clk (c r : Nat) (v : BitVec 2048) : (writeV m c r v).clk = m.clk := rfl
@[simp] theorem writeV_ef (c r : Nat) (v : BitVec 2048) : (writeV m c r v).ef = m.ef := rfl
@[simp] theorem writeV_hs (c r : Nat) (v : BitVec 2048) : (writeV m c r v).hs = m.hs := rfl
@[simp] theorem writeV_pm (c r : Nat) (v : BitVec 2048) : (writeV m c r v).pm = m.pm := rfl
@[simp] theorem writeV_pd (c r : Nat) (v : BitVec 2048) : (writeV m c r v).pd = m.pd := rfl
@[simp] theorem writeV_latch (c r : Nat) (v : BitVec 2048) : (writeV m c r v).latch = m.latch := rfl
@[simp] theorem writeV_tk (c r : Nat) (v : BitVec 2048) : (writeV m c r v).tk = m.tk := rfl
@[simp] theorem writeV_sto (c r : Nat) (v : BitVec 2048) : (writeV m c r v).sto = m.sto := rfl
@[simp] theorem writeV_cas (c r : Nat) (v : BitVec 2048) : (writeV m c r v).cas = m.cas := rfl
@[simp] theorem writeV_lh (c r : Nat) (v : BitVec 2048) : (writeV m c r v).lh = m.lh := rfl
@[simp] theorem writeV_mem (c r : Nat) (v : BitVec 2048) : (writeV m c r v).mem = m.mem := rfl
@[simp] theorem writeV_fl (c r : Nat) (v : BitVec 2048) : (writeV m c r v).fl = m.fl := rfl
@[simp] theorem writeV_hm (c r : Nat) (v : BitVec 2048) : (writeV m c r v).hm = m.hm := rfl
@[simp] theorem writeV_sn (c r : Nat) (v : BitVec 2048) : (writeV m c r v).sn = m.sn := rfl
@[simp] theorem writeV_fu (c r : Nat) (v : BitVec 2048) : (writeV m c r v).fu = m.fu := rfl
@[simp] theorem writeV_ch (c r : Nat) (v : BitVec 2048) : (writeV m c r v).ch = m.ch := rfl
@[simp] theorem writeV_out (c r : Nat) (v : BitVec 2048) : (writeV m c r v).out = m.out := rfl
@[simp] theorem writeV_fresh (c r : Nat) (v : BitVec 2048) : (writeV m c r v).fresh = m.fresh := rfl

@[simp] theorem setBerthByte_regs (a : Nat) (b : Byte) : (setBerthByte m a b).regs = m.regs := rfl
@[simp] theorem setBerthByte_shadow (a : Nat) (b : Byte) : (setBerthByte m a b).shadow = m.shadow := rfl
@[simp] theorem setBerthByte_held (a : Nat) (b : Byte) : (setBerthByte m a b).held = m.held := rfl
@[simp] theorem setBerthByte_clk (a : Nat) (b : Byte) : (setBerthByte m a b).clk = m.clk := rfl
@[simp] theorem setBerthByte_ef (a : Nat) (b : Byte) : (setBerthByte m a b).ef = m.ef := rfl
@[simp] theorem setBerthByte_hs (a : Nat) (b : Byte) : (setBerthByte m a b).hs = m.hs := rfl
@[simp] theorem setBerthByte_pm (a : Nat) (b : Byte) : (setBerthByte m a b).pm = m.pm := rfl
@[simp] theorem setBerthByte_pd (a : Nat) (b : Byte) : (setBerthByte m a b).pd = m.pd := rfl
@[simp] theorem setBerthByte_latch (a : Nat) (b : Byte) : (setBerthByte m a b).latch = m.latch := rfl
@[simp] theorem setBerthByte_tk (a : Nat) (b : Byte) : (setBerthByte m a b).tk = m.tk := rfl
@[simp] theorem setBerthByte_sto (a : Nat) (b : Byte) : (setBerthByte m a b).sto = m.sto := rfl
@[simp] theorem setBerthByte_cas (a : Nat) (b : Byte) : (setBerthByte m a b).cas = m.cas := rfl
@[simp] theorem setBerthByte_lh (a : Nat) (b : Byte) : (setBerthByte m a b).lh = m.lh := rfl
@[simp] theorem setBerthByte_mem (a : Nat) (b : Byte) : (setBerthByte m a b).mem = m.mem := rfl
@[simp] theorem setBerthByte_fl (a : Nat) (b : Byte) : (setBerthByte m a b).fl = m.fl := rfl
@[simp] theorem setBerthByte_hm (a : Nat) (b : Byte) : (setBerthByte m a b).hm = m.hm := rfl
@[simp] theorem setBerthByte_sn (a : Nat) (b : Byte) : (setBerthByte m a b).sn = m.sn := rfl
@[simp] theorem setBerthByte_fu (a : Nat) (b : Byte) : (setBerthByte m a b).fu = m.fu := rfl
@[simp] theorem setBerthByte_ch (a : Nat) (b : Byte) : (setBerthByte m a b).ch = m.ch := rfl
@[simp] theorem setBerthByte_out (a : Nat) (b : Byte) : (setBerthByte m a b).out = m.out := rfl
@[simp] theorem setBerthByte_fresh (a : Nat) (b : Byte) : (setBerthByte m a b).fresh = m.fresh := rfl

@[simp] theorem putRun_st_s (r : SlotRun) : (putRun m r).st.s = m.st.s := rfl
@[simp] theorem putRun_st_p (r : SlotRun) : (putRun m r).st.p = m.st.p := rfl
@[simp] theorem putRun_st_d (r : SlotRun) : (putRun m r).st.d = m.st.d := rfl
@[simp] theorem putRun_st_v (r : SlotRun) : (putRun m r).st.v = m.st.v := rfl
@[simp] theorem putRun_st_berth (r : SlotRun) : (putRun m r).st.berth = m.st.berth := rfl

@[simp] theorem writeS_st_p (b r : Nat) (v : BitVec 64) : (writeS m b r v).st.p = m.st.p := rfl
@[simp] theorem writeS_st_d (b r : Nat) (v : BitVec 64) : (writeS m b r v).st.d = m.st.d := rfl
@[simp] theorem writeS_st_v (b r : Nat) (v : BitVec 64) : (writeS m b r v).st.v = m.st.v := rfl
@[simp] theorem writeS_st_berth (b r : Nat) (v : BitVec 64) : (writeS m b r v).st.berth = m.st.berth := rfl
@[simp] theorem writeS_st_runs (b r : Nat) (v : BitVec 64) : (writeS m b r v).st.runs = m.st.runs := rfl

@[simp] theorem writeD_st_s (b r : Nat) (v : BitVec 512) : (writeD m b r v).st.s = m.st.s := rfl
@[simp] theorem writeD_st_p (b r : Nat) (v : BitVec 512) : (writeD m b r v).st.p = m.st.p := rfl
@[simp] theorem writeD_st_v (b r : Nat) (v : BitVec 512) : (writeD m b r v).st.v = m.st.v := rfl
@[simp] theorem writeD_st_berth (b r : Nat) (v : BitVec 512) : (writeD m b r v).st.berth = m.st.berth := rfl
@[simp] theorem writeD_st_runs (b r : Nat) (v : BitVec 512) : (writeD m b r v).st.runs = m.st.runs := rfl

@[simp] theorem writeV_st_s (c r : Nat) (v : BitVec 2048) : (writeV m c r v).st.s = m.st.s := rfl
@[simp] theorem writeV_st_p (c r : Nat) (v : BitVec 2048) : (writeV m c r v).st.p = m.st.p := rfl
@[simp] theorem writeV_st_d (c r : Nat) (v : BitVec 2048) : (writeV m c r v).st.d = m.st.d := rfl
@[simp] theorem writeV_st_berth (c r : Nat) (v : BitVec 2048) : (writeV m c r v).st.berth = m.st.berth := rfl
@[simp] theorem writeV_st_runs (c r : Nat) (v : BitVec 2048) : (writeV m c r v).st.runs = m.st.runs := rfl

@[simp] theorem setBerthByte_st_s (a : Nat) (b : Byte) : (setBerthByte m a b).st.s = m.st.s := rfl
@[simp] theorem setBerthByte_st_p (a : Nat) (b : Byte) : (setBerthByte m a b).st.p = m.st.p := rfl
@[simp] theorem setBerthByte_st_d (a : Nat) (b : Byte) : (setBerthByte m a b).st.d = m.st.d := rfl
@[simp] theorem setBerthByte_st_v (a : Nat) (b : Byte) : (setBerthByte m a b).st.v = m.st.v := rfl
@[simp] theorem setBerthByte_st_runs (a : Nat) (b : Byte) : (setBerthByte m a b).st.runs = m.st.runs := rfl

@[simp] theorem writeP_regs (b r : Nat) (v : Bool) : (writeP m b r v).regs = m.regs := by unfold writeP; split <;> rfl
@[simp] theorem writeP_shadow (b r : Nat) (v : Bool) : (writeP m b r v).shadow = m.shadow := by unfold writeP; split <;> rfl
@[simp] theorem writeP_held (b r : Nat) (v : Bool) : (writeP m b r v).held = m.held := by unfold writeP; split <;> rfl
@[simp] theorem writeP_clk (b r : Nat) (v : Bool) : (writeP m b r v).clk = m.clk := by unfold writeP; split <;> rfl
@[simp] theorem writeP_ef (b r : Nat) (v : Bool) : (writeP m b r v).ef = m.ef := by unfold writeP; split <;> rfl
@[simp] theorem writeP_hs (b r : Nat) (v : Bool) : (writeP m b r v).hs = m.hs := by unfold writeP; split <;> rfl
@[simp] theorem writeP_pm (b r : Nat) (v : Bool) : (writeP m b r v).pm = m.pm := by unfold writeP; split <;> rfl
@[simp] theorem writeP_pd (b r : Nat) (v : Bool) : (writeP m b r v).pd = m.pd := by unfold writeP; split <;> rfl
@[simp] theorem writeP_latch (b r : Nat) (v : Bool) : (writeP m b r v).latch = m.latch := by unfold writeP; split <;> rfl
@[simp] theorem writeP_tk (b r : Nat) (v : Bool) : (writeP m b r v).tk = m.tk := by unfold writeP; split <;> rfl
@[simp] theorem writeP_sto (b r : Nat) (v : Bool) : (writeP m b r v).sto = m.sto := by unfold writeP; split <;> rfl
@[simp] theorem writeP_cas (b r : Nat) (v : Bool) : (writeP m b r v).cas = m.cas := by unfold writeP; split <;> rfl
@[simp] theorem writeP_lh (b r : Nat) (v : Bool) : (writeP m b r v).lh = m.lh := by unfold writeP; split <;> rfl
@[simp] theorem writeP_mem (b r : Nat) (v : Bool) : (writeP m b r v).mem = m.mem := by unfold writeP; split <;> rfl
@[simp] theorem writeP_fl (b r : Nat) (v : Bool) : (writeP m b r v).fl = m.fl := by unfold writeP; split <;> rfl
@[simp] theorem writeP_hm (b r : Nat) (v : Bool) : (writeP m b r v).hm = m.hm := by unfold writeP; split <;> rfl
@[simp] theorem writeP_sn (b r : Nat) (v : Bool) : (writeP m b r v).sn = m.sn := by unfold writeP; split <;> rfl
@[simp] theorem writeP_fu (b r : Nat) (v : Bool) : (writeP m b r v).fu = m.fu := by unfold writeP; split <;> rfl
@[simp] theorem writeP_ch (b r : Nat) (v : Bool) : (writeP m b r v).ch = m.ch := by unfold writeP; split <;> rfl
@[simp] theorem writeP_out (b r : Nat) (v : Bool) : (writeP m b r v).out = m.out := by unfold writeP; split <;> rfl
@[simp] theorem writeP_fresh (b r : Nat) (v : Bool) : (writeP m b r v).fresh = m.fresh := by unfold writeP; split <;> rfl
@[simp] theorem writeP_st_s (b r : Nat) (v : Bool) : (writeP m b r v).st.s = m.st.s := by unfold writeP; split <;> rfl
@[simp] theorem writeP_st_d (b r : Nat) (v : Bool) : (writeP m b r v).st.d = m.st.d := by unfold writeP; split <;> rfl
@[simp] theorem writeP_st_v (b r : Nat) (v : Bool) : (writeP m b r v).st.v = m.st.v := by unfold writeP; split <;> rfl
@[simp] theorem writeP_st_berth (b r : Nat) (v : Bool) : (writeP m b r v).st.berth = m.st.berth := by unfold writeP; split <;> rfl
@[simp] theorem writeP_st_runs (b r : Nat) (v : Bool) : (writeP m b r v).st.runs = m.st.runs := by unfold writeP; split <;> rfl

@[simp] theorem advanceTo_now (t : Nat) : (advanceTo m t).clk.now = max m.clk.now t := rfl
@[simp] theorem Mach.emit_out (o : Out) : (m.emit o).out = m.out ++ [o] := rfl

/-- A register after a register was set. -/
theorem Mach.reg_setReg (a k : Nat) (w : Word) : (m.setReg a w).reg k = if k = a then w else m.reg k := by
  unfold Mach.reg Mach.setReg
  by_cases h : k = a
  · subst h; simp
  · rw [if_neg h]; unfold tabGet tabSet; dsimp only; split
    · rw [tabFind_tabDel, if_neg h]
    · rw [tabFind_tabPut, if_neg h]

@[simp] theorem Mach.reg_setReg_same (a : Nat) (w : Word) : (m.setReg a w).reg a = w := by rw [Mach.reg_setReg, if_pos rfl]

theorem Mach.reg_setReg_ne {a k : Nat} (w : Word) (h : k ≠ a) : (m.setReg a w).reg k = m.reg k := by rw [Mach.reg_setReg, if_neg h]

/-- Registers depend on the register file alone. -/
theorem Mach.reg_of_regs {m m' : Mach} (h : m'.regs = m.regs) (a : Nat) : m'.reg a = m.reg a := by unfold Mach.reg; rw [h]

/-- A scalar register after one was written. -/
theorem readS_writeS (b r b' r' : Nat) (v : BitVec 64) :
    readS (writeS m b r v) b' r' = if 64 * b' + r' = 64 * b + r then v else readS m b' r' := tabGet_tabSet ..

/-- A descriptor register after one was written. -/
theorem readD_writeD (b r b' r' : Nat) (v : BitVec 512) :
    readD (writeD m b r v) b' r' = if 16 * b' + r' = 16 * b + r then v else readD m b' r' := tabGet_tabSet ..

/-- A vector register after one was written. -/
theorem readV_writeV (c r c' r' : Nat) (v : BitVec 2048) :
    readV (writeV m c r v) c' r' = if 32 * c' + r' = 32 * c + r then v else readV m c' r' := tabGet_tabSet ..

/-- A predicate after one was written: p0 always reads 1 (R74). -/
theorem readP_writeP (b r b' r' : Nat) (v : Bool) :
    readP (writeP m b r v) b' r' = if r' ≠ 0 ∧ r ≠ 0 ∧ 8 * b' + r' = 8 * b + r then v else readP m b' r' := by
  unfold readP writeP
  by_cases h' : r' = 0
  · simp [h']
  · by_cases h : r = 0
    · simp [h, h']
    · rw [if_neg h]; simp [h, h', tabGet_tabSet]

/-- A byte of berth space after one was written. -/
theorem berthByte_setBerthByte (a k : Nat) (b : Byte) :
    berthByte (setBerthByte m a b) k = if k = a then b else berthByte m k := tabGet_tabSet ..

end Sys2Proof.Machine
end

