-- ==== Sys2Proof/Laws/Ops.lean ====
section
/-!
SUPPORT. What the shared operations leave alone: fault records, vectors, completions, notices and power requests change no part of a chapter.
-/
namespace Sys2Proof.Machine

theorem SameParts.refl (m : Mach) : SameParts m m := by constructor <;> rfl

theorem SameParts.trans {a b c : Mach} (h : SameParts a b) (k : SameParts b c) : SameParts a c := by
  constructor
  · exact k.shadow.trans h.shadow
  · exact k.held.trans h.held
  · exact k.tk.trans h.tk
  · exact k.st.trans h.st
  · exact k.sto.trans h.sto
  · exact k.cas.trans h.cas
  · exact k.lh.trans h.lh
  · exact k.mem.trans h.mem
  · exact k.fl.trans h.fl
  · exact k.hm.trans h.hm
  · exact k.sn.trans h.sn
  · exact k.fu.trans h.fu
  · exact k.ch.trans h.ch
  · exact k.fresh.trans h.fresh
  · exact k.latch.trans h.latch
  · exact k.now.trans h.now
  · exact k.tick.trans h.tick
  · exact k.tickStart.trans h.tickStart
  · exact k.refStopped.trans h.refStopped

theorem sameParts_foldl {α : Type} (f : Mach → α → Mach) (hf : ∀ m x, SameParts m (f m x)) (l : List α) (m : Mach) :
    SameParts m (l.foldl f m) := by
  induction l generalizing m with
  | nil => exact .refl m
  | cons x l ih => exact (hf m x).trans (ih _)

theorem sameParts_pm (m : Mach) (p : Power) : SameParts m { m with pm := p } := by constructor <;> rfl
theorem sameParts_setReg (m : Mach) (a : Nat) (w : Word) : SameParts m (m.setReg a w) := by constructor <;> rfl
theorem sameParts_setRegN (m : Mach) (a v : Nat) : SameParts m (m.setRegN a v) := by constructor <;> rfl
theorem sameParts_setFlagOf (m : Mach) (a i : Nat) (b : Bool) : SameParts m (m.setFlagOf a i b) := by constructor <;> rfl
theorem sameParts_satFld (m : Mach) (a lo n d : Nat) : SameParts m (m.satFld a lo n d) := by constructor <;> rfl
theorem sameParts_incFld (m : Mach) (a lo n d : Nat) : SameParts m (m.incFld a lo n d) := by constructor <;> rfl
theorem sameParts_emit (m : Mach) (o : Out) : SameParts m (m.emit o) := by constructor <;> rfl
theorem sameParts_raiseAt (m : Mach) (c t : Nat) (d : Bool) (n k i : Nat) : SameParts m (raiseAt m c t d n k i) := by constructor <;> rfl
theorem sameParts_raiseT (m : Mach) (c t i : Nat) : SameParts m (raiseT m c t i) := by constructor <;> rfl
theorem sameParts_raiseD (m : Mach) (c i : Nat) : SameParts m (raiseD m c i) := by constructor <;> rfl
theorem sameParts_setQueue (m : Mach) (t : Nat) (q : Queue) : SameParts m (setQueue m t q) := by constructor <;> rfl
theorem sameParts_dropCmd (m : Mach) (q cid : Nat) : SameParts m (dropCmd m q cid) := by constructor <;> rfl

theorem sameParts_sendVec (m : Mach) (v : Nat) : SameParts m (sendVec m v) := by
  unfold sendVec; repeat' split
  all_goals constructor <;> rfl

theorem sameParts_writeTenantRing (m : Mach) (r : FaultRec) : SameParts m (writeTenantRing m r) := by
  unfold writeTenantRing; dsimp only; split
  · constructor <;> rfl
  · exact sameParts_satFld ..
  · exact SameParts.trans (by constructor <;> rfl) (sameParts_sendVec _ _)

theorem sameParts_writeDevRing (m : Mach) (r : FaultRec) : SameParts m (writeDevRing m r) := by
  unfold writeDevRing; dsimp only; split <;> constructor <;> rfl

theorem sameParts_writeRec (m : Mach) (r : FaultRec) : SameParts m (writeRec m r) := by
  unfold writeRec; repeat' split
  · exact (sameParts_writeTenantRing _ _).trans (sameParts_writeDevRing _ _)
  · constructor <;> rfl
  · exact (sameParts_satFld ..).trans (sameParts_satFld ..)

/-- The end of a command writes records and changes no part. -/
theorem sameParts_flushFaults (m : Mach) : SameParts m (flushFaults m) := by
  unfold flushFaults
  exact SameParts.trans (by constructor <;> rfl) (sameParts_foldl _ sameParts_writeRec _ _)

theorem sameParts_coalesce (m : Mach) (t : Nat) : SameParts m (coalesce m t) := by
  unfold coalesce; dsimp only; split
  · exact (sameParts_setQueue ..).trans (sameParts_sendVec ..)
  · exact sameParts_setQueue ..

theorem sameParts_writeCpl (m : Mach) (c : Cpl) : SameParts m (writeCpl m c) := by
  unfold writeCpl; dsimp only
  refine SameParts.trans (SameParts.trans (SameParts.trans ?_ (sameParts_setQueue ..)) (sameParts_setReg ..)) (sameParts_coalesce ..)
  split
  · constructor <;> rfl
  · exact sameParts_emit ..

theorem sameParts_postCpl (m : Mach) (c : Cpl) : SameParts m (postCpl m c) := by
  unfold postCpl; dsimp only; repeat' split
  · exact sameParts_emit ..
  · exact sameParts_setQueue ..
  · exact .refl m
  · constructor <;> rfl
  · exact sameParts_writeCpl ..

/-- A completion changes no part. -/
theorem sameParts_complete (m : Mach) (q cid op st res det : Nat) : SameParts m (complete m q cid op st res det) :=
  (sameParts_dropCmd ..).trans (sameParts_postCpl ..)

/-- A refusal changes no part. -/
theorem sameParts_refuse (m : Mach) (q cid op code det : Nat) : SameParts m (refuse m q cid op code det) :=
  (sameParts_raiseT ..).trans (sameParts_complete ..)

theorem sameParts_notice (m : Mach) (q op st res det cls : Nat) : SameParts m (notice m q op st res det cls) := by
  unfold notice; dsimp only; repeat' split
  · exact sameParts_postCpl ..
  · exact sameParts_satFld ..
  · constructor <;> rfl

theorem sameParts_beginTrans (m : Mach) (a : Act) : SameParts m (beginTrans m a) := by
  unfold beginTrans; dsimp only; split <;> constructor <;> rfl

theorem sameParts_pumpActs (l : List Act) (b : List Nat) (m : Mach) : SameParts m (pumpActs l b m) := by
  induction l generalizing b m with
  | nil => exact .refl m
  | cons a l ih =>
    unfold pumpActs; repeat' split
    · exact SameParts.trans (by constructor <;> rfl) (ih _ _)
    · exact ih _ _
    · exact (sameParts_beginTrans ..).trans (ih _ _)
    · exact SameParts.trans (by constructor <;> rfl) (ih _ _)

theorem sameParts_setMasks (m : Mach) (c o : Nat) : SameParts m (setMasks m c o) := by constructor <;> rfl

theorem sameParts_finishReqs (m : Mach) : SameParts m (finishReqs m) := by
  unfold finishReqs; dsimp only
  exact SameParts.trans (by constructor <;> rfl)
    (sameParts_foldl _ (fun m r => (sameParts_setMasks ..).trans (sameParts_complete ..)) _ _)

theorem sameParts_pumpPower (m : Mach) : SameParts m (pumpPower m) := by
  unfold pumpPower
  exact SameParts.trans (b := { m with pm := { m.pm with acts := [] } }) (by constructor <;> rfl)
    ((sameParts_pumpActs ..).trans (sameParts_finishReqs ..))

theorem sameParts_acceptPower (m : Mach) (n st : Nat) (s : Bool) (r : Nat) : SameParts m (acceptPower m n st s r).1 := by
  unfold acceptPower; dsimp only; split <;> constructor <;> rfl

/-- A power request and what begins with it change no part of a chapter. -/
theorem sameParts_raiseDomains (m : Mach) (ds : List Nat) : SameParts m (raiseDomains m ds) := by
  unfold raiseDomains; split
  · exact .refl m
  · exact (sameParts_acceptPower ..).trans (sameParts_pumpPower ..)

theorem sameParts_wakeHost (m : Mach) : SameParts m (wakeHost m) := by
  unfold wakeHost; split
  · exact sameParts_raiseDomains ..
  · exact .refl m

theorem sameParts_doWake (m : Mach) (w : Wake) (b : Bool) : SameParts m (doWake m w b) := by
  unfold doWake; dsimp only
  exact (sameParts_raiseDomains ..).trans (by constructor <;> rfl)

theorem sameParts_wake (m : Mach) (w : Wake) : SameParts m (wake m w) := by
  unfold wake; split
  · constructor <;> rfl
  · exact sameParts_doWake ..

theorem sameParts_acceptPerf (m : Mach) (p : PerfParams) : SameParts m (acceptPerf m p) := by
  unfold acceptPerf; dsimp only; split
  · exact .refl m
  · constructor <;> rfl

theorem sameParts_orderCounted (m : Mach) (k : Nat) (b : Bool) : SameParts m (orderCounted m k b) := by
  unfold orderCounted; dsimp only; split
  · exact sameParts_setRegN ..
  · exact (sameParts_setRegN m _ _).trans ((sameParts_pm _ _).trans (sameParts_setReg ..))

theorem sameParts_orderAct (m : Mach) (k : Nat) (o : SOrder) : SameParts m (orderAct m k o).1 := by
  unfold orderAct; dsimp only
  split <;> split
  · exact sameParts_raiseT ..
  · exact (sameParts_acceptPower ..).trans ((sameParts_setMasks ..).trans (sameParts_pumpPower ..))
  · exact sameParts_raiseT ..
  · exact sameParts_acceptPerf ..

/-- A standing order changes no part of a chapter. -/
theorem sameParts_fireOrder (m : Mach) (k : Nat) (o : SOrder) (c : Nat) : SameParts m (fireOrder m k o c) := by
  unfold fireOrder; dsimp only
  have h := (sameParts_orderCounted m k o.rept).trans (sameParts_orderAct _ k o)
  split
  · exact h.trans (sameParts_notice ..)
  · exact h

theorem sameParts_fireOrders (m : Mach) (c : Nat) : SameParts m (fireOrders m c) := by
  unfold fireOrders
  refine sameParts_foldl _ (fun m e => ?_) _ _
  repeat' split
  · exact sameParts_fireOrder ..
  · exact .refl m
  · exact .refl m

/-- What an event does once its entry is placed changes no part. -/
theorem sameParts_eventPosted (m : Mach) (c : Nat) : SameParts m (eventPosted m c) := by
  unfold eventPosted; dsimp only
  have h := (sameParts_setFlagOf m rLH_EVT_PENDING (classBit c) true).trans (sameParts_fireOrders _ c)
  split
  · exact h.trans (sameParts_wake ..)
  · exact h

/-- An event changes the latch and no part of a chapter. -/
theorem sameParts_postEvent (m : Mach) (c t : Nat) : SameParts { m with latch := (postEvent m c t).latch } (postEvent m c t) := by
  unfold postEvent
  split
  · exact .refl m
  split
  · have h := sameParts_eventPosted { m with latch := insertEvent (eventEntry m c t) m.latch } c
    rw [h.latch]; exact h
  · have h := (SameParts.trans (sameParts_satFld ..) (sameParts_raiseD _ 0x0807 0)).trans (sameParts_eventPosted (raiseD (m.satFld rLH_EVT_LOST 0 32 1) 0x0807 0) c)
    rw [h.latch]; exact h

/-! ## The outcome of a command -/

/-- What a command does to the parts is what its effect does to them. -/
theorem sameParts_runEffect (f : Mach → Mach) (m : Mach) : SameParts (f { m with out := [] }) (runEffect f m) :=
  (sameParts_wakeHost _).trans (sameParts_flushFaults _)

@[simp] theorem runEffect_shadow (f : Mach → Mach) (m : Mach) : (runEffect f m).shadow = (f { m with out := [] }).shadow := (sameParts_runEffect f m).shadow
@[simp] theorem runEffect_held (f : Mach → Mach) (m : Mach) : (runEffect f m).held = (f { m with out := [] }).held := (sameParts_runEffect f m).held
@[simp] theorem runEffect_tk (f : Mach → Mach) (m : Mach) : (runEffect f m).tk = (f { m with out := [] }).tk := (sameParts_runEffect f m).tk
@[simp] theorem runEffect_st (f : Mach → Mach) (m : Mach) : (runEffect f m).st = (f { m with out := [] }).st := (sameParts_runEffect f m).st
@[simp] theorem runEffect_sto (f : Mach → Mach) (m : Mach) : (runEffect f m).sto = (f { m with out := [] }).sto := (sameParts_runEffect f m).sto
@[simp] theorem runEffect_cas (f : Mach → Mach) (m : Mach) : (runEffect f m).cas = (f { m with out := [] }).cas := (sameParts_runEffect f m).cas
@[simp] theorem runEffect_lh (f : Mach → Mach) (m : Mach) : (runEffect f m).lh = (f { m with out := [] }).lh := (sameParts_runEffect f m).lh
@[simp] theorem runEffect_mem (f : Mach → Mach) (m : Mach) : (runEffect f m).mem = (f { m with out := [] }).mem := (sameParts_runEffect f m).mem
@[simp] theorem runEffect_fl (f : Mach → Mach) (m : Mach) : (runEffect f m).fl = (f { m with out := [] }).fl := (sameParts_runEffect f m).fl
@[simp] theorem runEffect_hm (f : Mach → Mach) (m : Mach) : (runEffect f m).hm = (f { m with out := [] }).hm := (sameParts_runEffect f m).hm
@[simp] theorem runEffect_sn (f : Mach → Mach) (m : Mach) : (runEffect f m).sn = (f { m with out := [] }).sn := (sameParts_runEffect f m).sn
@[simp] theorem runEffect_fu (f : Mach → Mach) (m : Mach) : (runEffect f m).fu = (f { m with out := [] }).fu := (sameParts_runEffect f m).fu
@[simp] theorem runEffect_ch (f : Mach → Mach) (m : Mach) : (runEffect f m).ch = (f { m with out := [] }).ch := (sameParts_runEffect f m).ch
@[simp] theorem runEffect_fresh (f : Mach → Mach) (m : Mach) : (runEffect f m).fresh = (f { m with out := [] }).fresh := (sameParts_runEffect f m).fresh
@[simp] theorem runEffect_latch (f : Mach → Mach) (m : Mach) : (runEffect f m).latch = (f { m with out := [] }).latch := (sameParts_runEffect f m).latch
@[simp] theorem runEffect_now (f : Mach → Mach) (m : Mach) : (runEffect f m).clk.now = (f { m with out := [] }).clk.now := (sameParts_runEffect f m).now
@[simp] theorem runEffect_tick (f : Mach → Mach) (m : Mach) : (runEffect f m).clk.tick = (f { m with out := [] }).clk.tick := (sameParts_runEffect f m).tick

/-- A record that is written raises nothing. -/
theorem raised_sendVec (m : Mach) (v : Nat) : (sendVec m v).ef = m.ef := by
  unfold sendVec; repeat' split
  all_goals rfl

theorem raised_writeRec (m : Mach) (r : FaultRec) : (writeRec m r).ef.raised = m.ef.raised := by
  have ht : ∀ m, (writeTenantRing m r).ef.raised = m.ef.raised := by
    intro m; unfold writeTenantRing; dsimp only; split
    · rfl
    · rfl
    · rw [raised_sendVec]; rfl
  have hd : ∀ m, (writeDevRing m r).ef.raised = m.ef.raised := by
    intro m; unfold writeDevRing; dsimp only; split <;> rfl
  unfold writeRec; repeat' split
  · rw [hd, ht]
  · rfl
  · rfl

/-- No raised fault is left when a command has ended (R701). -/
theorem flushFaults_raised (m : Mach) : (flushFaults m).ef.raised = [] := by
  unfold flushFaults; dsimp only
  generalize sortRecs m.ef.raised = l
  suffices ∀ (l : List FaultRec) (m : Mach), (l.foldl writeRec m).ef.raised = m.ef.raised from this ..
  intro l
  induction l with
  | nil => exact fun _ => rfl
  | cons r l ih => exact fun m => (ih _).trans (raised_writeRec m r)

@[simp] theorem runEffect_raised (f : Mach → Mach) (m : Mach) : (runEffect f m).ef.raised = [] := flushFaults_raised _

/-- A command that raises nothing and leaves no completion held ends as its effect leaves it. -/
theorem runEffect_quiet (f : Mach → Mach) (m : Mach) (hr : (f { m with out := [] }).ef.raised = [])
    (hh : (f { m with out := [] }).hs.held = []) : runEffect f m = f { m with out := [] } := by
  unfold runEffect
  have : wakeHost (f { m with out := [] }) = f { m with out := [] } := by unfold wakeHost; simp [hh]
  rw [this]
  unfold flushFaults
  rw [hr]
  simp only [sortRecs, List.foldl_nil]
  rw [← hr]

end Sys2Proof.Machine
end

