-- ==== Sys2Proof/Laws/Issue.lean ====
section
/-!
SUPPORT. What the issue of one instruction word does (R82–R93, R113).
-/
namespace Sys2Proof.Machine

@[simp] theorem setStream_id (r : SlotRun) (i : Nat) (st : Stream) : (r.setStream i st).id = r.id := rfl
@[simp] theorem wordDone_id (r : SlotRun) (i : Nat) (st : Stream) (l : Bool) : (wordDone r i st l).id = r.id := rfl
@[simp] theorem wordDone_lands (r : SlotRun) (i : Nat) (st : Stream) (l : Bool) : (wordDone r i st l).lands = r.lands := rfl
@[simp] theorem wordDone_accs (r : SlotRun) (i : Nat) (st : Stream) (l : Bool) : (wordDone r i st l).accs = r.accs := rfl
@[simp] theorem wordDone_holds (r : SlotRun) (i : Nat) (st : Stream) (l : Bool) : (wordDone r i st l).holds = r.holds := rfl
@[simp] theorem wordDone_records (r : SlotRun) (i : Nat) (st : Stream) (l : Bool) : (wordDone r i st l).records = r.records := rfl
@[simp] theorem wordDone_pilots (r : SlotRun) (i : Nat) (st : Stream) (l : Bool) : (wordDone r i st l).pilots = r.pilots := rfl

@[simp] theorem contribute_id (r : SlotRun) (c : Ctx) (i : Ins) (o : Issued) : (contribute r c i o).id = r.id := rfl

/-- The stream after an instruction that executed: the control it asked for, and its unit's occupancy (R92, R94). -/
def Ctx.after (c : Ctx) (unit : Nat) (o : Issued) : Stream :=
  Stream.setBusy { c.st with ctl := if o.ctl = Ctl.none then c.st.ctl else o.ctl } unit (c.cyc + o.occ)

/-- The issue of an instruction that executes and raises nothing: its run takes what it contributes, and its word is counted. -/
theorem issue_eq {s : State} {iss : Issue} {unit : Nat} {m : Mach} {c : Ctx} (h : Executes s iss unit m c) (f : Mach → Ctx → Issued × Mach)
    (hs : (f m c).1.squash = 0) (hf : (f m c).1.faults = []) :
    issue { s.mach with out := [] } iss unit f =
      putRun (f m c).2 (wordDone (contribute c.run c c.ins (f m c).1) c.i (c.after unit (f m c).1) iss.last) := by
  obtain ⟨⟨c0, h0, rfl⟩, hg, hb⟩ := h
  unfold issue
  rw [h0]
  have hb' : ¬ (c0.cyc < c0.st.busy unit) := Nat.not_lt.2 hb
  simp only at hg hs hf ⊢
  rw [if_neg (by simp [hg]), if_neg hb', if_neg (by simp [hs]), hf]
  rfl

/-- The same of an instruction that only contributes to its run. -/
theorem issuePure_eq {s : State} {iss : Issue} {unit : Nat} {m : Mach} {c : Ctx} (h : Executes s iss unit m c) (f : Mach → Ctx → Issued)
    (hs : (f m c).squash = 0) (hf : (f m c).faults = []) :
    issuePure { s.mach with out := [] } iss unit f =
      putRun m (wordDone (contribute c.run c c.ins (f m c)) c.i (c.after unit (f m c)) iss.last) :=
  issue_eq h (fun m c => (f m c, m)) hs hf

/-- An instruction that executes, raises nothing and acts on its run alone gives its run what it contributes. -/
theorem runGets_pure {i : Instr} {s : State} {iss : Issue} {unit : Nat} {m : Mach} {c : Ctx} (h : Executes s iss unit m c)
    (f : Mach → Ctx → Issued) (hi : exec i s = s.effect (fun m => issuePure m iss unit f)) (hs : (f m c).squash = 0)
    (hf : (f m c).faults = []) {P : SlotRun → Prop}
    (hP : P (wordDone (contribute c.run c c.ins (f m c)) c.i (c.after unit (f m c)) iss.last)) : RunGets i s m c P := by
  refine ⟨_, wordDone (contribute c.run c c.ins (f m c)) c.i (c.after unit (f m c)) iss.last, hi, rfl, rfl, ?_, rfl, hP⟩
  have := sameParts_runEffect (fun m => issuePure m iss unit f) s.mach
  rwa [issuePure_eq h f hs hf] at this

/-- The same where the instruction also takes part in the parity check, without an error. -/
theorem runGets_issue {i : Instr} {s : State} {iss : Issue} {unit : Nat} {m : Mach} {c : Ctx} (h : Executes s iss unit m c)
    (f : Mach → Ctx → Issued × Mach) (hi : exec i s = s.effect (fun m => issue m iss unit f)) (hs : (f m c).1.squash = 0)
    (hf : (f m c).1.faults = []) (hm : (f m c).2 = m) {P : SlotRun → Prop}
    (hP : P (wordDone (contribute c.run c c.ins (f m c).1) c.i (c.after unit (f m c).1) iss.last)) : RunGets i s m c P := by
  refine ⟨_, wordDone (contribute c.run c c.ins (f m c).1) c.i (c.after unit (f m c).1) iss.last, hi, rfl, rfl, ?_, rfl, hP⟩
  have := sameParts_runEffect (fun m => issue m iss unit f) s.mach
  rwa [issue_eq h f hs hf, hm] at this

/-- An instruction that contributes landings and nothing else. -/
theorem landsOnly_contribute (c : Ctx) (i : Nat) (st : Stream) (l : Bool) (o : Issued) (ha : o.accs = []) (hh : o.holds = [])
    (hr : o.records = []) (hp : o.pilots = []) : LandsOnly c o.lands (wordDone (contribute c.run c c.ins o) i st l) := by
  refine ⟨rfl, ?_, ?_, ?_, ?_⟩ <;> simp [contribute, ha, hh, hr, hp]

/-- Raising the faults of an instruction changes the fault log and registers, and notes the instruction in its run (R111). -/
theorem raiseFaults_same (codes : List Nat) (i : Ins) (m : Mach) (r : SlotRun) :
    let p := codes.foldl (fun (p : Mach × SlotRun) code =>
      if code = 0x0210 then raiseRange p.1 p.2 i else if code = 0x0211 then raisePort p.1 p.2 i else (raiseIns p.1 code p.2 i, p.2)) (m, r)
    SameParts m p.1 ∧ ∃ a b, p.2 = { r with ranged := a, ported := b } := by
  induction codes generalizing m r with
  | nil => exact ⟨.refl m, r.ranged, r.ported, rfl⟩
  | cons k codes ih =>
    have hr : ∀ (m : Mach) (r : SlotRun) k, SameParts m (raiseIns m k r i) := fun m r k => by constructor <;> rfl
    have step : SameParts m (if k = 0x0210 then raiseRange m r i else if k = 0x0211 then raisePort m r i else (raiseIns m k r i, r)).1 ∧
        ∃ a b, (if k = 0x0210 then raiseRange m r i else if k = 0x0211 then raisePort m r i else (raiseIns m k r i, r)).2 =
          { r with ranged := a, ported := b } := by
      split
      · unfold raiseRange; split
        · exact ⟨.refl m, r.ranged, r.ported, rfl⟩
        · exact ⟨hr .., _, r.ported, rfl⟩
      · split
        · unfold raisePort; split
          · exact ⟨.refl m, r.ranged, r.ported, rfl⟩
          · exact ⟨hr .., r.ranged, _, rfl⟩
        · exact ⟨hr .., r.ranged, r.ported, rfl⟩
    obtain ⟨h1, a, b, h2⟩ := step
    rw [List.foldl_cons]
    generalize (if k = 0x0210 then raiseRange m r i else if k = 0x0211 then raisePort m r i else (raiseIns m k r i, r)) = p at h1 h2
    obtain ⟨m', r'⟩ := p
    obtain ⟨h3, a', b', h4⟩ := ih m' r'
    refine ⟨h1.trans h3, a', b', h4.trans ?_⟩
    dsimp only at h2; rw [h2]

theorem sameParts_putRun {a b : Mach} (h : SameParts a b) (r : SlotRun) : SameParts (putRun a r) (putRun b r) := by
  constructor
  · exact h.shadow
  · exact h.held
  · exact h.tk
  · show (putRun b r).st = (putRun a r).st
    unfold putRun; rw [h.st]
  · exact h.sto
  · exact h.cas
  · exact h.lh
  · exact h.mem
  · exact h.fl
  · exact h.hm
  · exact h.sn
  · exact h.fu
  · exact h.ch
  · exact h.fresh
  · exact h.latch
  · exact h.now
  · exact h.tick
  · exact h.tickStart
  · exact h.refStopped

/-- An instruction that executes and is not squashed gives its run what it contributes, whatever faults its accesses raise. -/
theorem runGets_any {i : Instr} {s : State} {iss : Issue} {unit : Nat} {m : Mach} {c : Ctx} (h : Executes s iss unit m c)
    (f : Mach → Ctx → Issued × Mach) (hi : exec i s = s.effect (fun m => issue m iss unit f)) (hs : (f m c).1.squash = 0) {P : SlotRun → Prop}
    (hP : ∀ a b, P (wordDone { contribute c.run c c.ins (f m c).1 with ranged := a, ported := b } c.i (c.after unit (f m c).1) iss.last)) :
    RunGets i s (f m c).2 c P := by
  obtain ⟨⟨c0, h0, rfl⟩, hg, hb⟩ := h
  have hb' : ¬ (c0.cyc < c0.st.busy unit) := Nat.not_lt.2 hb
  set c : Ctx := { c0 with ins := { c0.ins with unit := unit } } with hc
  obtain ⟨h1, a, b, h2⟩ := raiseFaults_same (f m c).1.faults c.ins (f m c).2 (contribute c.run c c.ins (f m c).1)
  refine ⟨_, _, hi, rfl, rfl, ?_, ?_, hP a b⟩
  · have := sameParts_runEffect (fun m => issue m iss unit f) s.mach
    refine SameParts.trans ?_ this
    have e : issue { s.mach with out := [] } iss unit f = putRun ((f m c).1.faults.foldl (fun (p : Mach × SlotRun) code =>
      if code = 0x0210 then raiseRange p.1 p.2 c.ins else if code = 0x0211 then raisePort p.1 p.2 c.ins else (raiseIns p.1 code p.2 c.ins, p.2))
        ((f m c).2, contribute c.run c c.ins (f m c).1)).1
        (wordDone { contribute c.run c c.ins (f m c).1 with ranged := a, ported := b } c.i (c.after unit (f m c).1) iss.last) := by
      rw [← h2]
      unfold issue
      rw [h0]
      dsimp only
      rw [if_neg (show ¬ (!guardOk m c0.bank iss) = true by simpa using hg), if_neg hb', if_neg (show ¬ (f m c).1.squash ≠ 0 by simp [hs])]
      rfl
    rw [e]
    exact sameParts_putRun h1 _
  · rfl

/-- Every instruction word is issued by the one shared operation. -/
theorem exec_ins {i : Instr} {iss : Issue} {unit : Nat} (h : insOf i = some (iss, unit)) (s : State) :
    ∃ f, exec i s = s.effect (fun m => issue m iss unit f) := by
  cases i
  case nop src => cases src <;> simp only [insOf, Option.some.injEq, Prod.mk.injEq, reduceCtorEq] at h <;> obtain ⟨rfl, rfl⟩ := h <;> exact ⟨_, rfl⟩
  all_goals first
    | (simp only [insOf, reduceCtorEq] at h; done)
    | (simp only [insOf, Option.some.injEq, Prod.mk.injEq] at h; obtain ⟨rfl, rfl⟩ := h; exact ⟨_, rfl⟩)

end Sys2Proof.Machine
end

