-- ==== Sys2Proof/Laws/Land.lean ====
section
/-!
SUPPORT. What a cycle of a run does: landings and accesses (R87–R91).
-/
namespace Sys2Proof.Machine

/-- A run that was put is found. -/
theorem findRun_putRun (m : Mach) (r r' : SlotRun) (n : Nat) (h : findRun m n = some r) (hid : r'.id = n) : findRun (putRun m r') n = some r' := by
  unfold findRun at h ⊢
  unfold putRun
  dsimp only
  subst hid
  generalize m.st.runs = l at h
  induction l with
  | nil => simp at h
  | cons x l ih =>
    rw [List.map_cons, List.find?_cons]
    by_cases hx : x.id = r'.id
    · simp [hx]
    · have hne : (x.id == r'.id) = false := by simp [hx]
      rw [List.find?_cons, hne] at h
      simp only [hne, Bool.false_eq_true, if_false]
      exact ih h

/-- A run is found under its number. -/
theorem findRun_id {m : Mach} {n : Nat} {r : SlotRun} (h : findRun m n = some r) : r.id = n := by
  unfold findRun at h
  have := List.find?_some h
  simpa using this

/-- Without holds nothing is marked. -/
theorem markHolds_nil (cs : List Claim) (k : Nat) (m : Mach) (r : SlotRun) (h : r.holds = []) : markHolds cs k m r = (m, r) := by
  unfold markHolds; rw [h]; rfl

/-- RESULT_LAND runs the earliest pending cycle. -/
theorem resultLand_eq {m : Mach} {n : Nat} {r : SlotRun} {k : Nat} (hf : findRun m n = some r) (hk : nextCycle r = some k) (hl : k < r.length) :
    ∃ t, resultLand m n = putRun (runCycle (advanceTo m t) r k).1 (runCycle (advanceTo m t) r k).2 := by
  unfold resultLand
  rw [hf]; dsimp only; rw [hk]; dsimp only
  rw [if_neg (by omega)]
  split
  · exact ⟨_, rfl⟩
  · exact ⟨_, rfl⟩

/-- What RESULT_LAND answers. -/
theorem ends_of {s : State} {n : Fin 255} {r : SlotRun} {k : Nat} (hf : findRun s.mach n.val = some r) (hk : nextCycle r = some k) (hl : k < r.length) {Q : State → Prop}
    (hQ : ∀ (t : State) (x : Mach), x.st = s.mach.st → x.cas = s.mach.cas → t.mach.st = (putRun (runCycle x r k).1 (runCycle x r k).2).st → Q t) :
    ∃ t, exec (.resultLand (.slot n)) s = .next t ∧ t.pending = s.pending ∧ t.fuses = s.fuses ∧ Q t := by
  obtain ⟨t0, ht⟩ := resultLand_eq (m := { s.mach with out := [] }) hf hk hl
  refine ⟨_, rfl, rfl, rfl, hQ _ (advanceTo { s.mach with out := [] } t0) rfl rfl ?_⟩
  dsimp only
  rw [runEffect_st]
  show (resultLand _ n.val).st = _
  rw [ht]

/-- One landing alone at its cycle. -/
theorem runCycle_land (x : Mach) (r : SlotRun) (k : Nat) (l : Land) (hh : r.holds = []) (h1 : r.lands.filter (·.cyc == k) = [l]) (h2 : r.accs.filter (·.cyc == k) = []) :
    (runCycle x r k).1 = applyLand x { r with lands := r.lands.filter (·.cyc != k) } l.act := by
  unfold runCycle
  simp only [h1, h2, sortBy, List.foldl_cons, List.foldl_nil, insertBy]
  rw [markHolds_nil]
  simp [hh]

/-- One element is sorted. -/
theorem sortBy_single {α : Type} (f : α → Nat) (x : α) : sortBy f [x] = [x] := rfl

/-- No element is sorted. -/
theorem sortBy_nil {α : Type} (f : α → Nat) : sortBy f ([] : List α) = [] := rfl

/-- A permitted store writes its bytes and no other. -/
theorem writeBytes_spec (r : SlotRun) (lim : Nat) (bs : List Byte) (m : Mach) (x : Int) (hs : ∀ j < bs.length, byteOk m r lim true (x + (j : Int)) = true) :
    let m' := writeBytes r lim 0 m x bs
    m'.cas = m.cas ∧ m'.st.s = m.st.s ∧ m'.st.p = m.st.p ∧ m'.st.d = m.st.d ∧ m'.st.v = m.st.v ∧
    (∀ j < bs.length, berthByte m' (x + (j : Int)).toNat = bs.getD j 0) ∧
    (∀ a : Nat, ((a : Int) < x ∨ x + (bs.length : Int) ≤ (a : Int)) → berthByte m' a = berthByte m a) := by
  induction bs generalizing m x with
  | nil => exact ⟨rfl, rfl, rfl, rfl, rfl, by simp, fun a _ => rfl⟩
  | cons b bs ih =>
    have h0 := hs 0 (by simp)
    simp only [Nat.cast_zero, add_zero] at h0
    have hx : 0 ≤ x := by
      unfold byteOk at h0; simp only [Bool.and_eq_true, decide_eq_true_eq] at h0; exact h0.1.1.1
    have hserved : served m r lim true 0 x = true := by
      unfold served; rw [h0]; simp [bit]
    have hok : ∀ (m1 : Mach) (y : Int), m1.cas = m.cas → byteOk m1 r lim true y = byteOk m r lim true y := by
      intro m1 y hc; unfold byteOk mayTouch; rw [hc]
    obtain ⟨i1, i2, i3, i4, i5, i6, i7⟩ := ih (setBerthByte m x.toNat b) (x + 1) (fun j hj => by
      rw [hok (setBerthByte m x.toNat b) _ rfl]
      have := hs (j + 1) (by simp; omega)
      rwa [show x + 1 + (j : Int) = x + ((j + 1 : Nat) : Int) by push_cast; ring])
    have e : writeBytes r lim 0 m x (b :: bs) = writeBytes r lim 0 (setBerthByte m x.toNat b) (x + 1) bs := by
      rw [writeBytes, if_pos hserved]
    dsimp only
    rw [e]
    refine ⟨i1, i2, i3, i4, i5, ?_, ?_⟩
    · intro j hj
      cases j with
      | zero =>
        simp only [Nat.cast_zero, add_zero, List.getD_cons_zero]
        rw [i7 _ (.inl (by omega)), berthByte_setBerthByte, if_pos rfl]
      | succ j =>
        have := i6 j (by simp at hj; omega)
        rw [show x + ((j + 1 : Nat) : Int) = x + 1 + (j : Int) by push_cast; ring, List.getD_cons_succ]
        exact this
    · intro a ha
      rw [i7 a (by simp at ha; omega), berthByte_setBerthByte, if_neg]
      intro he
      rcases ha with ha | ha
      · omega
      · simp at ha; omega

/-- Raising what an access met leaves registers and berths alone. -/
theorem raiseMet_st (m : Mach) (r : SlotRun) (i : Ins) (a b : Bool) : (raiseMet m r i a b).1.st = m.st := by
  unfold raiseMet raiseRange raisePort
  cases a <;> cases b <;> (dsimp only; repeat' split) <;> simp_all [raiseIns]

/-- It leaves the landings of the run alone. -/
theorem raiseMet_run (m : Mach) (r : SlotRun) (i : Ins) (a b : Bool) : (raiseMet m r i a b).2.id = r.id ∧ (raiseMet m r i a b).2.lands = r.lands := by
  unfold raiseMet raiseRange raisePort
  cases a <;> cases b <;> (dsimp only; repeat' split) <;> simp_all

/-- An access that is alone loses no port. -/
theorem lostBerths_self (m : Mach) (r : SlotRun) (k : Nat) (a : BAcc) (hh : r.holds = []) (h2 : r.accs.filter (·.cyc == k) = [a]) (b : Nat) :
    lostBerths (claimsAt m r k) a.ins a.rank b = 0 := by
  unfold claimsAt lostBerths
  rw [h2, hh]
  cases ha : accRange a.act with
  | none => simp [ha]
  | some q => simp [ha]

/-- One access alone at its cycle. -/
theorem runCycle_access (x : Mach) (r : SlotRun) (k : Nat) (a : BAcc) (hh : r.holds = []) (h1 : r.lands.filter (·.cyc == k) = []) (h2 : r.accs.filter (·.cyc == k) = [a]) :
    runCycle x r k =
      let r1 : SlotRun := { r with lands := r.lands.filter (·.cyc != k), accs := r.accs.filter (·.cyc != k) }
      let cs := claimsAt x { r with lands := r.lands.filter (·.cyc != k) } k
      let p := serveWrite cs k x r1 a
      let q := serveRead cs k p.1 p.2 a
      (q.1, { q.2 with holds := q.2.holds.filter (fun h => decide (k < h.til)) }) := by
  unfold runCycle
  simp only [h1, h2, sortBy_nil, sortBy_single, List.foldl_cons, List.foldl_nil]
  have hm := markHolds_nil (claimsAt x { r with lands := r.lands.filter (·.cyc != k) } k) k x { r with lands := r.lands.filter (·.cyc != k), accs := r.accs.filter (·.cyc != k) } hh
  simp only at hm
  rw [hm]

end Sys2Proof.Machine
end

