-- ==== Sys2Proof/Laws/Vector.lean ====
section
/-!
SUPPORT. What the vector, tensor and control instructions contribute to their run.
-/
namespace Sys2Proof.Machine

/-- An instruction that executes and raises nothing gives its run what it contributes, on the machine that its effect leaves. -/
theorem runGets_issueM {i : Instr} {s : State} {iss : Issue} {unit : Nat} {m : Mach} {c : Ctx} (h : Executes s iss unit m c)
    (f : Mach → Ctx → Issued × Mach) (hi : exec i s = s.effect (fun m => issue m iss unit f)) (hs : (f m c).1.squash = 0)
    (hf : (f m c).1.faults = []) {P : SlotRun → Prop}
    (hP : P (wordDone (contribute c.run c c.ins (f m c).1) c.i (c.after unit (f m c).1) iss.last)) : RunGets i s (f m c).2 c P := by
  refine ⟨_, wordDone (contribute c.run c c.ins (f m c).1) c.i (c.after unit (f m c).1) iss.last, hi, rfl, rfl, ?_, rfl, hP⟩
  have := sameParts_runEffect (fun m => issue m iss unit f) s.mach
  rwa [issue_eq h f hs hf] at this

/-- An instruction that contributes landings only lands them. -/
theorem landsS {i : Instr} {s : State} {iss : Issue} {unit : Nat} {m : Mach} {c : Ctx} (h : Executes s iss unit m c)
    {f : Mach → Ctx → Issued} (hi : exec i s = s.effect (fun m => issuePure m iss unit f)) {ls : List (Nat × LandAct)} 
    (hf : f m c = { lands := ls }) : RunGets i s m c (LandsOnly c ls) := by
  refine runGets_pure h f hi (by rw [hf]) (by rw [hf]) ?_
  have := landsOnly_contribute c c.i (c.after unit (f m c)) iss.last (f m c) (by rw [hf]) (by rw [hf]) (by rw [hf]) (by rw [hf])
  rw [hf] at this ⊢
  exact this

/-- The stream after the last word of its bundle. -/
theorem bundleEnd_getElem (c : Ctx) (st : Stream) (r : SlotRun) (hi : c.i < r.streams.length) (st' : Stream)
    (he : endBundle { st with done := st.done + 1 } (st.done + 1) = st') : (wordDone r c.i st true).streams[c.i]? = some st' := by
  simp [wordDone, SlotRun.setStream, hi, he]

/-- An instruction that contributes landings, with an effect on the machine, lands them. -/
theorem landsI {i : Instr} {s : State} {iss : Issue} {unit : Nat} {m m' : Mach} {c : Ctx} (h : Executes s iss unit m c)
    {f : Mach → Ctx → Issued × Mach} (hi : exec i s = s.effect (fun m => issue m iss unit f)) {ls : List (Nat × LandAct)} {occ : Nat}
    (hf : f m c = ({ lands := ls, occ := occ }, m')) : RunGets i s m' c (LandsOnly c ls) := by
  have := runGets_issueM h f hi (by rw [hf]) (by rw [hf]) (landsOnly_contribute c c.i (c.after unit (f m c).1) iss.last (f m c).1 (by rw [hf]) (by rw [hf]) (by rw [hf]) (by rw [hf]))
  rw [hf] at this
  exact this

/-- What a vector instruction contributes, element by element. -/
theorem vMap_eq (par : Nat) (g : VGroup) (ty : VType) (w d n : Nat) (F : Nat → List (Nat × Nat)) (f : Nat → Nat → Nat × Nat) (m : Mach) (c : Ctx)
    (hF : ∀ cl, F cl = (List.range n).map (f cl)) (lat : Nat) (hl : (vtiming g ty).1 = lat) :
    vMap par g ty w d F m c = ({ lands := vecLands c par lat d w n f, occ := (vtiming g ty).2 }, vParityFx m c par) := by
  unfold vMap vecLands goodClusters
  simp only [hF, hl, List.map_map, List.foldl_map, Function.comp_def]

/-- The elements of a source register. -/
theorem vsrc_eq (m : Mach) (ty : VType) (cl r : Nat) : vsrc m ty cl r = (List.range (vcount ty)).map (elt m ty cl r) := rfl

/-- Two sources, element by element. -/
theorem zip_range {α β : Type} (n : Nat) (f : Nat → α) (g : Nat → β) :
    ((List.range n).map f).zip ((List.range n).map g) = (List.range n).map (fun i => (f i, g i)) := by
  rw [List.zip_map', ]

/-- A vector instruction of one source. -/
theorem v1_eq (par : Nat) (g : VGroup) (f : VType → Nat → Nat × Nat) (ty : VType) (d a : Nat) (m : Mach) (c : Ctx) (lat : Nat) (hl : (vtiming g ty).1 = lat) :
    v1 par g f ty d a m c = ({ lands := vecLands c par lat d (vbits ty) (vcount ty) (fun cl i => f ty (elt m ty cl a i)), occ := (vtiming g ty).2 }, vParityFx m c par) :=
  vMap_eq _ _ _ _ _ _ _ _ _ _ (fun cl => by rw [vsrc_eq, List.map_map]; rfl) _ hl

/-- A vector instruction of two sources. -/
theorem v2_eq (par : Nat) (g : VGroup) (f : VType → Nat → Nat → Nat × Nat) (ty : VType) (d a b : Nat) (m : Mach) (c : Ctx) (lat : Nat) (hl : (vtiming g ty).1 = lat) :
    v2 par g f ty d a b m c = ({ lands := vecLands c par lat d (vbits ty) (vcount ty) (fun cl i => f ty (elt m ty cl a i) (elt m ty cl b i)), occ := (vtiming g ty).2 }, vParityFx m c par) :=
  vMap_eq _ _ _ _ _ _ _ _ _ _ (fun cl => by rw [vsrc_eq, vsrc_eq, zip_range, List.map_map]; rfl) _ hl

/-- A vector instruction of three sources. -/
theorem v3_eq (par : Nat) (g : VGroup) (f : VType → Nat → Nat → Nat → Nat × Nat) (ty : VType) (d a b x : Nat) (m : Mach) (c : Ctx) (lat : Nat) (hl : (vtiming g ty).1 = lat) :
    v3 par g f ty d a b x m c = ({ lands := vecLands c par lat d (vbits ty) (vcount ty) (fun cl i => f ty (elt m ty cl a i) (elt m ty cl b i) (elt m ty cl x i)), occ := (vtiming g ty).2 }, vParityFx m c par) :=
  vMap_eq _ _ _ _ _ _ _ _ _ _ (fun cl => by rw [vsrc_eq, vsrc_eq, vsrc_eq, zip_range, zip_range, List.map_map]; rfl) _ hl

/-- Landings depend on the elements below the count alone. -/
theorem vecLands_congr (c : Ctx) (par lat d w n : Nat) (f g : Nat → Nat → Nat × Nat) (h : ∀ cl i, i < n → f cl i = g cl i) :
    vecLands c par lat d w n f = vecLands c par lat d w n g := by
  unfold vecLands
  have h1 : ∀ cl, (List.range n).map (fun i => (f cl i).1) = (List.range n).map (fun i => (g cl i).1) := fun cl =>
    List.map_congr_left (fun i hi => by rw [h cl i (List.mem_range.1 hi)])
  have h2 : ∀ cl (a : Nat), (List.range n).foldl (fun b i => b ||| (f cl i).2) a = (List.range n).foldl (fun b i => b ||| (g cl i).2) a := by
    intro cl a
    apply List.foldl_ext
    intro b i hi; rw [h cl i (List.mem_range.1 hi)]
  simp only [h1, h2]

/-- An instruction that contributes nothing to its run. -/
theorem landsNone {i : Instr} {s : State} {iss : Issue} {unit : Nat} {m m' : Mach} {c : Ctx} (h : Executes s iss unit m c)
    {f : Mach → Ctx → Issued × Mach} (hi : exec i s = s.effect (fun m => issue m iss unit f)) 
    (hf : f m c = ({ }, m')) : RunGets i s m' c (LandsOnly c []) := by
  have := runGets_issueM h f hi (by rw [hf]) (by rw [hf]) (landsOnly_contribute c c.i (c.after unit (f m c).1) iss.last (f m c).1 (by rw [hf]) (by rw [hf]) (by rw [hf]) (by rw [hf]))
  rw [hf] at this
  exact this

/-- A bit of a union of masks. -/
theorem foldl_or_testBit (l : List Nat) (a i : Nat) : (l.foldl (· ||| ·) a).testBit i = (a.testBit i || l.any (·.testBit i)) := by
  induction l generalizing a with
  | nil => simp
  | cons x l ih => simp [ih, Nat.testBit_or, Bool.or_assoc]

/-- A mask within another. -/
theorem and_eq_self_of (a b : Nat) (h : ∀ i, a.testBit i = true → b.testBit i = true) : a &&& b = a := by
  apply Nat.eq_of_testBit_eq; intro i
  rw [Nat.testBit_and]
  cases ha : a.testBit i
  · simp
  · simp [h i ha]

/-- Disjoint masks. -/
theorem and_eq_zero_of (a b : Nat) (h : ∀ i, a.testBit i = true → b.testBit i = false) : a &&& b = 0 := by
  apply Nat.eq_of_testBit_eq; intro i
  rw [Nat.testBit_and]
  cases ha : a.testBit i
  · simp
  · simp [h i ha]

/-- No element is suppressed. -/
theorem any_none_false {l : List (((Nat × Nat)) × List (Option Nat))} (h : ∀ x ∈ l, ∀ o ∈ x.2, o.isSome = true) :
    l.any (fun x => x.2.any Option.isNone) = false := by
  simp only [List.any_eq_false]
  intro x hx hn
  rw [List.any_eq_true] at hn
  obtain ⟨o, ho, hn⟩ := hn
  have := h x hx o ho
  cases o <;> simp_all

/-- The stream after an instruction word. -/
theorem wd_getElem (r : SlotRun) (i : Nat) (st : Stream) (l : Bool) (st' : Stream) (h : (wordDone r i st l).streams[i]? = some st') :
    st' = (if l then endBundle { st with done := st.done + 1 } (st.done + 1) else { st with done := st.done + 1 }) := by
  unfold wordDone SlotRun.setStream at h
  dsimp only at h
  rw [List.getElem?_set] at h
  simp only [if_true] at h
  split at h
  · exact (Option.some.inj h).symm
  · cases h

/-- Past a check that would squash. -/
theorem ite_sq {p : Prop} [Decidable p] {k : Nat} {m : Mach} {X : Issued × Mach} (hk : k ≠ 0)
    (h : (if p then (({ squash := k } : Issued), m) else X).1.squash = 0) : ¬ p ∧ X.1.squash = 0 := by
  split at h
  · exact absurd h hk
  · exact ⟨‹_›, h⟩

/-- The end of a bundle keeps the occupancies. -/
theorem endBundle_busy (st : Stream) (n : Nat) : (endBundle st n).busyT = st.busyT ∧ (endBundle st n).busyV = st.busyV ∧ (endBundle st n).busyM = st.busyM := by
  unfold endBundle
  dsimp only
  split <;> try exact ⟨rfl, rfl, rfl⟩
  split <;> exact ⟨rfl, rfl, rfl⟩

/-- The T unit is occupied for O cycles. -/
theorem busyT_after (c : Ctx) (o : Issued) (r : SlotRun) (l : Bool) (st : Stream)
    (h : (wordDone r c.i (c.after 1 o) l).streams[c.i]? = some st) : st.busyT = c.cyc + o.occ := by
  rw [wd_getElem _ _ _ _ _ h]
  split
  · rw [(endBundle_busy _ _).1]; rfl
  · rfl

/-- The M unit is occupied for O cycles. -/
theorem busyM_after (c : Ctx) (o : Issued) (r : SlotRun) (l : Bool) (st : Stream)
    (h : (wordDone r c.i (c.after 3 o) l).streams[c.i]? = some st) : st.busyM = c.cyc + o.occ := by
  rw [wd_getElem _ _ _ _ _ h]
  split
  · rw [(endBundle_busy _ _).2.2]; rfl
  · rfl

/-- Without a parity error no resource is hit. -/
theorem tParity_zero (c : Ctx) : tParity c 0 = ([], []) := by simp [tParity, bitList]

/-- What a T instruction contributes without a parity error. -/
theorem tResult_zero (m : Mach) (c : Ctx) (win : Bool) (ds : List TDesc) (occ : Nat) (bad mode : Bool) (cells : List (Nat × Byte)) (fl : Nat) :
    tResult m c 0 win ds occ bad mode cells fl =
      (Issued.mk [] [(occ + 24, 0, .tensor c.run.nextHold cells fl)] [⟨c.run.nextHold, c.ins, 0, c.cyc + 1, c.cyc + (occ + 24), reachable m c.run (ds.foldl (fun a d => a ||| d.berths 0) 0), false, false, []⟩]
        .none occ [] [] 0 ((if bad then [0x0210] else []) ++ (if mode then [0x0401] else [])), m) := by
  simp [tResult, tParity_zero]

/-- A T instruction that is not squashed holds its ports and lands its result at its last cycle. -/
theorem tensor_gets {i : Instr} {s : State} {iss : Issue} {m : Mach} {c : Ctx} (h : Executes s iss 1 m c)
    (f : Mach → Ctx → Issued × Mach) (hi : exec i s = s.effect (fun m => issue m iss 1 f)) (win : Bool) (ds : List TDesc) (occ : Nat) (bad mode : Bool) (cells : List (Nat × Byte)) (fl : Nat)
    (hf : f m c = tResult m c 0 win ds occ bad mode cells fl) :
    RunGets i s m c (fun r => r.lands = c.run.lands ∧ r.records = c.run.records ∧
      r.holds = c.run.holds ++ [⟨c.run.nextHold, c.ins, 0, c.cyc + 1, c.cyc + (occ + 24),
        reachable m c.run (ds.foldl (fun x t => x ||| t.berths 0) 0), false, false, []⟩] ∧
      (∃ cells fl, r.accs = c.run.accs ++ [⟨c.cyc + (occ + 24), c.ins, 0, .tensor c.run.nextHold cells fl⟩]) ∧
      ∀ st, r.streams[c.i]? = some st → st.busyT = c.cyc + occ) := by
  have hm : (f m c).2 = m := by rw [hf, tResult_zero]
  have := runGets_any (P := fun r => r.lands = c.run.lands ∧ r.records = c.run.records ∧
      r.holds = c.run.holds ++ [⟨c.run.nextHold, c.ins, 0, c.cyc + 1, c.cyc + (occ + 24),
        reachable m c.run (ds.foldl (fun x t => x ||| t.berths 0) 0), false, false, []⟩] ∧
      (∃ cells fl, r.accs = c.run.accs ++ [⟨c.cyc + (occ + 24), c.ins, 0, .tensor c.run.nextHold cells fl⟩]) ∧
      ∀ st, r.streams[c.i]? = some st → st.busyT = c.cyc + occ) h f hi (by rw [hf, tResult_zero]) ?_
  · rwa [hm] at this
  · intro a b
    rw [hf, tResult_zero]
    refine ⟨by simp [contribute], by simp [contribute], by simp [contribute], ⟨cells, fl, by simp [contribute]⟩, ?_⟩
    intro st hst
    exact busyT_after _ _ _ _ _ hst

end Sys2Proof.Machine
end

