-- ==== Sys2Proof/Laws/Move.lean ====
section
/-!
SUPPORT. What the M unit contributes: addresses, descriptor words, and rows.
-/
namespace Sys2Proof.Machine

/-- An instruction that only contributes to its run, whatever faults its accesses raise. -/
theorem getsPure {i : Instr} {s : State} {iss : Issue} {unit : Nat} {m : Mach} {c : Ctx} (h : Executes s iss unit m c)
    (f : Mach → Ctx → Issued) (hi : exec i s = s.effect (fun m => issuePure m iss unit f)) (hs : (f m c).squash = 0) {P : SlotRun → Prop}
    (hP : ∀ a b, P (wordDone { contribute c.run c c.ins (f m c) with ranged := a, ported := b } c.i (c.after unit (f m c)) iss.last)) :
    RunGets i s m c P := runGets_any h (fun m c => (f m c, m)) hi hs hP

/-- One that contributes landings only. -/
theorem landsPure {i : Instr} {s : State} {iss : Issue} {unit : Nat} {m : Mach} {c : Ctx} (h : Executes s iss unit m c)
    {f : Mach → Ctx → Issued} (hi : exec i s = s.effect (fun m => issuePure m iss unit f)) {ls : List (Nat × LandAct)} {fs : List Nat}
    (hf : f m c = { lands := ls, faults := fs }) : RunGets i s m c (LandsOnly c ls) := by
  refine getsPure h f hi (by rw [hf]) (fun a b => ?_)
  rw [hf]
  exact ⟨rfl, by simp [contribute], by simp [contribute], by simp [contribute], by simp [contribute]⟩

/-- A scalar address as an integer sum (R139). -/
theorem addr_eq (x : BitVec 64) (imm : BitVec 32) (k : Nat) :
    (((x + sext64 imm).toNat % 2 ^ k : Nat) : Int) = (x.toInt + imm.toInt) % (2 ^ 64 : Int) % (2 ^ k : Int) := by
  have : ((x + sext64 imm).toNat : Int) = (x.toInt + imm.toInt) % (2 ^ 64 : Int) := by
    rw [BitVec.toNat_add, sext64, BitVec.signExtend, BitVec.toNat_ofInt]
    rw [BitVec.toInt_eq_toNat_cond (x := x)]
    have := x.isLt
    split <;> omega
  rw [Int.natCast_mod, this]; simp

/-- A field by division. -/
theorem bits_eq (w lo n : Nat) : bits w lo n = w / 2 ^ lo % 2 ^ n := by rw [bits, Nat.shiftRight_eq_div_pow]

/-- A descriptor register with one word replaced. -/
theorem setDWord_toNat (d : BitVec 512) (i : Nat) (hi : i < 8) (v : BitVec 64) :
    (setDWord d i v).toNat = d.toNat % 2 ^ (64 * i) + 2 ^ (64 * i) * (v.toNat + 2 ^ 64 * (d.toNat / 2 ^ (64 * i) / 2 ^ 64)) := by
  unfold setDWord
  rw [BitVec.toNat_ofNat, bits_eq]
  have hv := v.isLt
  have hd := d.isLt
  set B := 2 ^ (64 * i) with hB
  have hBp : 0 < B := by positivity
  have e1 : d.toNat = d.toNat % B + B * (d.toNat / B) := (Nat.mod_add_div _ _).symm
  have e2 : d.toNat / B = d.toNat / B % 2 ^ 64 + 2 ^ 64 * (d.toNat / B / 2 ^ 64) := (Nat.mod_add_div _ _).symm
  set L := d.toNat % B
  set Q := d.toNat / B
  set W := Q % 2 ^ 64
  set H := Q / 2 ^ 64
  have e3 : d.toNat - W * B + v.toNat * B = L + B * (v.toNat + 2 ^ 64 * H) := by
    rw [e1, e2]
    have : L + B * (W + 2 ^ 64 * H) = W * B + (L + B * (2 ^ 64 * H)) := by ring
    rw [this, Nat.add_sub_cancel_left]; ring
  rw [e3, Nat.mod_eq_of_lt]
  have hL : L < B := Nat.mod_lt _ hBp
  have h512 : B * 2 ^ 64 * 2 ^ (512 - 64 * i - 64) = 2 ^ 512 := by
    rw [hB, ← pow_add, ← pow_add]; congr 1; omega
  have hH : H < 2 ^ (512 - 64 * i - 64) := by
    show d.toNat / B / 2 ^ 64 < _
    rw [Nat.div_div_eq_div_mul, Nat.div_lt_iff_lt_mul (by positivity)]
    rw [← h512] at hd; linarith [hd]
  calc L + B * (v.toNat + 2 ^ 64 * H) < B + B * (v.toNat + 2 ^ 64 * H) := by omega
    _ = B * (v.toNat + 1 + 2 ^ 64 * H) := by ring
    _ ≤ B * (2 ^ 64 + 2 ^ 64 * H) := Nat.mul_le_mul_left _ (by omega)
    _ = B * 2 ^ 64 * (H + 1) := by ring
    _ ≤ B * 2 ^ 64 * 2 ^ (512 - 64 * i - 64) := Nat.mul_le_mul_left _ hH
    _ = 2 ^ 512 := h512

/-- A word of such a number. -/
theorem word_same (L v Q : Nat) (i k : Nat) (hL : L < 2 ^ (64 * i)) (hv : v < 2 ^ 64) :
    (L + 2 ^ (64 * i) * (v + 2 ^ 64 * Q)) / 2 ^ (64 * k) % 2 ^ 64 =
      if k < i then L / 2 ^ (64 * k) % 2 ^ 64 else if k = i then v else Q / 2 ^ (64 * (k - i - 1)) % 2 ^ 64 := by
  split
  · rename_i hk
    obtain ⟨n, rfl⟩ : ∃ n, i = k + 1 + n := ⟨i - k - 1, by omega⟩
    have : 2 ^ (64 * (k + 1 + n)) = 2 ^ (64 * k) * (2 ^ 64 * 2 ^ (64 * n)) := by rw [← pow_add, ← pow_add]; congr 1; ring
    rw [this, mul_assoc, Nat.add_mul_div_left _ _ (by positivity), mul_assoc, Nat.add_mul_mod_self_left]
  · split
    · subst_vars
      rw [Nat.add_mul_div_left _ _ (by positivity), Nat.div_eq_of_lt hL, zero_add, Nat.add_mul_mod_self_left, Nat.mod_eq_of_lt hv]
    · obtain ⟨n, rfl⟩ : ∃ n, k = i + 1 + n := ⟨k - i - 1, by omega⟩
      have : 2 ^ (64 * (i + 1 + n)) = 2 ^ (64 * i) * 2 ^ 64 * 2 ^ (64 * n) := by rw [← pow_add, ← pow_add]; congr 1; ring
      rw [this, ← Nat.div_div_eq_div_mul, ← Nat.div_div_eq_div_mul, Nat.add_mul_div_left _ _ (by positivity), Nat.div_eq_of_lt hL, zero_add,
        Nat.add_mul_div_left _ _ (by positivity), Nat.div_eq_of_lt hv, zero_add]
      congr 4; omega

/-- Its words. -/
theorem setDWord_word (d : BitVec 512) (i : Nat) (hi : i < 8) (v : BitVec 64) (k : Nat) :
    bits (setDWord d i v).toNat (64 * k) 64 = if k = i then v.toNat else bits d.toNat (64 * k) 64 := by
  rw [bits_eq, setDWord_toNat d i hi v, word_same _ _ _ _ _ (Nat.mod_lt _ (by positivity)) v.isLt]
  have hd : bits d.toNat (64 * k) 64 = (d.toNat % 2 ^ (64 * i) + 2 ^ (64 * i) * (d.toNat / 2 ^ (64 * i) % 2 ^ 64 + 2 ^ 64 * (d.toNat / 2 ^ (64 * i) / 2 ^ 64))) / 2 ^ (64 * k) % 2 ^ 64 := by
    rw [Nat.mod_add_div, Nat.mod_add_div, bits_eq]
  rw [hd, word_same _ _ _ _ _ (Nat.mod_lt _ (by positivity)) (Nat.mod_lt _ (by positivity))]
  by_cases h1 : k < i
  · simp [h1, show k ≠ i by omega]
  · by_cases h2 : k = i <;> simp [h2, h1]

/-- BASE advanced modulo 2²⁵, with every other bit kept. -/
theorem addBase_spec (d : BitVec 512) (v : BitVec 64) :
    (addBase d v).toNat % 2 ^ 25 = (d.toNat + v.toNat) % 2 ^ 25 ∧ (addBase d v).toNat / 2 ^ 25 = d.toNat / 2 ^ 25 := by
  unfold addBase
  rw [BitVec.toNat_ofNat]
  simp only [bits_eq, pow_zero, Nat.div_one]
  have hd := d.isLt
  have e : d.toNat - d.toNat % 2 ^ 25 = 2 ^ 25 * (d.toNat / 2 ^ 25) := by omega
  rw [e]
  have hm : (d.toNat % 2 ^ 25 + v.toNat) % 2 ^ 25 < 2 ^ 25 := Nat.mod_lt _ (by norm_num)
  have hb : 2 ^ 25 * (d.toNat / 2 ^ 25) + (d.toNat % 2 ^ 25 + v.toNat) % 2 ^ 25 < 2 ^ 512 := by
    have : d.toNat / 2 ^ 25 < 2 ^ 487 := by rw [Nat.div_lt_iff_lt_mul (by norm_num)]; rw [← pow_add]; exact hd
    have h2 : (2 : Nat) ^ 512 = 2 ^ 25 * 2 ^ 487 := by rw [← pow_add]
    rw [h2]
    nlinarith [Nat.succ_le_of_lt this]
  rw [Nat.mod_eq_of_lt hb]
  constructor
  · rw [Nat.mul_add_mod, Nat.mod_mod, Nat.mod_add_mod]
  · rw [Nat.mul_add_div (by norm_num), Nat.div_eq_of_lt hm, add_zero]

/-- Positions of a mapped list. -/
theorem zipIdx_map' {α β : Type} (l : List α) (f : α → β) : (l.map f).zipIdx = l.zipIdx.map (fun p => (f p.1, p.2)) := by
  rw [List.zipIdx_map]; rfl

/-- Positions of positions. -/
theorem zipIdx_zipIdx {α : Type} (l : List α) (n : Nat) : (l.zipIdx n).zipIdx n = (l.zipIdx n).map (fun p => (p, p.2)) := by
  induction l generalizing n with
  | nil => rfl
  | cons x l ih => simp [List.zipIdx_cons, ih]

end Sys2Proof.Machine
end

