-- ==== Sys2Proof/WellFormed.lean ====
section
/-!
DEFINITION. The operand shapes that the spec gives the commands: the fields of an entry of a queue, of a buffer reference, of an
instruction word, of an access and of what the outside sends. `exec` is total and asks for none of them.
-/
namespace Sys2Proof

/-- A number lies in a field. -/
def lt (bound n : Nat) : Bool := decide (n < bound)

/-- The CID 0xFFFF is not used (R670). -/
def CmdCtx.wf (c : CmdCtx) : Bool := lt 0xFFFF c.cid

/-- The fields of a buffer reference, and as many bytes from host memory as it asks for (R671). -/
def BufRef.wf (r : BufRef) : Bool :=
  lt 4 r.kind && lt (2 ^ 64) r.addr && decide (1 ≤ r.len ∧ r.len ≤ 16777216) && r.dma.all (fun d => d.length == r.len)

/-- One bit for each resource that detects parity errors. -/
def Issue.wf (i : Issue) : Bool := lt (2 ^ 16) i.par

/-- The operands of a NOP. -/
def NopSource.wf : NopSource → Bool
  | .word i => i.wf
  | .command c => c.wf

/-- Eight microphones, 16 samples of each at 16 kHz (R350, R367). -/
def FrameIn.wf (f : FrameIn) : Bool := f.caps.length == 8 && f.vad.length == 8 && f.vad.all (fun v => v.length == 16)

/-- One bit for each tenant. -/
def StartIn.wf (x : StartIn) : Bool := lt (2 ^ 64) x.unreadable

/-- The operands of a command have the shapes that its row gives them. -/
def Instr.wf : Instr → Bool
  | .registerWrite _ a bs => lt 0x4000000 a && decide (1 ≤ bs.length ∧ bs.length ≤ 8)
  | .wideValueCaptureRead _ a n => lt 0x4000000 a && decide (1 ≤ n ∧ n ≤ 8)
  | .dmCeCount _ => true
  | .lhCapMissed _ _ => true
  | .auPbUnderrun _ _ => true
  | .cmRxErr _ _ => true
  | .snStreamOvr _ _ => true
  | .snStreamMissed _ _ => true
  | .fuOutMissed _ => true
  | .fuSnsLate _ _ => true
  | .chDiscard _ => true
  | .chPortErr _ _ => true
  | .hsAccessErr _ => true
  | .hsQCount _ _ => true
  | .efLost _ _ => true
  | .efDevLost _ => true
  | .efTail _ _ _ => true
  | .pdDroopMin _ _ => true
  | .pdStretchCount _ => true
  | .lhEvtPopLo _ => true
  | .tickBoundary => true
  | .referenceStop => true
  | .referenceRestart => true
  | .crystalStartTimeout => true
  | .seam => true
  | .tkCommit _ _ => true
  | .tableValidationDone => true
  | .slotStart _ => true
  | .slotEnd _ => true
  | .resultLand _ => true
  | .nop src => src.wf
  | .add iss _ _ _ => iss.wf
  | .sub iss _ _ _ => iss.wf
  | .mul iss _ _ _ => iss.wf
  | .and iss _ _ _ => iss.wf
  | .or iss _ _ _ => iss.wf
  | .xor iss _ _ _ => iss.wf
  | .shl iss _ _ _ => iss.wf
  | .shr iss _ _ _ => iss.wf
  | .sar iss _ _ _ => iss.wf
  | .min iss _ _ _ => iss.wf
  | .max iss _ _ _ => iss.wf
  | .minu iss _ _ _ => iss.wf
  | .maxu iss _ _ _ => iss.wf
  | .movi iss _ _ => iss.wf
  | .movhi iss _ _ _ => iss.wf
  | .rdspec iss _ _ => iss.wf
  | .cmpeq iss _ _ _ => iss.wf
  | .cmpne iss _ _ _ => iss.wf
  | .cmplt iss _ _ _ => iss.wf
  | .cmpltu iss _ _ _ => iss.wf
  | .cmple iss _ _ _ => iss.wf
  | .cmpleu iss _ _ _ => iss.wf
  | .plogic iss _ _ _ _ => iss.wf
  | .loop iss body _ => iss.wf && lt (2 ^ 32) body
  | .b iss _ => iss.wf
  | .wait iss _ => iss.wf
  | .endStream iss => iss.wf
  | .pilot iss _ _ lead => iss.wf && lt (2 ^ 32) lead
  | .conf iss _ => iss.wf
  | .wake iss _ _ => iss.wf
  | .bondOpen iss _ => iss.wf
  | .bondCommit iss _ => iss.wf
  | .bondDrop iss _ => iss.wf
  | .mma iss _ _ _ _ _ => iss.wf
  | .conv iss _ _ _ _ _ _ _ => iss.wf
  | .pool iss _ _ _ _ => iss.wf
  | .vadd iss _ _ _ _ => iss.wf
  | .vsub iss _ _ _ _ => iss.wf
  | .vmul iss _ _ _ _ => iss.wf
  | .vfma iss _ _ _ _ _ => iss.wf
  | .vmin iss _ _ _ _ => iss.wf
  | .vmax iss _ _ _ _ => iss.wf
  | .vabs iss _ _ _ => iss.wf
  | .vneg iss _ _ _ => iss.wf
  | .vcmpeq iss _ _ _ _ => iss.wf
  | .vcmplt iss _ _ _ _ => iss.wf
  | .vcmple iss _ _ _ _ => iss.wf
  | .vsel iss _ _ _ _ _ => iss.wf
  | .vand iss _ _ _ _ => iss.wf
  | .vor iss _ _ _ _ => iss.wf
  | .vxor iss _ _ _ _ => iss.wf
  | .vshl iss _ _ _ _ => iss.wf
  | .vshr iss _ _ _ _ => iss.wf
  | .vsar iss _ _ _ _ => iss.wf
  | .vcvt iss _ _ _ _ => iss.wf
  | .vbcast iss _ _ _ => iss.wf
  | .vext iss _ _ _ _ => iss.wf
  | .vrcp iss _ _ _ => iss.wf
  | .vrsqrt iss _ _ _ => iss.wf
  | .vsqrt iss _ _ _ => iss.wf
  | .vdiv iss _ _ _ _ => iss.wf
  | .vexp2 iss _ _ _ => iss.wf
  | .vlog2 iss _ _ _ => iss.wf
  | .vsin iss _ _ _ => iss.wf
  | .vcos iss _ _ _ => iss.wf
  | .vtanh iss _ _ _ => iss.wf
  | .vredsum iss _ _ _ => iss.wf
  | .vredmax iss _ _ _ => iss.wf
  | .vredmin iss _ _ _ => iss.wf
  | .vgather iss _ _ _ _ => iss.wf
  | .vscatter iss _ _ _ _ => iss.wf
  | .vmov iss _ _ _ => iss.wf
  | .ldS iss _ _ _ => iss.wf
  | .stS iss _ _ _ => iss.wf
  | .ldV iss _ _ _ => iss.wf
  | .stV iss _ _ _ => iss.wf
  | .ldD iss _ _ _ => iss.wf
  | .movb iss _ _ => iss.wf
  | .dset iss _ _ _ => iss.wf
  | .dget iss _ _ _ => iss.wf
  | .dadd iss _ _ _ => iss.wf
  | .fsend iss _ _ _ => iss.wf
  | .frecv iss _ _ _ => iss.wf
  | .freduce iss _ _ _ _ => iss.wf
  | .commitFlipEnd _ _ => true
  | .bondExpiry _ _ => true
  | .qySelftest _ _ => true
  | .selftestComplete _ => true
  | .progLoad cmd r dest role tenant src image _ => cmd.wf && r.wf && lt 256 dest && lt 256 role && lt 256 tenant && lt 256 src && lt (2 ^ 16) image
  | .programValidationDone _ cid => lt 0xFFFF cid
  | .progUnload cmd h dest tenant => cmd.wf && lt (2 ^ 16) h && lt 256 dest && lt 256 tenant
  | .alloc cmd size flags => cmd.wf && lt (2 ^ 64) size && lt (2 ^ 16) flags
  | .free cmd h => cmd.wf && lt (2 ^ 32) h
  | .zeroOnFreeDone h => lt (2 ^ 32) h
  | .manifestLoad cmd r => cmd.wf && r.wf
  | .manifestUnload cmd h => cmd.wf && lt (2 ^ 16) h
  | .transferIssue _ => true
  | .transferComplete _ _ _ _ => true
  | .pageCopyDone h _ _ => lt (2 ^ 32) h
  | .crRes _ _ _ _ => true
  | .writeDurable _ _ => true
  | .relocationDone _ _ => true
  | .imgOpen cmd r => cmd.wf && r.wf
  | .imgData cmd r off => cmd.wf && r.wf && lt (2 ^ 32) off
  | .imgClose cmd => cmd.wf
  | .imgDelete cmd id => cmd.wf && lt (2 ^ 16) id
  | .imgList cmd r => cmd.wf && r.wf
  | .imgLoad cmd id h off _ _ => cmd.wf && lt (2 ^ 16) id && lt (2 ^ 32) h && lt (2 ^ 64) off
  | .bootSelect cmd id => cmd.wf && lt (2 ^ 16) id
  | .flashFormat cmd key => cmd.wf && lt (2 ^ 32) key
  | .casCreate cmd r => cmd.wf && r.wf
  | .casArm cmd _ => cmd.wf
  | .casDisarm cmd _ => cmd.wf
  | .casDestroy cmd _ => cmd.wf
  | .audioFrame f => f.wf
  | .taskShareEnd _ => true
  | .xtal32Loss => true
  | .xtal32Relock => true
  | .xtal32StartTimeout => true
  | .lhPartOwner _ _ _ => true
  | .partitionClearDone _ => true
  | .microArrayStart _ => true
  | .stage1Publish _ => true
  | .vadPublish => true
  | .lhVadCfg _ _ => true
  | .lhCapCfg _ _ _ => true
  | .mirrorCopy _ => true
  | .lhMicMute _ _ => true
  | .auCommit _ _ => true
  | .touchScanTimer => true
  | .scan _ => true
  | .touchMeasurementEnd _ => true
  | .buttonInput _ _ => true
  | .buttonDebounced _ => true
  | .hapticGo _ _ => true
  | .hapticStop _ _ => true
  | .hapticStepEnd _ => true
  | .rtcAlarm => true
  | .rtcPeriod => true
  | .lhRtcLo _ _ => true
  | .lhRhTenants _ _ => true
  | .residentHostSwitch _ => true
  | .streamOpen cmd kind src size _ ring records => cmd.wf && lt 256 kind && lt 256 src && lt 4 size && lt (2 ^ 32) ring && lt (2 ^ 16) records
  | .streamClose cmd n => cmd.wf && lt 256 n
  | .streamInject cmd n stamp r => cmd.wf && lt 256 n && lt (2 ^ 64) stamp && r.wf
  | .ringRecordWrite n => (lt 48 n || n == 255)
  | .snBindCommit _ _ _ => true
  | .frameStart _ csi _ => lt (2 ^ 16) csi
  | .frameEnd _ => true
  | .longPacket _ dt bs _ _ _ => lt 64 dt && lt (2 ^ 16) bs.length
  | .frameRecord _ => true
  | .cmCommit _ _ _ => true
  | .snI3cCfg _ _ _ _ => true
  | .ibi _ addr _ => lt 128 addr
  | .hotJoin _ => true
  | .arm _ _ => true
  | .disarm _ _ => true
  | .trig _ _ => true
  | .timerTrigger _ => true
  | .sequenceRunStart _ => true
  | .busTransactionDone _ _ _ => true
  | .wheelEdge _ _ => true
  | .wheelReport _ => true
  | .fuCtrl _ _ => true
  | .gridPoint => true
  | .maskHoldExpiry _ => true
  | .fuSnsCtrl _ _ _ => true
  | .pwrSet cmd p => cmd.wf && decide (p.length = 56)
  | .perfSet cmd p => cmd.wf && decide (p.length = 56)
  | .standingOrder cmd p => cmd.wf && decide (p.length = 56)
  | .loweringStart _ => true
  | .domainTransitionComplete _ _ _ => true
  | .transitionTimeout _ => true
  | .squelchBreak _ => true
  | .wakePattern _ => true
  | .clkreqAssert => true
  | .perstDeassert => true
  | .qspiCsAssert => true
  | .ilimUpdate _ _ => true
  | .burstEnergyExhausted => true
  | .stepAssist _ => true
  | .releaseShunt _ => true
  | .droopStretch _ _ => true
  | .railUndervolt _ => true
  | .thermalShutdownComparator => true
  | .vWarnAssert => true
  | .vWarnDeassert => true
  | .vNvwAssert => true
  | .vNvwDeassert => true
  | .vRetAssert => true
  | .vRetDeassert => true
  | .brownOutReset => true
  | .brownOutRelease x => x.wf
  | .tenantCreate cmd t mode quota => cmd.wf && lt 256 t && lt 256 mode && lt (2 ^ 32) quota
  | .tenantDestroy cmd t => cmd.wf && lt 256 t
  | .rulesUpdate cmd r => cmd.wf && r.wf
  | .ruleFence => true
  | .attest cmd kind scope nlen r nonce => cmd.wf && lt 256 kind && lt 256 scope && lt 256 nlen && r.wf && decide (nonce.length = 64)
  | .ownerEnroll cmd r => cmd.wf && r.wf
  | .svnCommit cmd => cmd.wf
  | .rmaConsent cmd => cmd.wf
  | .entropyHealthTest _ => true
  | .hmLockSet _ _ => true
  | .newChallenge _ => true
  | .unlock _ _ => true
  | .relock _ => true
  | .extestEntry => true
  | .extestExit => true
  | .flit _ bs _ => decide (bs.length = 80)
  | .ack _ _ => true
  | .replayTimeout _ => true
  | .train _ _ _ _ => true
  | .trainingTimeout _ => true
  | .sleep _ => true
  | .blockLockLoss _ => true
  | .sendWake _ _ => true
  | .hello => true
  | .cert => true
  | .topo => true
  | .topoTimer => true
  | .assignTimer => true
  | .assign => true
  | .routeTableRelease => true
  | .syncReq _ _ => true
  | .syncResp _ _ => true
  | .sendTransfer => true
  | .redUp => true
  | .cutoffExpiry => true
  | .redDown => true
  | .digest => true
  | .verdict => true
  | .cascade => true
  | .peerTransfer => true
  | .jobOpen cmd r => cmd.wf && r.wf
  | .jobClose cmd _ => cmd.wf
  | .sqTailDoorbell _ _ _ => true
  | .cqHeadDoorbell _ _ _ => true
  | .commandFetch _ dma => dma.all (fun d => decide (d.length = 64))
  | .commandComplete _ cid _ => lt (2 ^ 16) cid
  | .irqCoalesceTimer _ => true
  | .hsQCfg _ _ _ => true
  | .linkReset _ => true
  | .linkTrained _ _ => true
  | .d3hotEntry => true
  | .d0Return => true
  | .qspiRead a _ _ => lt (2 ^ 32) a
  | .qspiWrite a _ _ => lt (2 ^ 32) a
  | .qspiStatus inst => lt 256 inst
  | .regRead cmd off => cmd.wf && lt (2 ^ 32) off
  | .regWrite cmd off _ => cmd.wf && lt (2 ^ 32) off
  | .hostWrite cmd h off r => cmd.wf && lt (2 ^ 32) h && lt (2 ^ 64) off && r.wf
  | .hostRead cmd h off r _ => cmd.wf && lt (2 ^ 32) h && lt (2 ^ 64) off && r.wf
  | .hostmemReg cmd r => cmd.wf && r.wf
  | .hostmemUnreg cmd region => cmd.wf && lt (2 ^ 16) region
  | .lhMemWrite cmd addr r => cmd.wf && lt (2 ^ 32) addr && r.wf
  | .lhMemRead cmd addr r => cmd.wf && lt (2 ^ 32) addr && r.wf
  | .runNotify cmd slot _ => cmd.wf && lt 256 slot
  | .droopRecorderMinimum _ _ => true
  | .reservoirVResMin => true
  | .dphyLaneStateChange _ _ _ => true
  | .sequenceDelayEnd _ => true
  | .vioBankSupplyChange _ _ _ => true
  | .keepAliveLoss => true

end Sys2Proof
end

