-- ==== Sys2Proof/Tests/Slice0.lean ====
section
/-!
SUPPORT. Tests: the checks on operands refuse what they should; and for every statement with hypotheses, concrete states and operands that meet
the hypotheses of each of its clauses together.
-/
namespace Sys2Proof.Tests
open Sys2Proof Sys2Proof.Machine
set_option Elab.async false

/-! ## Small states -/

/-- The machine at reset. -/
def zero : Mach := State.reset.mach

/-- A state around a machine: nothing waits, and no owner is fused. -/
def mk (m : Mach) : State := { pending := [], fuses := ⟨none, 0⟩, mach := m }

/-- The machine with every domain on and no start to run. -/
def base : Mach :=
  { zero with pm := { zero.pm with start := none, dom := ((List.range 27) ++ (List.range 64).map (· + 32)).map (fun d => (d, 0)) } }

/-- The machine with domains in a state: 0 on, 1 retention, 2 off. -/
def domains (m : Mach) (ds : List Nat) (st : Nat) : Mach :=
  { m with pm := { m.pm with dom := ds.foldl (fun t d => tabSet t d st 2) m.pm.dom } }

/-! ## The checks on operands -/

/-- An instruction word of slot 0's first stream, the last of its bundle, with the guard p0. -/
def word : Issue := ⟨.slot 0, 0, 0, false, true, 0⟩

/-- A command of queue pair 0. -/
def cmd0 : CmdCtx := ⟨0, 1, false⟩

/-- A buffer reference to one byte of host memory. -/
def ref1 : BufRef := ⟨0, 0, 1, false, some [0]⟩

/-- R670, R671: the highest CID and the widest reference fit; CID 0xFFFF, KIND 4, an address of 65 bits, no byte, too many, and bytes of another
number do not. -/
theorem test_wf_commands :
    (Instr.imgOpen ⟨63, 0xFFFE, true⟩ ⟨3, 2 ^ 64 - 1, 1, true, none⟩).wf = true ∧
    (Instr.imgOpen ⟨0, 0xFFFF, false⟩ ref1).wf = false ∧
    (Instr.imgOpen cmd0 { ref1 with kind := 4 }).wf = false ∧
    (Instr.imgOpen cmd0 { ref1 with addr := 2 ^ 64 }).wf = false ∧
    (Instr.imgOpen cmd0 { ref1 with len := 0, dma := none }).wf = false ∧
    (Instr.imgOpen cmd0 { ref1 with len := 16777217, dma := none }).wf = false ∧
    (Instr.imgOpen cmd0 { ref1 with dma := some [0, 0] }).wf = false := by decide +kernel

/-- Sixteen resources detect parity errors; the body of a loop and the lead of a pilot notice have 32 bits. -/
theorem test_wf_words :
    (Instr.add { word with par := 0xFFFF } 0 0 (.imm 0)).wf = true ∧ (Instr.add { word with par := 0x10000 } 0 0 (.imm 0)).wf = false ∧
    (Instr.nop (.word { word with par := 0x10000 })).wf = false ∧ (Instr.mma { word with par := 0x10000 } 0 false 0 0 0).wf = false ∧
    (Instr.vadd { word with par := 0x10000 } .f32 0 0 0).wf = false ∧ (Instr.movb { word with par := 0x10000 } 0 0).wf = false ∧
    (Instr.loop word (2 ^ 32 - 1) (.imm 0)).wf = true ∧ (Instr.loop word (2 ^ 32) (.imm 0)).wf = false ∧
    (Instr.pilot word 0 false (2 ^ 32)).wf = false := by decide +kernel

/-- R10, R655: an access lies in 26 bits of address and has 1 to 8 bytes. -/
theorem test_wf_accesses :
    (Instr.registerWrite .host 0x3FFFFFF [0]).wf = true ∧ (Instr.registerWrite .host 0x4000000 [0]).wf = false ∧
    (Instr.registerWrite .host 0 []).wf = false ∧ (Instr.registerWrite .host 0 (List.replicate 9 0)).wf = false ∧
    (Instr.wideValueCaptureRead .host 0x4000000 4).wf = false ∧ (Instr.wideValueCaptureRead .host 0 0).wf = false ∧
    (Instr.qspiRead (2 ^ 32) 1 false).wf = false ∧ (Instr.qspiWrite (2 ^ 32) [] false).wf = false ∧ (Instr.qspiStatus 256).wf = false ∧
    (Instr.regRead cmd0 (2 ^ 32)).wf = false ∧ (Instr.regWrite cmd0 (2 ^ 32) 0).wf = false := by decide +kernel

/-- The parameters of the commands of a queue lie in their fields. -/
theorem test_wf_parameters :
    (Instr.progLoad cmd0 ref1 255 255 255 255 0xFFFF false).wf = true ∧ (Instr.progLoad cmd0 ref1 256 0 0 0 0 false).wf = false ∧
    (Instr.progLoad cmd0 ref1 0 256 0 0 0 false).wf = false ∧ (Instr.progLoad cmd0 ref1 0 0 256 0 0 false).wf = false ∧
    (Instr.progLoad cmd0 ref1 0 0 0 256 0 false).wf = false ∧ (Instr.progLoad cmd0 ref1 0 0 0 0 (2 ^ 16) false).wf = false ∧
    (Instr.programValidationDone 0 0xFFFF).wf = false ∧ (Instr.progUnload cmd0 (2 ^ 16) 0 0).wf = false ∧
    (Instr.progUnload cmd0 0 256 0).wf = false ∧ (Instr.progUnload cmd0 0 0 256).wf = false ∧
    (Instr.alloc cmd0 (2 ^ 64) 0).wf = false ∧ (Instr.alloc cmd0 0 (2 ^ 16)).wf = false ∧ (Instr.free cmd0 (2 ^ 32)).wf = false ∧
    (Instr.zeroOnFreeDone (2 ^ 32)).wf = false ∧ (Instr.pageCopyDone (2 ^ 32) 0 []).wf = false ∧
    (Instr.manifestLoad ⟨0, 0xFFFF, false⟩ ref1).wf = false ∧ (Instr.manifestUnload cmd0 (2 ^ 16)).wf = false ∧
    (Instr.imgData cmd0 ref1 (2 ^ 32)).wf = false ∧ (Instr.imgClose ⟨0, 0xFFFF, false⟩).wf = false ∧
    (Instr.imgDelete cmd0 (2 ^ 16)).wf = false ∧ (Instr.imgList ⟨0, 0xFFFF, false⟩ ref1).wf = false ∧
    (Instr.imgLoad cmd0 (2 ^ 16) 0 0 false []).wf = false ∧ (Instr.imgLoad cmd0 0 (2 ^ 32) 0 false []).wf = false ∧
    (Instr.imgLoad cmd0 0 0 (2 ^ 64) false []).wf = false ∧ (Instr.bootSelect cmd0 (2 ^ 16)).wf = false ∧
    (Instr.flashFormat cmd0 (2 ^ 32)).wf = false := by decide +kernel

/-- More parameters of commands of a queue. -/
theorem test_wf_more_parameters :
    (Instr.casCreate cmd0 { ref1 with kind := 4 }).wf = false ∧ (Instr.casArm ⟨0, 0xFFFF, false⟩ 0).wf = false ∧
    (Instr.casDisarm ⟨0, 0xFFFF, false⟩ 0).wf = false ∧ (Instr.casDestroy ⟨0, 0xFFFF, false⟩ 0).wf = false ∧
    (Instr.streamOpen cmd0 255 255 3 false (2 ^ 32 - 1) 0xFFFF).wf = true ∧ (Instr.streamOpen cmd0 256 0 0 false 0 0).wf = false ∧
    (Instr.streamOpen cmd0 0 256 0 false 0 0).wf = false ∧ (Instr.streamOpen cmd0 0 0 4 false 0 0).wf = false ∧
    (Instr.streamOpen cmd0 0 0 0 false (2 ^ 32) 0).wf = false ∧ (Instr.streamOpen cmd0 0 0 0 false 0 (2 ^ 16)).wf = false ∧
    (Instr.streamClose cmd0 256).wf = false ∧ (Instr.streamInject cmd0 256 0 ref1).wf = false ∧ (Instr.streamInject cmd0 0 (2 ^ 64) ref1).wf = false ∧
    (Instr.hostWrite cmd0 (2 ^ 32) 0 ref1).wf = false ∧ (Instr.hostWrite cmd0 0 (2 ^ 64) ref1).wf = false ∧
    (Instr.hostRead cmd0 (2 ^ 32) 0 ref1 []).wf = false ∧ (Instr.hostRead cmd0 0 (2 ^ 64) ref1 []).wf = false ∧
    (Instr.hostmemReg cmd0 { ref1 with kind := 4 }).wf = false ∧ (Instr.hostmemUnreg cmd0 (2 ^ 16)).wf = false ∧
    (Instr.lhMemWrite cmd0 (2 ^ 32) ref1).wf = false ∧ (Instr.lhMemRead cmd0 (2 ^ 32) ref1).wf = false ∧ (Instr.runNotify cmd0 256 true).wf = false ∧
    (Instr.jobOpen cmd0 { ref1 with kind := 4 }).wf = false ∧ (Instr.jobClose ⟨0, 0xFFFF, false⟩ 0).wf = false := by decide +kernel

/-- Parameters of the commands of tenant 0, and of ATTEST. -/
theorem test_wf_management :
    (Instr.pwrSet cmd0 (List.replicate 56 0)).wf = true ∧ (Instr.pwrSet cmd0 (List.replicate 55 0)).wf = false ∧
    (Instr.perfSet cmd0 (List.replicate 57 0)).wf = false ∧ (Instr.standingOrder cmd0 []).wf = false ∧
    (Instr.tenantCreate cmd0 256 0 0).wf = false ∧ (Instr.tenantCreate cmd0 0 256 0).wf = false ∧ (Instr.tenantCreate cmd0 0 0 (2 ^ 32)).wf = false ∧
    (Instr.tenantDestroy cmd0 256).wf = false ∧ (Instr.rulesUpdate cmd0 { ref1 with kind := 4 }).wf = false ∧
    (Instr.attest cmd0 256 0 8 ref1 (List.replicate 64 0)).wf = false ∧ (Instr.attest cmd0 0 256 8 ref1 (List.replicate 64 0)).wf = false ∧
    (Instr.attest cmd0 0 0 256 ref1 (List.replicate 64 0)).wf = false ∧ (Instr.attest cmd0 0 0 8 ref1 (List.replicate 63 0)).wf = false ∧
    (Instr.ownerEnroll cmd0 { ref1 with kind := 4 }).wf = false ∧ (Instr.svnCommit ⟨0, 0xFFFF, false⟩).wf = false ∧
    (Instr.rmaConsent ⟨0, 0xFFFF, false⟩).wf = false ∧ (Instr.nop (.command ⟨0, 0xFFFF, false⟩)).wf = false := by decide +kernel

/-- What the outside sends has its shape: a frame's samples, a flit's bytes, an entry's bytes, an address of a bus. -/
theorem test_wf_events :
    (Instr.audioFrame ⟨0, List.replicate 8 [], List.replicate 8 (List.replicate 16 0), false, [], 0, false⟩).wf = true ∧
    (Instr.audioFrame ⟨0, List.replicate 7 [], List.replicate 8 (List.replicate 16 0), false, [], 0, false⟩).wf = false ∧
    (Instr.audioFrame ⟨0, List.replicate 8 [], List.replicate 8 (List.replicate 15 0), false, [], 0, false⟩).wf = false ∧
    (Instr.audioFrame ⟨0, List.replicate 8 [], [], false, [], 0, false⟩).wf = false ∧
    (Instr.flit 0 (List.replicate 80 0) false).wf = true ∧ (Instr.flit 0 (List.replicate 79 0) false).wf = false ∧
    (Instr.commandFetch 0 none).wf = true ∧ (Instr.commandFetch 0 (some [])).wf = false ∧ (Instr.commandComplete 0 (2 ^ 16) false).wf = false ∧
    (Instr.ringRecordWrite 47).wf = true ∧ (Instr.ringRecordWrite 255).wf = true ∧ (Instr.ringRecordWrite 48).wf = false ∧
    (Instr.frameStart 0 (2 ^ 16) false).wf = false ∧ (Instr.longPacket 0 64 [] .clean false false).wf = false ∧
    (Instr.ibi 0 128 []).wf = false ∧ (Instr.brownOutRelease ⟨false, 0, .cached, true, [], 2 ^ 64⟩).wf = false := by decide +kernel

/-! ## Instructions -/

/-- A stream of sequencer 0 with cluster 0, at its first bundle of one word. -/
def stream : Stream :=
  { seq := 0, clusters := [0], code := [2 ^ 37, 2 ^ 37], pc := 0, done := 0, cyc := 0, loops := [], delay := none, ctl := .none, ended := false,
    busyT := 0, busyV := 0, busyM := 0 }

/-- A run of slot 0 for tenant 1 with berth 0 and that stream. -/
def slot : SlotRun :=
  { id := 0, tenant := 1, start := 0, length := 100, berths := 1, quad := 1, vec := 1, seqs := 1, cascade := false, stage := 0, spec := false,
    manifest := 0, inputs := 0, choice := 0, streams := [stream], lands := [], accs := [], holds := [], nextHold := 0, ranged := [], ported := [],
    maBusy := 0, records := [], pilots := [], cut := false, skip := 0, heat := [] }

/-- The machine while a run is under way. -/
def inRun (r : SlotRun) : Mach := { base with st := { base.st with runs := [r] } }

/-- A state in which a word executes, with a fact about its context that can be decided. -/
theorem meets {s : State} {iss : Issue} {unit : Nat} {P : Mach → Ctx → Prop} [∀ m c, Decidable (P m c)]
    (h : (match issueCtx { s.mach with out := [] } iss with
      | some (m, c) => decide (guardOk m c.bank iss = true ∧ c.st.busy unit ≤ c.cyc ∧ P m { c with ins := { c.ins with unit := unit } })
      | none => false) = true) :
    ∃ m c, Executes s iss unit m c ∧ P m c := by
  split at h
  · rename_i m c hc
    simp only [decide_eq_true_eq] at h
    exact ⟨m, _, ⟨⟨c, hc, rfl⟩, h.1, h.2.1⟩, h.2.2⟩
  · cases h

/-- ScalarArithmeticLands, MovesAndComparesLand: a word of the S unit executes in the last cycle of a slot. -/
theorem test_meets_scalar :
    ∃ m c, Executes (mk (inRun { slot with streams := [{ stream with cyc := 99 }] })) word 0 m c ∧ c.cyc = 99 ∧ c.run.length = 100 :=
  meets (by decide +kernel)

/-- ControlMovesTheStream: a word is the last of its bundle, outside delay bundles, and a count is 0 or the largest. -/
theorem test_meets_control :
    ∃ m c, Executes (mk (inRun slot)) word 0 m c ∧ word.last = true ∧ c.st.ctl = .none ∧ c.st.delay = none ∧ c.i < c.run.streams.length ∧
      readCount m c.bank (.imm 0) = 0 ∧ readCount m c.bank (.imm 0xFFFFFFFF) ≠ 0 :=
  meets (by decide +kernel)

/-- SquashedWordsOnlyCount: a guard that does not hold, with nothing raised and no completion held; and a unit within an earlier occupancy. -/
theorem test_meets_squashed :
    insOf (.add { word with neg := true } 0 0 (.imm 0)) = some ({ word with neg := true }, 0) ∧ insOf (.mma word 0 false 0 0 0) = some (word, 1) ∧
    (∃ m c, issueCtx { (mk (inRun slot)).mach with out := [] } { word with neg := true } = some (m, c) ∧
      guardOk m c.bank { word with neg := true } = false ∧ m.ef.raised = [] ∧ m.hs.held = []) ∧
    (∃ m c, issueCtx { (mk (inRun { slot with streams := [{ stream with busyT := 1 }] })).mach with out := [] } word = some (m, c) ∧
      guardOk m c.bank word = true ∧ c.cyc < c.st.busy 1) := by
  refine ⟨rfl, rfl, ⟨_, _, rfl, ?_⟩, ⟨_, _, rfl, ?_⟩⟩ <;> decide +kernel

/-- An armed cascade of tenant 1 with SLOT stages 1 to 5 and a bond of stage 2. -/
def casc : Casc :=
  { tenant := 1, ttl := 5, max := 2, lead := 0, peerNode := 0, peerTenant := 0, peerStage := 0, armed := true, disarming := false,
    stages := List.replicate 6 ⟨3, 0x4000, 0x8000, 0x1000, false, false, 0, none, false⟩,
    bonds := [⟨2, 0, 0, 0, none, none, [], 0, [], [], []⟩], sends := [] }

/-- The machine while a run of that cascade is under way. -/
def inCascade (r : SlotRun) : Mach := { inRun r with cas := [casc] }

/-- CascadeInstructionsAct: a slot of a cascade publishes, and wakes a stage of an armed cascade; a bond of a higher stage is open. -/
theorem test_meets_cascade :
    ∃ m c, Executes (mk (inCascade { slot with cascade := true, stage := 1 })) word 0 m c ∧ c.run.cascade = true ∧ c.run.spec = false ∧
      cascOf m c.run.tenant = some casc ∧ casc.armed = true ∧ (casc.stage 5).kind = 3 ∧ c.run.stage < 2 ∧ (casc.bond 2).isSome = true :=
  meets (by decide +kernel)

/-- CascadeInstructionsAct: a speculative slot bonds its one berth, which is no input and in no other bond, and the cascade stays within its most. -/
theorem test_meets_bond :
    ∃ m c, Executes (mk { inCascade { slot with cascade := true, stage := 2, spec := true } with st :=
        { (inCascade { slot with cascade := true, stage := 2, spec := true }).st with s := [(63, 1)] } }) word 0 m c ∧
      c.run.spec = true ∧ (runBond m c.run).map (·.1) = some casc ∧ (readS m c.bank 63).toNat = 1 ∧ c.run.berths = 1 ∧ c.run.inputs = 0 ∧
      m.cas = [casc] ∧ popCount (casc.bonded ||| 1) 64 ≤ casc.max :=
  meets (by decide +kernel)

/-- Every condition of bonding a berth mask that is 1 follows from the berths of the slot alone, where no bond holds a berth. -/
theorem test_meets_bond_mask (i : Nat) (h : (1 : Nat).testBit i = true) :
    slot.berths.testBit i = true ∧ slot.inputs.testBit i = false ∧ ∀ b ∈ casc.bonds, b.berths.testBit i = false := by
  refine ⟨h, by simp [slot], ?_⟩
  intro b hb
  simp only [casc, List.mem_singleton] at hb
  simp [hb]

/-- VectorArithmeticLands, VectorBitsLand, VectorFunctionsLand: a word of the V unit executes on cluster 0, which detects no parity error. -/
theorem test_meets_vector :
    ∃ m c, Executes (mk (inRun slot)) word 2 m c ∧ c.st.clusters = 0 :: [] ∧ bit word.par (0 + 4) = false :=
  meets (by decide +kernel)

/-- ElementArithmetic: the largest operands. -/
theorem test_meets_elements : 2 ^ 32 - 1 < 2 ^ 32 := by decide

/-- A descriptor: base, format, rank, sizes of dimensions 0 to 3, strides of dimensions 1 to 3, and LIMIT. -/
def descriptor (base fmt rank cmp a b c d sb sc sd limit : Nat) : BitVec 512 :=
  BitVec.ofNat 512 (base + 2 ^ 32 * fmt + 2 ^ 36 * rank + 2 ^ 38 * cmp + 2 ^ 128 * a + 2 ^ 192 * (b + 2 ^ 32 * sb) + 2 ^ 256 * (c + 2 ^ 32 * sc) +
    2 ^ 320 * (d + 2 ^ 32 * sd) + 2 ^ 384 * limit)

/-- The machine while a run is under way, with descriptor registers. -/
def withD (r : SlotRun) (ds : List (BitVec 512)) : Mach :=
  { inRun r with st := { (inRun r).st with d := ds.zipIdx.map (fun p => (p.2, p.1)) } }

/-- INT8 matrices 32 × 1, 32 × 1 and the INT32 result 1 × 1. -/
def mmaDescs : List (BitVec 512) :=
  [descriptor 0 1 1 0 32 1 1 1 32 32 32 33554431, descriptor 64 1 1 0 32 1 1 1 32 32 32 33554431, descriptor 128 12 1 0 1 1 1 1 64 64 64 33554431]

/-- TensorInstructionsHold: MMA of two INT8 matrices into INT32; CONV and POOL of an INT8 plane with a 1 × 1 window. -/
theorem test_meets_tensor :
    (∃ m c, Executes (mk (withD slot mmaDescs)) word 1 m c ∧ word.par = 0 ∧
      (let D := fun (r : Nat) => readD m c.bank r
       let T := fun r => tdesc (D r)
       tdescValid (D 0) = true ∧ tdescValid (D 1) = true ∧ tdescValid (D 2) = true ∧ (T 0).rank = 1 ∧ (T 1).rank = 1 ∧ (T 2).rank = 1 ∧
       (T 1).sz 0 = (T 0).sz 0 ∧ (T 2).sz 0 = (T 1).sz 1 ∧ (T 2).sz 1 = (T 0).sz 1 ∧ isMX (T 0).fmt = false ∧ isMX (T 1).fmt = false ∧
       fmtClass (T 0).fmt = some 0 ∧ fmtClass (T 1).fmt = some 0 ∧ (T 2).fmt = 12 ∧ (T 0).cmp = 0 ∧ (T 1).cmp = 0 ∧ (T 2).cmp = 0)) ∧
    (∃ m c, Executes (mk (withD slot [descriptor 0 1 3 0 1 1 1 1 1 1 1 33554431, descriptor 64 1 3 0 1 1 1 1 1 1 1 33554431,
        descriptor 128 12 3 0 1 1 1 1 4 4 4 33554431, 0])) word 1 m c ∧ word.par = 0 ∧ (convIns 0 0 false false 2 0 1 3 m c).1.squash = 0) ∧
    (∃ m c, Executes (mk (withD slot [descriptor 0 1 3 0 1 1 1 1 1 1 1 33554431, descriptor 128 1 3 0 1 1 1 1 1 1 1 33554431, 0])) word 1 m c ∧
      word.par = 0 ∧ (poolIns 0 0 1 0 2 m c).1.squash = 0) :=
  ⟨meets (by decide +kernel), meets (by decide +kernel), meets (by decide +kernel)⟩

/-- GatherScatterHold: a valid descriptor whose LIMIT admits every element's address. -/
theorem test_meets_gather :
    ∃ m c, Executes (mk (withD slot [descriptor 0 12 0 0 64 1 1 1 0 0 0 33554431])) word 2 m c ∧ tdescValid (readD m c.bank 0) = true ∧
      (let t := tdesc (readD m c.bank 0)
       let addrs := fun (w : Bool) (p : Nat × Nat) => vgAddrs m c t w p.2 ((List.range 64).map (elt m .u32 p.1 0))
       (∀ p ∈ c.st.clusters.zipIdx, ∀ o ∈ addrs false p, o.isSome = true) ∧ (∀ p ∈ c.st.clusters.zipIdx, ∀ o ∈ addrs true p, o.isSome = true)) :=
  meets (by decide +kernel)

/-- LoadsAndStoresAccess: aligned and misaligned scalar addresses, and a valid descriptor whose cluster's address is aligned. -/
theorem test_meets_loads :
    ∃ m c, Executes (mk (withD slot [descriptor 0 12 0 0 64 1 1 1 0 0 0 33554431])) word 3 m c ∧
      (let addr := fun (imm : BitVec 32) => ((readS m c.bank 0).toInt + imm.toInt) % (2 ^ 64 : Int) % ((2 ^ 25 : Nat) : Int)
       addr 0xFFFFFFF8 % 8 = 0 ∧ addr 0xFFFFFFFF % 8 ≠ 0 ∧ addr 0xFFFFFFC0 % 64 = 0 ∧ addr 0xFFFFFFF8 % 64 ≠ 0 ∧ tdescValid (readD m c.bank 0) = true ∧
       ∀ p ∈ c.st.clusters.zipIdx, (((tdesc (readD m c.bank 0)).base : Int) + (p.2 : Int) * (tdesc (readD m c.bank 0)).cstride + (0 : BitVec 32).toInt) % 64 = 0) :=
  meets (by decide +kernel)

/-- DescriptorsAndMovb: tensors of one shape, uncompressed, and one whose source alone is compressed; they share no berth, or berth 0. -/
theorem test_meets_movb :
    (∃ m c, Executes (mk (withD slot [descriptor 0 2 1 0 8 8 1 1 16 16 16 33554431, descriptor 512 2 1 0 8 8 1 1 16 16 16 33554431])) word 3 m c ∧
      (let S := tdesc (readD m c.bank 0)
       let D := tdesc (readD m c.bank 1)
       tdescValid (readD m c.bank 0) = true ∧ tdescValid (readD m c.bank 1) = true ∧ S.fmt = D.fmt ∧ S.rank = D.rank ∧ S.size = D.size ∧
       isMX S.fmt = false ∧ S.cmp = D.cmp ∧ S.berths 0 &&& D.berths 0 ≠ 0)) ∧
    (∃ m c, Executes (mk (withD slot [descriptor 0 2 1 1 8 8 1 1 48 48 48 33554431, descriptor 524288 2 1 0 8 8 1 1 16 16 16 33554431])) word 3 m c ∧
      (let S := tdesc (readD m c.bank 0)
       let D := tdesc (readD m c.bank 1)
       tdescValid (readD m c.bank 0) = true ∧ tdescValid (readD m c.bank 1) = true ∧ S.fmt = D.fmt ∧ S.rank = D.rank ∧ S.size = D.size ∧
       isMX S.fmt = false ∧ S.cmp ≠ D.cmp ∧ D.cmp = 0 ∧ S.berths 0 &&& D.berths 0 = 0)) :=
  ⟨meets (by decide +kernel), meets (by decide +kernel)⟩

/-- FabricRecordsPosted: valid descriptors, fifteen records held, the one node there is, and a manifest. -/
theorem test_meets_records :
    ∃ m c, Executes (mk (withD { slot with records := List.replicate 15 ⟨0, 0, 0, 0, 0⟩ } [descriptor 0 12 0 0 64 1 1 1 0 0 0 33554431])) word 3 m c ∧
      c.run.records.length < 16 ∧ tdescValid (readD m c.bank 0) = true ∧ 0 < m.fldOf rCH_NODE 16 7 ∧ c.run.manifest ≠ 0xFFFF :=
  meets (by decide +kernel)

/-- A run with one landing or one access in its last cycle. -/
def landing (l : List Land) (a : List BAcc) : SlotRun := { slot with lands := l, accs := a }

/-- The instruction that landed it. -/
def ins : Ins := ⟨98, 0, 0, 0⟩

/-- ResultsLand: a landing of each kind alone, a permitted store alone and a permitted load alone, in the last cycle. -/
theorem test_meets_results :
    (∀ r ∈ [landing [⟨99, ins, .s 0 63 1⟩] [], landing [⟨99, ins, .p 0 0 true⟩] [], landing [⟨99, ins, .d 0 15 1⟩] [], landing [⟨99, ins, .v 0 31 1⟩] [],
        landing [] [⟨99, ins, 0, .store 0 (List.replicate 8 1) 33554431⟩], landing [] [⟨99, ins, 0, .load (.s 0 63) 524280 8 33554431⟩]],
      findRun (mk (inRun r)).mach (0 : Fin 255).val = some r ∧ nextCycle r = some 99 ∧ 99 < r.length ∧ r.holds = [] ∧
      (r.lands.filter (·.cyc == 99)).length + (r.accs.filter (·.cyc == 99)).length = 1) ∧
    (∀ j ∈ List.range 8, byteOk (mk (inRun slot)).mach (landing [] [⟨99, ins, 0, .store 0 (List.replicate 8 1) 33554431⟩]) 33554431 true ((0 : Int) + (j : Int)) = true) ∧
    (∀ j ∈ List.range 8, byteOk (mk (inRun slot)).mach (landing [] [⟨99, ins, 0, .load (.s 0 63) 524280 8 33554431⟩]) 33554431 false ((524280 : Int) + (j : Int)) = true) := by
  decide +kernel

/-! ## Registers -/

/-- A check of `ReadOk`. -/
def readOkB (m : Mach) (p : Path) (a : Nat) : Bool :=
  match pathCtx m p, regFind a with
  | some ctx, some (r, i, _) => regOn m r && permits m r.rd r i a ctx
  | _, _ => false

/-- The check answers `ReadOk`. -/
theorem readOk {m : Mach} {p : Path} {a : Nat} (h : readOkB m p a = true) : ReadOk m p a := by
  unfold readOkB at h
  split at h
  · rename_i ctx r i j h1 h2
    simp only [Bool.and_eq_true] at h
    exact ⟨ctx, r, i, j, h1, h2, h.1, h.2⟩
  · cases h

/-- A check of `WriteOk`. -/
def writeOkB (m : Mach) (p : Path) (a ctx : Nat) : Bool :=
  match regFind a with
  | some (r, i, _) => decide (pathCtx m p = some ctx) && regOn m r && mayWrite m r i a ctx && !locked m r a && !frozen m r i a
  | none => false

/-- The check answers `WriteOk`. -/
theorem writeOk {m : Mach} {p : Path} {a ctx : Nat} (h : writeOkB m p a ctx = true) : WriteOk m p a ctx := by
  unfold writeOkB at h
  split at h
  · rename_i r i j h1
    simp only [Bool.and_eq_true, decide_eq_true_eq, Bool.not_eq_true'] at h
    exact ⟨r, i, j, h.1.1.1.1, h1, h.1.1.1.2, h.1.1.2, h.1.2, h.2⟩
  · cases h

/-- ReadsThatAct: every register of these rows, at its last index, is read by the external host. -/
theorem test_meets_reads :
    ∀ a ∈ [rDM_CE_COUNT, rLH_CAP_MISSED 7, rAU_PB_UNDERRUN 7, rCM_RX_ERR 1, rSN_STREAM_OVR 47, rSN_STREAM_MISSED 47, rFU_OUT_MISSED, rFU_SNS_LATE 15,
        rCH_DISCARD, rCH_PORT_ERR 3, rEF_LOST 63, rEF_DEV_LOST, rHS_ACCESS_ERR, rHS_Q_COUNT 63, rPD_STRETCH_COUNT, rPD_DROOP_MIN 6, rLH_EVT_POP_LO,
        rTK_TICK_LO, rSN_TIME_LO, rLH_RTC_LO, rTK_TICK_HI, rSN_TIME_HI, rLH_RTC_HI], ReadOk (mk base).taken .host a := by
  intro a ha
  exact readOk (List.all_eq_true.mp (by decide +kernel : List.all _ (fun a => readOkB (mk base).taken .host a) = true) a ha)

/-- The machine whose host accesses registers in the context of tenant 1. -/
def ctx1 : Mach := base.setFldOf rHM_HOST_CTX 0 6 1

/-- AccessesDenied: no context before the start; a domain that is off, or a context without the permission, for a read and a write; a locked register. -/
theorem test_meets_denied :
    readOf (.dmCeCount .host) = some (.host, rDM_CE_COUNT) ∧ writeOf (.crRes .host 0 0 1) = some (.host, rCR_RES 0 0, 1) ∧
    pathCtx (mk zero).taken .host = none ∧
    (∃ r i j, pathCtx (mk (domains base [15] 2)).taken .host = some 0 ∧ regFind rDM_CE_COUNT = some (r, i, j) ∧
      regOn (mk (domains base [15] 2)).taken r = false) ∧
    (∃ r i j, pathCtx (mk ctx1).taken .host = some 1 ∧ regFind rDM_CE_COUNT = some (r, i, j) ∧ regOn (mk ctx1).taken r = true ∧
      permits (mk ctx1).taken r.rd r i rDM_CE_COUNT 1 = false) ∧
    (∃ r i j, writeOf (.auCommit .host 1) = some (.host, rAU_COMMIT, 1) ∧ pathCtx (mk (domains base [25] 2)).taken .host = some 0 ∧
      regFind rAU_COMMIT = some (r, i, j) ∧ regOn (mk (domains base [25] 2)).taken r = false) ∧
    (∃ r i j, pathCtx (mk ctx1).taken .host = some 1 ∧ regFind (rCR_RES 0 0) = some (r, i, j) ∧ regOn (mk ctx1).taken r = true ∧
      mayWrite (mk ctx1).taken r i (rCR_RES 0 0) 1 = false) ∧
    (∃ r i j, pathCtx (mk (base.setFldOf rHM_LOCK_STATE 0 20 0xFFFFF)).taken .host = some 0 ∧ regFind (rCR_RES 0 0) = some (r, i, j) ∧
      regOn (mk (base.setFldOf rHM_LOCK_STATE 0 20 0xFFFFF)).taken r = true ∧
      mayWrite (mk (base.setFldOf rHM_LOCK_STATE 0 20 0xFFFFF)).taken r i (rCR_RES 0 0) 0 = true ∧
      locked (mk (base.setFldOf rHM_LOCK_STATE 0 20 0xFFFFF)).taken r (rCR_RES 0 0) = true) := by
  refine ⟨rfl, rfl, by decide +kernel, ⟨_, _, _, by decide +kernel, rfl, by decide +kernel⟩, ⟨_, _, _, by decide +kernel, rfl, by decide +kernel⟩,
    ⟨_, _, _, rfl, by decide +kernel, rfl, by decide +kernel⟩, ⟨_, _, _, by decide +kernel, rfl, by decide +kernel⟩,
    ⟨_, _, _, by decide +kernel, rfl, by decide +kernel⟩⟩

/-- WritesFollowAccessCodes: a path with a context, a misaligned shape and one that ends past BAR0, an aligned word, each register of the second
clause written, and a register of each access code. -/
theorem test_meets_access_codes :
    pathCtx (mk base).mach .host = some 0 ∧ ¬([1, 2, 3, 4].length = 4 ∧ 2 % 4 = 0 ∨ [1, 2, 3, 4].length = 8 ∧ 2 % 8 = 0) ∧ bar0 < (bar0 - 4) + 8 ∧
    (∀ a ∈ [rTK_PERIOD_NEXT, rTK_SEAM_LEN, rHM_HOST_CTX, rPM_XTAL, rLH_WAKE_EN, rFU_GRID_PERIOD, rHS_IRQ_MASK 0],
      a % 4 = 0 ∧ a + 4 ≤ bar0 ∧ WriteOk (mk base).taken .host a 0) ∧
    (∃ r i j, windowOf rTK_TICK_LO = .none ∧ regFind rTK_TICK_LO = some (r, i, j) ∧ regOn (mk base).taken r = true ∧ r.acc = .ro) ∧
    (∃ r i j, windowOf (rQY_FLAGS 63) = .none ∧ regFind (rQY_FLAGS 63) = some (r, i, j) ∧ regOn (mk base).taken r = true ∧ r.acc = .w1c ∧
      rQY_FLAGS 63 ≠ rLH_MIC_MUTE ∧ r.wn ≤ 1 ∧ mayWrite (mk base).taken r i (rQY_FLAGS 63) 0 = true ∧ frozen (mk base).taken r i (rQY_FLAGS 63) = false) ∧
    (∃ r i j, windowOf rLH_RTC_HI = .none ∧ regFind rLH_RTC_HI = some (r, i, j) ∧ regOn (mk base).taken r = true ∧ r.acc = .rw ∧ rLH_RTC_HI ≠ rLH_MIC_MUTE ∧
      r.wk ≠ 0 ∧ 1 < r.wn ∧ mayWrite (mk base).taken r i rLH_RTC_HI 0 = true ∧ frozen (mk base).taken r i rLH_RTC_HI = false) := by
  refine ⟨by decide +kernel, by decide, by decide, ?_, ⟨_, _, _, by decide +kernel, rfl, by decide +kernel⟩, ⟨_, _, _, by decide +kernel, rfl, by decide +kernel⟩,
    ⟨_, _, _, by decide +kernel, rfl, by decide +kernel⟩⟩
  intro a ha
  have h := List.all_eq_true.mp (by decide +kernel : List.all [rTK_PERIOD_NEXT, rTK_SEAM_LEN, rHM_HOST_CTX, rPM_XTAL, rLH_WAKE_EN, rFU_GRID_PERIOD,
    rHS_IRQ_MASK 0] (fun a => decide (a % 4 = 0) && (decide (a + 4 ≤ bar0) && writeOkB (mk base).taken .host a 0)) = true) a ha
  simp only [Bool.and_eq_true, decide_eq_true_eq] at h
  exact ⟨h.1, h.2.1, writeOk h.2.2⟩

/-- The machine while a submission is being validated. -/
def validating : Mach := { base with tk := { base.tk with validating := some ⟨[], 76800, 960, [], 0⟩ } }

/-- SubmittingWrites: GO with nothing being validated, and while something is; a self-test of nothing, of one resource, and of one under test; a
reservation that fills its pool, and one past it. -/
theorem test_meets_submitting :
    (WriteOk (mk base).taken .host rTK_COMMIT 0 ∧ flag 1#32 0 = true ∧ (mk base).taken.tk.validating = none) ∧
    (WriteOk (mk validating).taken .host rTK_COMMIT 0 ∧ (mk validating).taken.tk.validating.isSome = true) ∧
    (WriteOk (mk base).taken .host rQY_SELFTEST 0 ∧ fld (0x10000#32) 0 4 + 256 * fld (0x10000#32) 8 8 = 0 ∧
      fld (0x18000#32) 0 4 + 256 * fld (0x18000#32) 8 8 ≠ 0 ∧ flag 0x18000#32 16 = true ∧ (mk base).taken.flagOf rQY_SELFTEST 17 = false ∧
      anyNaming (mk base).taken (fun e => (e.quad &&& fld (0x18000#32) 0 4) != 0 || (e.vec &&& fld (0x18000#32) 8 8) != 0) = false) ∧
    (WriteOk (mk (base.setFlagOf rQY_SELFTEST 17 true)).taken .host rQY_SELFTEST 0 ∧
      (mk (base.setFlagOf rQY_SELFTEST 17 true)).taken.flagOf rQY_SELFTEST 17 = true) ∧
    (WriteOk (mk base).taken .host (rCR_RES 63 4) 0 ∧
      resSum (mk base).taken 4 - (mk base).taken.fldOf (rCR_RES 63 4) 0 16 + (mk base).taken.fldOf (rCR_RES_POOL 4) 0 16 ≤ (mk base).taken.fldOf (rCR_RES_POOL 4) 0 16 ∧
      (mk base).taken.fldOf (rCR_RES_POOL 4) 0 16 <
        resSum (mk base).taken 4 - (mk base).taken.fldOf (rCR_RES 63 4) 0 16 + ((mk base).taken.fldOf (rCR_RES_POOL 4) 0 16 + 1)) := by
  refine ⟨⟨writeOk (by decide +kernel), by decide +kernel⟩, ⟨writeOk (by decide +kernel), by decide +kernel⟩, ⟨writeOk (by decide +kernel), by decide +kernel⟩,
    ⟨writeOk (by decide +kernel), by decide +kernel⟩, ⟨writeOk (by decide +kernel), by decide +kernel⟩⟩

/-- KeepingWrites: partition 7 and partition 8; a HEAD a whole ring ahead of a TAIL of 0; the registers of the other clauses. -/
theorem test_meets_keeping :
    (WriteOk (mk base).taken .host (rLH_PART_OWNER 7) 0 ∧ 7 < 8) ∧
    (WriteOk (mk base).taken .host (rLH_PART_OWNER 8) 0 ∧ 8 ≤ 8 ∧ (mk base).taken.fldOf (rLH_PART_OWNER 8) 0 6 ≠ 1) ∧
    (∀ a ∈ [rHM_LOCK_SET, rEF_TAIL 63, rEF_DEV_TAIL, rLH_RTC_LO, rLH_RH_TENANTS_LO], WriteOk (mk base).taken .host a 0) ∧
    ((base.setFldOf (rEF_HEAD 63) 0 16 64).fldOf (rEF_HEAD 63) 0 16 + 65536 - 0) % 65536 ≤ 64 ∧
    ¬((base.setFldOf (rEF_HEAD 63) 0 16 65).fldOf (rEF_HEAD 63) 0 16 + 65536 - 0) % 65536 ≤ 64 := by
  refine ⟨⟨writeOk (by decide +kernel), by decide⟩, ⟨writeOk (by decide +kernel), by decide +kernel⟩, ?_, by decide +kernel⟩
  intro a ha
  exact writeOk (List.all_eq_true.mp (by decide +kernel : List.all _ (fun a => writeOkB (mk base).taken .host a 0) = true) a ha)

/-- The machine with a touch scan under way. -/
def scanning (pol : Nat) : Mach :=
  let m := base.setFldOf rLH_TOUCH_CFG 12 2 pol
  { m with lh := { m.lh with touch := { m.lh.touch with running := true } } }

/-- AudioWrites: a detector that is off, with 1 microphone, 4, 5 and none; mute by a tenant that may and by one that may not; a commit; a scan while
none and while one runs, under each policy; a haptic driver's owner. -/
theorem test_meets_audio :
    (WriteOk (mk base).taken .host rLH_VAD_CFG 0 ∧ (mk base).taken.flagOf rLH_VAD_CFG 0 = false ∧ popCount (fld 0x10401#32 16 8) 8 = 1 ∧
      popCount (fld 0x0F0401#32 16 8) 8 = 4 ∧ popCount (fld 0x1F0401#32 16 8) 8 = 5 ∧ popCount (fld 0x401#32 16 8) 8 = 0 ∧ flag 0x401#32 0 = true) ∧
    (pathCtx (mk ctx1).taken .host = some 1 ∧ muteWriter (mk ctx1).taken 1 = false) ∧
    (let m := (mk ((ctx1.setFldOf rLH_MUTE_DELEGATE 0 9 0x101).setFldOf rLH_MIC_MUTE 0 1 0)).taken
     pathCtx m .host = some 1 ∧ muteWriter m 1 = true ∧ flag 1#32 0 = true ∧ m.flagOf rLH_MIC_MUTE 0 = false) ∧
    WriteOk (mk base).taken .host rAU_COMMIT 0 ∧ WriteOk (mk base).taken .host rLH_TOUCH_CFG 0 ∧ (mk base).taken.lh.touch.running = false ∧
    (∀ pol ∈ [0, 1, 2, 3], (mk (scanning pol)).taken.lh.touch.running = true ∧ (mk (scanning pol)).taken.fldOf rLH_TOUCH_CFG 12 2 = pol ∧
      (mk (scanning pol)).taken.lh.touch.queued = false ∧ writeOkB (mk (scanning pol)).taken .host rLH_TOUCH_CFG 0 = true) ∧
    (WriteOk (mk (base.setFldOf (rLH_HAP_CFG 1) 0 16 64)).taken .host (rLH_HAP_CTRL 1) 0 ∧
      64 ≤ (mk (base.setFldOf (rLH_HAP_CFG 1) 0 16 64)).taken.fldOf (rLH_HAP_CFG 1) 0 16) := by
  refine ⟨⟨writeOk (by decide +kernel), by decide +kernel⟩, by decide +kernel, by decide +kernel, writeOk (by decide +kernel), writeOk (by decide +kernel),
    by decide +kernel, by decide +kernel, ⟨writeOk (by decide +kernel), by decide +kernel⟩⟩

/-- The machine whose 48 stream contexts are all taken. -/
def fullStreams : Mach := (List.range 48).foldl (fun m n => m.setFldOf (rSN_STREAM_CFG n) 0 4 1) base

/-- AudioWrites: capture channel 7 is enabled within its divisor's rates with a free context, and without one; past them; and disabled. -/
theorem test_meets_capture :
    (WriteOk (mk base).taken .host (rLH_CAP_CFG 7) 0 ∧ (mk base).taken.flagOf (rLH_CAP_CFG 7) 0 = false ∧
      capOk ((mk (base.setFldOf rLH_PDM_CFG 0 2 1)).taken.fldOf rLH_PDM_CFG 0 2) 3 5 = true ∧
      capOk ((mk (base.setFldOf rLH_PDM_CFG 0 2 1)).taken.fldOf rLH_PDM_CFG 0 2) 3 6 = false ∧
      fld 0x2F#32 1 2 = 3 ∧ fld 0x2F#32 3 3 = 5 ∧ fld 0x37#32 3 3 = 6 ∧ flag 0x2F#32 0 = true ∧ flag 0#32 0 = false ∧
      freeCtx (mk base).taken = some 0 ∧ freeCtx (mk fullStreams).taken = none) ∧
    WriteOk (mk fullStreams).taken .host (rLH_CAP_CFG 7) 0 := by
  refine ⟨⟨writeOk (by decide +kernel), by decide +kernel⟩, writeOk (by decide +kernel)⟩

/-- A DRAM allocation of tenant 0 of one page under handle 5. -/
def page5 : Alloc := ⟨5, 0, 1, 1, 1, [], [], [], none⟩

/-- The machine with allocations. -/
def withAllocs (m : Mach) (as : List Alloc) : Mach := { m with mem := { m.mem with allocs := as } }

/-- The machine with a stream context of a kind. -/
def withStream (m : Mach) (n k src : Nat) : Mach := (m.setFldOf (rSN_STREAM_CFG n) 0 4 k).setFldOf (rSN_STREAM_CFG n) 24 8 src

/-- SensorWrites: a SEQUENCE stream is bound to the last sequence by tenant 0, and by tenant 1 without a grant; a commit of VC context 7 with its
allocation, and without; an I3C controller that is off; a sequence that is not armed, and one that waits for a trigger. -/
theorem test_meets_sensor :
    (let m := (mk ((withStream base 47 3 0).setFldOf (rSN_BIND_NEXT 47) 0 8 15)).taken
     writeOkB m .host (rSN_BIND_COMMIT 47) 0 = true ∧ strKind m 47 = 3 ∧ sourceOk 3 (m.fldOf (rSN_BIND_NEXT 47) 0 8) = true ∧ streamGranted m 0 3 15 = true) ∧
    (let m := (mk (((withStream ctx1 47 3 0).setFldOf (rSN_BIND_NEXT 47) 0 8 15).setFldOf (rSN_STREAM_CFG 47) 8 6 1)).taken
     writeOkB m .host (rSN_BIND_COMMIT 47) 1 = true ∧ strKind m 47 = 3 ∧ sourceOk 3 (m.fldOf (rSN_BIND_NEXT 47) 0 8) = true ∧ streamGranted m 1 3 15 = false) ∧
    (let m := (mk (withAllocs ((withStream base 0 2 7).setRegN (rCM_FRAME_ALLOC 7) 5) [page5])).taken
     writeOkB m .host (rCM_COMMIT 7) 0 = true ∧ vcStream m 7 = some 0 ∧ ownAlloc m 0 (m.regN (rCM_FRAME_ALLOC 7)) = some page5 ∧ page5.flags = 1 ∧
     m.regN (rCM_FRAME_BASE 7) % 64 = 0 ∧
     m.regN (rCM_FRAME_BASE 7) + m.fldOf (rCM_LINE_PITCH 7) 16 13 * m.fldOf (rCM_LINE_PITCH 7) 0 15 ≤ page5.size) ∧
    (let m := (mk ((withStream base 0 2 7).setRegN (rCM_FRAME_ALLOC 7) 5)).taken
     writeOkB m .host (rCM_COMMIT 7) 0 = true ∧ ownAlloc m 0 (m.regN (rCM_FRAME_ALLOC 7)) = none) ∧
    (writeOkB (mk base).taken .host (rSN_I3C_CFG 1) 0 = true ∧ (mk base).taken.flagOf (rSN_I3C_CFG 1) 0 = false ∧ flag 1#32 0 = true ∧ flag 1#32 1 = false ∧
      flag 3#32 1 = true) ∧
    (writeOkB (mk base).taken .host (rSN_SEQ_CTRL 15) 0 = true ∧ seqArmed (mk base).taken 15 = false) ∧
    (let m := (mk ((base.setFldOf (rSN_SEQ_CFG 15) 2 2 2).setFlagOf (rSN_SEQ_CFG 15) 16 true)).taken
     writeOkB m .host (rSN_SEQ_CTRL 15) 0 = true ∧ seqTrigger m 15 = 2 ∧ seqArmed m 15 = true ∧ (seqSt m 15).running = false ∧ (seqSt m 15).waiting = none ∧
     (seqSt m 15).lastTrig ≠ some m.clk.now) := by
  decide +kernel

/-- The machine with one INJECT stream that feeds a GYRO entry, the last of each, within R465's bounds. -/
def fusion0 : Mach :=
  (((((withStream base 47 6 0).setRegN (rFU_SNS_CFG 15) (1 + 256 * 47)).setFldOf rFU_FILT 0 7 1).setFldOf rFU_FILT 8 8 1)).setRegN rFU_OUT_RING 0x20000

/-- The machine while the fusion engine runs. -/
def fusing : Mach := { fusion0.setFlagOf rFU_CTRL 0 true with fu := { fusion0.fu with ents := List.replicate 16 (FuEnt.init 0) } }

/-- FusionWrites: the engine starts with a good and with a bad configuration, stops, and stands; an entry is masked and opened again. -/
theorem test_meets_fusion :
    (writeOkB (mk base).taken .host rFU_CTRL 0 = true ∧ (mk base).taken.flagOf rFU_CTRL 0 = false ∧ fusionOk (mk base).taken = false) ∧
    (writeOkB (mk fusion0).taken .host rFU_CTRL 0 = true ∧ (mk fusion0).taken.flagOf rFU_CTRL 0 = false ∧ fusionOk (mk fusion0).taken = true) ∧
    (writeOkB (mk fusing).taken .host rFU_CTRL 0 = true ∧ (mk fusing).taken.flagOf rFU_CTRL 0 = true ∧ flag 0#32 0 = false ∧ flag 1#32 0 = true) ∧
    (writeOkB (mk fusing).taken .host (rFU_SNS_CTRL 15) 0 = true ∧ fuOn (mk fusing).taken 15 = true ∧ forced (mk fusing).taken 15 = false) ∧
    (fuOn (mk fusing).taken 14 = false ∧ forced (mk (fusing.setFlagOf (rFU_SNS_CTRL 15) 0 true)).taken 15 = true) := by
  decide +kernel

/-- DebugAndWakeWrites: the source of entropy good and failed; unlocking blocked, at its eighth failure, and open; a port that sends a pattern. -/
theorem test_meets_debug :
    writeOkB (mk base).taken .host rDB_CTRL 0 = true ∧ (mk base).taken.flagOf rHM_STATUS 2 = false ∧
    (mk (base.setFlagOf rHM_STATUS 2 true)).taken.flagOf rHM_STATUS 2 = true ∧ (mk base).taken.flagOf rDB_STATE 8 = false ∧
    (mk (base.setFlagOf rDB_STATE 8 true)).taken.flagOf rDB_STATE 8 = true ∧ unlockOk (mk base).fuses (mk base).taken 3 = false ∧
    satAdd 4 ((mk (base.setFldOf rDB_STATE 4 4 7)).taken.fldOf rDB_STATE 4 4) 1 = 8 ∧ writeOkB (mk base).taken .host (rCH_PORT_CTRL 3) 0 = true := by
  decide +kernel

/-- A command of queue pair 63 that was fetched. -/
def fetched63 : RunCmd := ⟨63, 1, 0, false, false, 0, none, [], 0, 0⟩

/-- The machine with commands that were fetched. -/
def withCmds (m : Mach) (cs : List RunCmd) : Mach := { m with hs := { m.hs with cmds := cs } }

/-- QueuePairWrites: a resident pair, an enabled one, one with a command outstanding, and one that a write enables or configures; a ring of two entries
fits, one of a single entry does not. -/
theorem test_meets_queue_pair :
    writeOkB (mk base).taken .host (rHS_Q_CFG 63) 0 = true ∧ isResident (mk base).taken 63 = false ∧ qEnabled (mk base).taken 63 = false ∧
    outstanding (mk base).taken 63 = 0 ∧ outstanding (mk (withCmds base [fetched63])).taken 63 ≠ 0 ∧
    qEnabled (mk (base.setFlagOf (rHS_Q_CFG 63) 0 true)).taken 63 = true ∧
    isResident (mk { base with hs := { base.hs with resident := 2 ^ 63 } }).taken 63 = true ∧
    (let ok := fun (w : Word) => fld w 4 12 != 0 && fld w 16 12 != 0 && (flag w 1 || !isQspi (mk base).taken) &&
       (ringPlaced (flag w 1) ((mk base).taken.reg64 (rHS_SQ_BASE_LO 63)) (64 * (fld w 4 12 + 1)) &&
         ringPlaced (flag w 1) ((mk base).taken.reg64 (rHS_CQ_BASE_LO 63)) (16 * (fld w 16 12 + 1)))
     ok 0x10011#32 = true ∧ ok 0x10001#32 = false) := by
  decide +kernel

/-- The machine on a QSPI link. -/
def qspi : Mach := let m := base.setFlagOf rHS_MODE 0 true; { m with pd := { m.pd with vioH := true } }

/-- QspiTransactions: the link answers, with HOST on and off; the buffer has room for one word more; the last word of BAR0. -/
theorem test_meets_qspi :
    qspiUp (mk qspi).mach = true ∧ isOn (mk qspi).taken 17 = true ∧ qspiUp (mk (domains qspi [17] 2)).mach = true ∧
    isOn (mk (domains qspi [17] 2)).taken 17 = false ∧
    ({ domains qspi [17] 2 with hs := { qspi.hs with qspiBuf := List.replicate 63 (0, 0) } } : Mach).hs.qspiBuf.length < 64 ∧
    qspiUp (mk { domains qspi [17] 2 with hs := { qspi.hs with qspiBuf := List.replicate 63 (0, 0) } }).mach = true ∧
    (bar0 - 4) % 4 = 0 ∧ bar0 - 4 < bar0 ∧ (0xB4 : Nat) ≠ 0xB1 ∧ (0xB4 : Nat) ≠ 0xB2 ∧ (0xB4 : Nat) ≠ 0xB5 := by
  decide +kernel


/-! ## Commands of a queue -/

/-- A check of `Begins`. -/
def beginsB (m : Mach) (cmd : CmdCtx) (op : Nat) (waits : RunCmd → Bool) : Bool :=
  mayBegin m cmd.q.val cmd.cid waits && !(findCmd m cmd.q.val cmd.cid).any (·.op != op) && tenantExists m cmd.q.val &&
    (!inRecovery m || recoveryOps.contains op) && !cmd.resv

/-- The check answers `Begins`. -/
theorem beginsB_iff (m : Mach) (cmd : CmdCtx) (op : Nat) (waits : RunCmd → Bool) : beginsB m cmd op waits = true ↔ Begins m cmd op waits := by
  simp only [beginsB, Begins, Bool.and_eq_true, Bool.not_eq_true', Bool.or_eq_true, and_assoc]
  constructor
  · rintro ⟨h1, h2, h3, h4, h5⟩
    exact ⟨h1, h2, h3, fun h => by simpa [h] using h4, h5⟩
  · rintro ⟨h1, h2, h3, h4, h5⟩
    refine ⟨h1, h2, h3, ?_, h5⟩
    cases h : inRecovery m <;> simp_all

/-- The machine with tenants 1 and 63. -/
def two : Mach := (base.setFlagOf (rHM_TENANT_CFG 1) 0 true).setFlagOf (rHM_TENANT_CFG 63) 0 true

/-- A command of a queue pair. -/
def cmdOf (q : Fin 64) : CmdCtx := ⟨q, 0xFFFE, false⟩

/-- A reference to bytes of host memory. -/
def refTo (bs : List Byte) : BufRef := ⟨0, 0, bs.length, false, some bs⟩

/-- CommandsTurnedAway: an earlier command that has not begun holds the next one back; a tenant that does not exist; ROM recovery; a reserved bit; for
a command of any tenant's and for tenant 0's own. -/
theorem test_meets_turned_away :
    commandOf (.nop (.command (cmdOf 63))) = some (cmdOf 63, 0x00, noWait) ∧ managementOf (.svnCommit (cmdOf 63)) = some (cmdOf 63, 0x55, noWait, 0x0D00) ∧
    mayBegin (withCmds two [fetched63, { fetched63 with cid := 0xFFFE }]) 63 0xFFFE noWait = false ∧
    (mayBegin two 63 0xFFFE noWait = true ∧ (findCmd two 63 0xFFFE).any (·.op != 0) = false ∧ tenantExists two 63 = true ∧ inRecovery two = false ∧
      tenantExists base 63 = false) ∧
    (inRecovery (two.setFlagOf rEF_START 4 true) = true ∧ recoveryOps.contains 0x02 = false) ∧
    beginsB two (cmdOf 63) 0x55 noWait = true ∧ beginsB two (cmdOf 0) 0x55 noWait = true :=
  ⟨rfl, rfl, by decide +kernel⟩

/-- RegisterCommands: each begins for tenant 63; the last word of BAR0, and one past it. -/
theorem test_meets_registers :
    (∀ op ∈ [0x00, 0x01, 0x02], beginsB two (cmdOf 63) op noWait = true) ∧ (bar0 - 4) + 4 ≤ bar0 ∧ bar0 < (bar0 - 3) + 4 := by
  decide +kernel

/-- A program image of one variant of one bundle: its one word. -/
def progOf (w : Nat) : List Byte :=
  leBytes 4 0x4B4C5450 ++ leBytes 2 1 ++ leBytes 2 3 ++ leBytes 2 1 ++ leBytes 2 0 ++ leBytes 4 120 ++ leBytes 16 0 ++ leBytes 4 48 ++ leBytes 4 72 ++
    leBytes 8 0 ++ (leBytes 8 1 ++ leBytes 8 0 ++ leBytes 4 1 ++ leBytes 4 0 ++ leBytes 4 64 ++ leBytes 4 1 ++ leBytes 24 0 ++ leBytes 8 0) ++ leBytes 8 w

/-- An END word, alone in its bundle. -/
def endWord : Nat := 0x23 * 2 ^ 56 + 2 ^ 37

/-- What that image holds. -/
def endProg : SlotProg := ⟨1, 0, [0, 0, 0, 0], 0, 1, [[endWord]]⟩

/-- The machine with a load under way and room in the store for one word. -/
def loadsOne (img : List Byte) : Mach :=
  let m := (two.setRegN rSQ_STORE_FREE 1).setFldOf (rSQ_QUOTA 1) 0 20 1
  { m with sto := { m.sto with loading := [⟨0, 7, 1, 0, 0, img⟩] } }

/-- The machine with that program loaded for tenant 1 under the highest handle. -/
def hasProg : Mach := { two with sto := { two.sto with progs := [⟨0xFFFE, 1, [endProg], 1, []⟩] } }

/-- The machine whose active table's entry `n` has these words. -/
def withEntry (m : Mach) (n : Nat) (ws : List Nat) : Mach :=
  { m with tk := { m.tk with active := ws.zipIdx.foldl (fun t p => tabSet t (8 + 8 * n + p.2) (BitVec.ofNat 32 p.1) 0) [] } }

/-- ProgramCommands: a load for tenant 0 and for another tenant; a valid image that fills the store and the quota, and an invalid one; a program in use
and one that is not. -/
theorem test_meets_programs :
    (beginsB two (cmdOf 63) 0x20 noWait = true ∧ tenantExists two 63 = true ∧
      loadSource (begun two (cmdOf 63)) 63 (refTo [1, 2]) ⟨1, 1, 63, 0, 0⟩ false = .ok [1, 2]) ∧
    (let m := loadsOne (progOf endWord)
     m.sto.loading.find? (fun l => l.q == 0 && l.cid == 7) = some ⟨0, 7, 1, 0, 0, progOf endWord⟩ ∧ isOn m 12 = true ∧
     (match validateImage false (progOf endWord) with | .ok ps => ps == [endProg] | .error _ => false) = true ∧ progWords [endProg] ≤ m.regN rSQ_STORE_FREE ∧
     m.regN (rSQ_USED 1) + progWords [endProg] ≤ m.fldOf (rSQ_QUOTA 1) 0 20 ∧ freeHandles m.sto 1 = some 0) ∧
    ((loadsOne [1]).sto.loading.find? (fun l => l.q == 0 && l.cid == 7) = some ⟨0, 7, 1, 0, 0, [1]⟩ ∧
      (match validateImage false [1] with | .ok _ => false | .error _ => true) = true) ∧
    (beginsB hasProg (cmdOf 1) 0x21 (naming (objKey 4 0xFFFE)) = true ∧
      hasProg.sto.progs.find? (fun p => p.h == 0xFFFE && p.tenant == 1) = some ⟨0xFFFE, 1, [endProg], 1, []⟩ ∧
      progInUse hasProg ⟨0xFFFE, 1, [endProg], 1, []⟩ = false ∧
      progInUse (withEntry hasProg 254 [0, 1, 2 ^ 24, 0xFFFE]) ⟨0xFFFE, 1, [endProg], 1, []⟩ = true) := by
  decide +kernel

/-- A manifest of tenant 0 under a handle, with one input from handle 5. -/
def mani (h : Nat) : Manifest := ⟨h, 9, 0, 0, [⟨5, 0, 0, 64, 0⟩], []⟩

/-- The machine with manifests. -/
def withMans (m : Mach) (l : List Manifest) : Mach := { m with mem := { m.mem with mans := l } }

/-- A manifest image of one input of 64 bytes from handle 5. -/
def maniOf : List Byte :=
  leBytes 4 0x4B4C4D46 ++ leBytes 2 1 ++ leBytes 2 1 ++ leBytes 2 0 ++ leBytes 6 0 ++ leBytes 8 1 ++ leBytes 8 0 ++
    (leBytes 4 5 ++ leBytes 4 0 ++ leBytes 8 0 ++ leBytes 8 64 ++ leBytes 8 0)

/-- StoreCommands: allocations within a quota of one page and with reserved flags; freed in use, and freed with and without zeroing; its zeroing ends; a
manifest is loaded, and unloaded in use and not in use. -/
theorem test_meets_store :
    (let m := base.setFldOf (rTM_DRAM_QUOTA 0) 0 18 1
     beginsB m (cmdOf 0) 0x10 noWait = true ∧ badFlags m 0 0 = true ∧ badFlags m 0 1 = false ∧ hasRoom m 0 1 (ceilDiv 65536 pageSize) = true ∧
     homeTier 1 = 0 ∧ dramUsedBy m 0 + ceilDiv 65536 pageSize ≤ m.fldOf (rTM_DRAM_QUOTA 0) 0 18) ∧
    (let m := withAllocs base [page5]
     beginsB m (cmdOf 0) 0x11 (naming (objKey 1 5)) = true ∧ ownAlloc m 0 5 = some page5 ∧ page5.zeroOnFree = false ∧
     m.mem.mans.any (fun x => (x.ins ++ x.wbs).any (·.h == 5) && manInUse m x) = false) ∧
    (ownAlloc (withAllocs base [{ page5 with flags := 0x81 }]) 0 5 = some { page5 with flags := 0x81 } ∧ { page5 with flags := 0x81 }.zeroOnFree = true) ∧
    (let m := withEntry (withMans (withAllocs base [page5]) [mani 0]) 254 [0, 1, 2 ^ 24, 0]
     m.mem.mans.any (fun x => (x.ins ++ x.wbs).any (·.h == 5) && manInUse m x) = true ∧ beginsB m (cmdOf 0) 0x19 (naming (objKey 3 0)) = true ∧
     m.mem.mans.find? (fun z => z.h == 0 && z.tenant == 0) = some (mani 0) ∧ manInUse m (mani 0) = true ∧
     manInUse (withMans (withAllocs base [page5]) [mani 0]) (mani 0) = false) ∧
    (let a := { page5 with flags := 0x81, zeroing := some (0, 0xFFFE) }
     (withAllocs base [a]).mem.allocs.find? (fun z => z.h == 5 && z.zeroing.isSome) = some a ∧ a.zeroing = some ((cmdOf 0).q.val, (cmdOf 0).cid)) ∧
    (let m := withAllocs base [page5]
     beginsB m (cmdOf 0) 0x18 noWait = true ∧ refOk m 0 (refTo maniOf) false = true ∧ manifestStep m 0 maniOf = 0) := by
  decide +kernel

/-- The record of an image. -/
def imgRec (id kind owner len : Nat) : List Byte :=
  leBytes 2 id ++ leBytes 1 kind ++ leBytes 1 owner ++ leBytes 4 1 ++ leBytes 4 len ++ leBytes 4 0 ++ leBytes 48 0

/-- The machine with a mounted flash, an image quota of one sector for tenant 0, and what `f` makes of its flash. -/
def flashed (f : Flash → Flash) : Mach :=
  let m := (base.setFlagOf rFL_STATUS 0 true).setFldOf (rHM_IMG_QUOTA 0) 0 16 1
  { m with fl := f m.fl }

/-- An image of one byte, whose digest is its own. -/
def image (id kind : Nat) : Image := ⟨id, kind, 0, 1, sha384 [1], [1], 1, false⟩

/-- The ingest of tenant 0's image 3 of one byte, with an expected digest. -/
def ingest (bs exp : List Byte) : Ingest := ⟨0, 3, 1, 0, 1, 1, exp, bs, false⟩

/-- ImageCommands: opened and refused; the one byte at its offset, and bytes past the image's end; closed with no digest, with its digest, and with another. -/
theorem test_meets_ingest :
    (let m := flashed (fun f => f)
     beginsB m (cmdOf 0) 0x28 noWait = true ∧ refLen (refTo (imgRec 0xFFFE 2 0 64)) = 64 ∧ refOk m 0 (refTo (imgRec 0xFFFE 2 0 64)) false = true ∧
     openFault m 0 (imgRec 0xFFFE 2 0 64) = 0 ∧ openFault m 0 (imgRec 0xFFFF 2 0 64) ≠ 0) ∧
    (let m := flashed (fun f => { f with ingest := some (ingest [] (List.replicate 48 0)) })
     beginsB m (cmdOf 0) 0x29 noWait = true ∧ m.fl.readOnly = false ∧ dataOk (ingest [] (List.replicate 48 0)) 0 (refLen (refTo [1])) = true ∧
     refOk m 0 (refTo [1]) false = true ∧ dataOk (ingest [] (List.replicate 48 0)) 0 (refLen (refTo [1, 2])) = false) ∧
    (beginsB (flashed (fun f => { f with ingest := some (ingest [1] (List.replicate 48 0)) })) (cmdOf 0) 0x2A noWait = true ∧
      (ingest [1] []).bytes.length = (ingest [1] []).length ∧ zeroAt (List.replicate 48 0) 0 48 = true ∧ sha384 [1] = (ingest [1] (sha384 [1])).expect ∧
      zeroAt (List.replicate 48 1) 0 48 = false ∧ (List.replicate 48 1 : List Byte) ≠ sha384 [1]) := by
  decide +kernel

/-- ImageCommands: an image is deleted, listed, loaded with its digest and with another, selected; the flash is formatted; tenant 63 is turned away. -/
theorem test_meets_images :
    (let m := flashed (fun f => { f with images := [image 3 0] })
     beginsB m (cmdOf 0) 0x2B (naming (objKey 5 3)) = true ∧ findImage m 3 = some (image 3 0) ∧ inRecovery m = false ∧ m.fl.readOnly = false ∧
     beginsB m (cmdOf 0) 0x2C noWait = true ∧ refOk m 0 (refTo (List.replicate 64 0)) false = true ∧
     beginsB m (cmdOf 0) 0x2E noWait = true ∧ (findImage m 3).any (·.kind == 0) = true ∧ beginsB m (cmdOf 0) 0x2F noWait = true) ∧
    (beginsB two (cmdOf 63) 0x2E noWait = true ∧ beginsB two (cmdOf 63) 0x2F noWait = true) ∧
    (let m := withAllocs (flashed (fun f => { f with images := [image 3 2] })) [page5]
     beginsB m (cmdOf 0) 0x2D noWait = true ∧ findImage m 3 = some (image 3 2) ∧ findAlloc m 5 = some page5 ∧ page5.owner = (image 3 2).owner ∧
     65535 + (image 3 2).bytes.length ≤ page5.size ∧ mounted m = true ∧ sha384 (image 3 2).bytes = (image 3 2).digest) ∧
    sha384 { image 3 2 with bytes := [2] }.bytes ≠ { image 3 2 with bytes := [2] }.digest := by
  decide +kernel

/-- A cascade of tenant 1 with up to `n` bonds; its bond of stage 2, if any, is in state `b`. -/
def cascOf1 (armed : Bool) (n : Nat) (bs : List Nat) : Casc :=
  { casc with armed, max := n, bonds := bs.map (fun b => ⟨2, 2, 0, b, none, none, [], 0, [], [], []⟩) }

/-- The machine with cascades. -/
def withCascs (l : List Casc) : Mach := { two with cas := l }

/-- A cascade image of one stage that names two bonds. -/
def cascImg : List Byte :=
  leBytes 4 0x4B4C4353 ++ leBytes 2 1 ++ leBytes 1 1 ++ leBytes 1 8 ++ leBytes 2 692 ++ leBytes 6 0 ++
    (leBytes 1 1 ++ leBytes 2 2 ++ leBytes 2 2 ++ leBytes 2 1 ++ leBytes 1 0) ++ leBytes 40 0

/-- CascadeCommands: created and refused; armed by its tenant, by tenant 0 up to 16 bonds and past them, and by another tenant; disarmed while it is
disarmed, armed, and in a flip; destroyed while it is disarmed, armed, and named by a table. -/
theorem test_meets_cascades :
    (beginsB two (cmdOf 1) 0x30 noWait = true ∧ refOk two 1 (refTo cascImg) false = true ∧ cascadeReason two 1 cascImg = 0 ∧ cascadeReason two 1 [1] ≠ 0) ∧
    (let m := withCascs [cascOf1 true 8 [0]]
     beginsB m (cmdOf 1) 0x31 noWait = true ∧ cascOf m 1 = some (cascOf1 true 8 [0]) ∧ beginsB m (cmdOf 63) 0x31 noWait = true ∧
     beginsB m (cmdOf 1) 0x32 (naming (objKey 6 1)) = true ∧ (cascOf1 true 8 [0]).bonds.any (·.st == 2) = false ∧
     beginsB m (cmdOf 1) 0x33 (naming (objKey 6 1)) = true) ∧
    (let c := cascOf1 false 8 []
     cascOf (withCascs [c, { cascOf1 true 8 [] with tenant := 2 }]) 1 = some c ∧ bondArmed (withCascs [c, { cascOf1 true 8 [] with tenant := 2 }]) + c.max ≤ 16 ∧
     16 < bondArmed (withCascs [c, { cascOf1 true 8 [] with tenant := 2 }, { cascOf1 true 1 [] with tenant := 3 }]) + c.max ∧
     cascadeNamed (withCascs [c]) 1 = false ∧ cascadeNamed (withEntry (withCascs [c]) 254 [0, 1, 1 + 2 ^ 24 + 2 ^ 25, 0]) 1 = true) ∧
    (cascOf (withCascs [cascOf1 true 8 [2]]) 1 = some (cascOf1 true 8 [2]) ∧ (cascOf1 true 8 [2]).bonds.any (·.st == 2) = true) := by
  decide +kernel

/-- The machine with an injected stream 47 of tenant 0, of records of 64 bytes, in a place: 0 SRAM, 1 DRAM, in handle 5. -/
def injects (loc : Nat) : Mach :=
  (withAllocs ((withStream base 47 6 255).setFlagOf (rSN_STREAM_CFG 47) 16 (loc == 1)) [page5]).setRegN (rSN_STREAM_RING 47) (if loc = 1 then 5 else 0)

/-- The machine with a record that waits for the ring of stream 47, written by a time. -/
def ringWaits (h due : Nat) : Mach :=
  let m := injects 1
  { m with sn := { m.sn with ring := [⟨47, false, h, 1, 65472, List.replicate 64 0, due⟩] } }

/-- StreamCommands: a stream of each way its operands can be refused, with a free context and with none; closed with and without a record that waits, and
by another tenant; injected into each place; and its record reaches its ring in the last cycle for it, or is late. -/
theorem test_meets_streams :
    (beginsB two (cmdOf 63) 0x38 noWait = true ∧ sourceOk 6 255 = true ∧ sourceOk 6 256 = false ∧ streamGranted two 63 6 255 = false ∧
      streamGranted base 0 6 255 = true ∧ ringOk base 0 (b2n false) 0x80000 ((255 + 1) * (64 * 2 ^ 2)) = true ∧ beginsB base (cmdOf 0) 0x38 noWait = true ∧
      freeCtx base = some 0 ∧ beginsB fullStreams (cmdOf 0) 0x38 noWait = true ∧ ringOk fullStreams 0 0 0x80000 64 = true ∧ freeCtx fullStreams = none) ∧
    (beginsB two (cmdOf 63) 0x39 (naming (objKey 7 47)) = true ∧ strKind two 47 < 2 ∧
      beginsB (injects 1) (cmdOf 0) 0x39 (naming (objKey 7 47)) = true ∧ strKind (injects 1) 47 = 6 ∧ strOwner (injects 1) 47 = 0 ∧
      (injects 1).sn.ring.any (fun r => r.stream == 47) = false ∧ beginsB (ringWaits 5 0) (cmdOf 0) 0x39 (naming (objKey 7 47)) = true ∧
      (ringWaits 5 0).sn.ring.any (fun r => r.stream == 47) = true) ∧
    (∀ loc ∈ [0, 1], beginsB (injects loc) (cmdOf 0) 0x3A noWait = true ∧ strKind (injects loc) 47 = 6 ∧ strOwner (injects loc) 47 = 0 ∧
      32 + refLen (refTo (List.replicate 32 1)) ≤ strSize (injects loc) 47 ∧ refOk (injects loc) 0 (refTo (List.replicate 32 1)) false = true ∧
      strLoc (produce (begun (injects loc) (cmdOf 0)) 47 6 0 0 32 (strSource (injects loc) 47) [] (List.replicate 32 1)) 47 = loc) ∧
    (let fits := fun (m : Mach) (x : RingWrite) => isOn m 13 && isOn m 15 && decide (m.clk.now ≤ x.due) &&
       (findGen m x.h x.gen).any (fun a => decide (x.off + x.bytes.length ≤ a.size))
     let x := fun h => (⟨47, false, h, 1, 65472, List.replicate 64 0, zero.clk.now⟩ : RingWrite)
     (injects 1).sn.ring.find? (fun r => r.stream == 47 && r.mirror == false) = none ∧
     (∀ h ∈ [5, 6], (ringWaits h zero.clk.now).sn.ring.find? (fun r => r.stream == 47 && r.mirror == false) = some (x h)) ∧
     fits (ringWaits 5 zero.clk.now) (x 5) = true ∧ fits (ringWaits 6 zero.clk.now) (x 6) = false) := by
  decide +kernel

/-- Parameter bytes of a command. -/
def params (l : List Byte) : List Byte := l ++ List.replicate (56 - l.length) 0

/-- The parameters of a PWR_SET. -/
def pwr (mask st flags : Nat) : List Byte := params (leBytes 12 mask ++ leBytes 1 st ++ leBytes 1 flags)

/-- PowerCommands: PWR_SET with no domain, without and with WAIT, and of the host's own domain with WAIT; PERF_SET that keeps both levels, changes one
with and without WAIT, and past the last level; STANDING_ORDER set, removed, and past the last. -/
theorem test_meets_power :
    (∀ op ∈ [0x48, 0x49, 0x4A], beginsB base (cmdOf 0) op noWait = true) ∧
    (pwrFault base (pwrParams (pwr 0 0 0)) ≠ 0 ∧ pwrFault base (pwrParams (pwr (2 ^ 24) 1 0)) = 0 ∧ (pwrParams (pwr (2 ^ 24) 1 0)).wait = false ∧
      pwrFault base (pwrParams (pwr (2 ^ 95) 2 2)) = 0 ∧ (pwrParams (pwr (2 ^ 95) 2 2)).wait = true ∧
      bit (acceptPower base (2 ^ 95) 2 true 1).2.1 17 = false ∧
      (pwrParams (pwr (2 ^ 17) 1 2)).wait = true ∧ pwrFault base (pwrParams (pwr (2 ^ 17) 1 2)) = 0 ∧
      bit (acceptPower base (2 ^ 17) 1 true 1).2.1 17 = true ∧ isResident base 0 = false) ∧
    (let F := fun pl s fl => perfParams (params [pl, s, fl])
     perfFault base (F 8 0xFF 0) ≠ 0 ∧ perfFault base (F 0xFF 0xFF 0) = 0 ∧ (F 0xFF 0xFF 0).pl = 0xFF ∧ (F 0xFF 0xFF 0).s = 0xFF ∧
     perfFault base (F 7 0xFF 0) = 0 ∧ (F 7 0xFF 0).pl ≠ 0xFF ∧ (F 7 0xFF 0).wait = false ∧ perfFault base (F 0xFF 3 1) = 0 ∧ (F 0xFF 3 1).s ≠ 0xFF ∧
     (F 0xFF 3 1).wait = true) ∧
    (orderFault base (params [16]) ≠ 0 ∧ orderFault base (params [15, 2]) = 0 ∧ bit (byteFld (params [15, 2]) 1 1) 1 = true ∧
      orderFault base (params ([15, 1, 0x00, 0x81, 0xFF, 0x7F, 2] ++ leBytes 9 0 ++ [7, 0xFF])) = 0 ∧
      bit (byteFld (params [15, 1]) 1 1) 1 = false) := by
  decide +kernel

/-- An entry of a rule list. -/
def rule (k t r a b c : Nat) : List Byte := leBytes 1 k ++ leBytes 1 t ++ leBytes 1 r ++ leBytes 1 0 ++ leBytes 4 a ++ leBytes 4 b ++ leBytes 4 c

/-- The machine with a mounted flash, tenants 1 and 63, and a record of tenant 62 that is being created. -/
def manages : Mach :=
  let m := two.setFlagOf rFL_STATUS 0 true
  { m with hm := { m.hm with ten := [(62, { TenRec.init with creating := true })] } }

/-- TenantCommands: a tenant created, with each operand past its range, and one that is being created; destroyed, one that is not there, and one in a
table; a rule list that is installed, one past a range, one while another waits, and one that is empty; the fence with and without a revoked transfer. -/
theorem test_meets_tenants :
    beginsB manages (cmdOf 0) 0x50 noWait = true ∧ createReason manages 2 = 0 ∧ createReason manages 62 ≠ 0 ∧ manages.fl.readOnly = false ∧
    (∀ t ∈ [1, 2, 63], beginsB manages (cmdOf 0) 0x51 (naming (objKey 8 t)) = true ∧ destroying manages t = false) ∧
    tenantExists manages 2 = false ∧ tenantExists manages 63 = true ∧ anyNaming manages (fun e => e.tenant == 63) = false ∧
    anyNaming (withEntry manages 254 [0, 1, 63 + 2 ^ 24, 0]) (fun e => e.tenant == 63) = true ∧
    tenantExists (withEntry manages 254 [0, 1, 63 + 2 ^ 24, 0]) 63 = true ∧
    (let m := manages.setFlagOf (rHM_TENANT_CFG 1) 2 true
     destroying m 1 = true ∧ beginsB m (cmdOf 0) 0x51 (naming (objKey 8 1)) = true) ∧
    (let ok := fun (d : List Byte) => decide (d.length % 16 = 0) && decide (d.length ≤ 8192) && (List.range (d.length / 16)).all (ruleOk manages d)
     beginsB manages (cmdOf 0) 0x52 noWait = true ∧ refOk manages 0 (refTo (rule 2 1 1 0 64 0)) false = true ∧ manages.flagOf rHM_STATUS 1 = false ∧
     (manages.setFlagOf rHM_STATUS 1 true).flagOf rHM_STATUS 1 = true ∧ ok (rule 2 1 1 0 64 0) = true ∧ ok (rule 2 1 1 0 65 0) = false ∧ ok [1] = false) ∧
    (let m := { manages with hm := { manages.hm with fence := some (0, 9) } }
     manages.hm.fence = none ∧ m.hm.fence = some (0, 9) ∧ m.mem.xfers.any (·.st == 2) = false ∧
     m.fl.writes.any (fun w => w.unmapped && !w.done && w.xf.isSome) = false ∧
     ({ m with mem := { m.mem with xfers := [⟨3, 0, 0, 0, 1, 5, 1, 0, 64, 0, 2, 0, false⟩] } } : Mach).mem.xfers.any (·.st == 2) = true) := by
  decide +kernel

/-- AttestationAndFuses: tenant 63 with a policy and without; nonces of 8 and 24 bytes, of 7 and 25; a key enrolled once, and again. -/
theorem test_meets_attestation :
    (∀ m ∈ [two, two.setFlagOf (rHM_ATT_POLICY 63) 0 true], beginsB m (cmdOf 63) 0x53 noWait = true) ∧ mayAttest two 63 0 0 = false ∧
    mayAttest (two.setFlagOf (rHM_ATT_POLICY 63) 0 true) 63 0 0 = true ∧ mayAttest two 0 1 1 = true ∧ beginsB two (cmdOf 0) 0x53 noWait = true ∧
    refOk two 0 (refTo [1]) false = true ∧ ¬(1 < 1 ∨ 1 < 1 ∨ 8 < 8 ∨ 24 < 24) ∧
    (∀ op ∈ [0x54, 0x55, 0x56], beginsB two (cmdOf 0) op noWait = true) ∧ refLen (refTo (List.replicate 96 1)) = 96 ∧
    refOk two 0 (refTo (List.replicate 96 1)) false = true ∧ (mk two).fuses.owner = none ∧
    ({ mk two with fuses := ⟨some [], 0⟩ } : State).fuses.owner ≠ none := by
  decide +kernel

/-- AttestationAndFuses: a buffer as long as a full report takes it. -/
theorem test_meets_full_report :
    ∃ r, refOk two 0 r false = true ∧ (fullReport (begun two (cmdOf 0)) 64 []).1.length ≤ refLen r := by
  refine ⟨⟨0, 0, (fullReport (begun two (cmdOf 0)) 64 []).1.length, false, none⟩, ?_, ?_⟩
  · have : isQspi two = false := by decide +kernel
    simp [refOk, this]
  · unfold refLen
    simp only
    split <;> omega

/-- A region of host memory of tenant 0. -/
def region (id n : Nat) : HostRegion := ⟨id, 0, List.replicate n 65536⟩

/-- The machine with regions of host memory. -/
def withRegions (m : Mach) (l : List HostRegion) : Mach := { m with hs := { m.hs with regions := l } }

/-- HostDataCommands: a transfer that ends with its allocation, one that begins off a beat, one that ends past it, and one that is no beat long; to
flash while it takes writes and while it does not; of poisoned bytes. -/
theorem test_meets_host_data :
    (let m := withAllocs base [page5]
     let r := refTo (List.replicate 64 1)
     beginsB m (cmdOf 0) 0x12 (overlapping 5 65472 64 true) = true ∧ beginsB m (cmdOf 0) 0x13 (overlapping 5 65472 64 false) = true ∧
     beginsB m (cmdOf 0) 0x12 (overlapping 5 65473 64 true) = true ∧ ownAlloc m 0 5 = some page5 ∧ refLen r = 64 ∧ 65472 % 64 = 0 ∧ 65473 % 64 ≠ 0 ∧
     65472 + 64 ≤ page5.size ∧ page5.size < 65473 + 64 ∧ refOk m 0 r true = true ∧ refOk m 0 (refTo [1]) true = false ∧ m.fl.readOnly = false ∧
     (cutPages ((List.replicate 64 (1 : Byte)).length / pageSize + 2) 65472 (List.replicate 64 1)).any (fun p => inFlash page5 (p.1 / pageSize)) = false ∧
     poisoned page5 65472 64 = false ∧ poisoned (page5.setPage 0 { Pg.init with poison := true }) 65472 64 = true) ∧
    (let a := { page5 with flags := 2 }
     let m := withAllocs { base with fl := { base.fl with readOnly := true } } [a]
     beginsB m (cmdOf 0) 0x12 (overlapping 5 0 64 true) = true ∧ ownAlloc m 0 5 = some a ∧ m.fl.readOnly = true ∧
     refOk m 0 (refTo (List.replicate 64 1)) true = true ∧
     (cutPages ((List.replicate 64 (1 : Byte)).length / pageSize + 2) 0 (List.replicate 64 1)).any (fun p => inFlash a (p.1 / pageSize)) = true) ∧
    (let m := withAllocs base [page5.setPage 0 { Pg.init with poison := true }]
     beginsB m (cmdOf 0) 0x13 (overlapping 5 65472 64 false) = true ∧ (ownAlloc m 0 5).isSome = true) := by
  decide +kernel

/-- HostDataCommands: a region registered, with a page list that is refused, and on a QSPI link; unregistered, with a page in use, and another's. -/
theorem test_meets_regions :
    (beginsB qspi (cmdOf 0) 0x14 noWait = true ∧ isQspi qspi = true ∧ beginsB base (cmdOf 0) 0x14 noWait = true ∧ isQspi base = false ∧
      refOk base 0 (refTo (leBytes 8 65536)) false = true ∧ pageListOk (leBytes 8 65536) = true ∧ pageListOk (leBytes 8 65537) = false ∧
      regionPages base + (leBytes 8 65536).length / 8 ≤ 1048576 ∧ lowestFree (base.hs.regions.map (·.id)) = 0) ∧
    (let m := withRegions base [region 0 1]
     beginsB m (cmdOf 0) 0x15 (naming (objKey 2 0)) = true ∧ m.hs.regions.find? (fun g => g.id == 0 && g.owner == 0) = some (region 0 1) ∧
     regionFree m (region 0 1) = (region 0 1).pages.length ∧ m.hs.regions.find? (fun g => g.id == 1 && g.owner == 0) = none ∧
     regionFree (withAllocs m [{ page5 with host := [(0, 1)] }]) (region 0 1) ≠ (region 0 1).pages.length) := by
  decide +kernel

/-- HostDataCommands: a region more than the pages that host regions may have. -/
theorem test_meets_region_limit : 1048576 < regionPages (withRegions base [region 0 1048576]) + (leBytes 8 65536).length / 8 := by
  have h : ∀ n, regionPages (withRegions base [region 0 n]) = n := by simp [regionPages, withRegions, region]
  have h' : (leBytes 8 65536).length / 8 = 1 := by decide +kernel
  rw [h, h']
  decide

/-- HostDataCommands: the last bytes of the lighthouse SRAM, and a partition of another owner; run notices for two tenants. -/
theorem test_meets_sram :
    (beginsB base (cmdOf 0) 0x3C noWait = true ∧ beginsB base (cmdOf 0) 0x3D noWait = true ∧ 0xFFF00 + 256 ≤ 0x100000 ∧
      refOk base 0 (refTo (List.replicate 256 1)) false = true ∧
      (∃ off ∈ [0xFFF00, 0x1FF00, 0x20000], lhRangeOk base 0 off 256 = true) ∧ lhRangeOk two 63 0xFFF00 256 = false ∧
      beginsB two (cmdOf 63) 0x3C noWait = true ∧ beginsB two (cmdOf 63) 0x3D noWait = true) ∧
    beginsB two (cmdOf 1) 0x40 noWait = true ∧ beginsB two (cmdOf 63) 0x40 noWait = true := by
  decide +kernel

/-- A job descriptor of one member, this node, for tenant 1. -/
def jobImg : List Byte :=
  leBytes 4 0x4B4C4A42 ++ leBytes 1 15 ++ leBytes 1 1 ++ leBytes 1 0 ++ leBytes 1 1 ++ leBytes 8 1 ++ leBytes 16 0 ++ leBytes 4 0 ++ leBytes 12 0 ++
    (leBytes 1 63 ++ leBytes 1 0 ++ leBytes 6 0 ++ leBytes 8 1)

/-- JobCommands: that descriptor opens its job. -/
theorem test_meets_job : jobReason two jobImg = 0 := by
  have h1 : nodeOut two selfUid = false := by
    unfold nodeOut
    rw [if_pos rfl]
    decide +kernel
  have h2 : distFrom two selfUid = [(selfUid, 0)] := rfl
  have h3 : uidOf two 0 = selfUid := rfl
  have h4 : bitList (byteFld jobImg 8 8) 64 = [0] := by decide +kernel
  have h5 : (nodeUids two).length = 1 := rfl
  unfold jobReason
  simp only [h4]
  rw [if_neg (by decide +kernel), if_neg (by decide +kernel), if_neg (by decide +kernel), if_neg, if_neg (by decide +kernel)]
  simp only [List.any_cons, List.any_nil, h1, h2, h3, h5, beq_self_eq_true]
  decide +kernel

/-- JobCommands: opened and refused; closed, and one that is not open; by another tenant. -/
theorem test_meets_jobs :
    (beginsB two (cmdOf 0) 0x58 noWait = true ∧ beginsB two (cmdOf 63) 0x58 noWait = true ∧ refOk two 0 (refTo jobImg) false = true ∧
      jobReason two [1] ≠ 0) ∧
    (let m := { two with ch := { two.ch with jobs := [⟨15, 1, false, 1, 0, [], [], false, none, [], 0⟩] } }
     beginsB m (cmdOf 0) 0x59 noWait = true ∧ beginsB m (cmdOf 63) 0x59 noWait = true ∧ m.ch.jobs.any (·.job == 15) = true ∧
     m.ch.jobs.any (·.job == 0) = false) := by
  decide +kernel

/-! ## Events -/

/-- A transition of a domain that began at time 0. -/
def moving (d src tgt due : Nat) (xtal : Bool) : Trans := ⟨d, src, tgt, 0, due, xtal, 0⟩

/-- The machine with transitions. -/
def withTrans (m : Mach) (l : List Trans) : Mach := { m with pm := { m.pm with trans := l } }

/-- A submission that names no slot, with R20's least seam and a period. -/
def emptySub (period : Nat) : Submission := ⟨[], period, 960, [], 0⟩

/-- The machine whose reference is stopped, with a transition that waits for the crystal. -/
def stopped : Mach :=
  let m := withTrans base [moving 13 2 0 100 true]
  { m with clk := { m.clk with refStopped := true, coarseTick := true, xtalStarting := true } }

/-- The machine with what `f` makes of its tick. -/
def ticks (m : Mach) (f : Tick → Tick) : Mach := { m with tk := f m.tk }

/-- TickEvents: the reference runs, in strict mode and not, and is stopped while the crystal starts; a self-test's last cycle is in its slot region; a
submission that is accepted, and one that is rejected for its period. -/
theorem test_meets_tick :
    (mk base).taken.clk.refStopped = false ∧ (mk base).taken.flagOf rTK_CTRL 0 = false ∧ (mk (base.setFlagOf rTK_CTRL 0 true)).taken.flagOf rTK_CTRL 0 = true ∧
    (mk stopped).taken.clk.refStopped = true ∧ (mk stopped).taken.clk.xtalStarting = true ∧ (mk base).taken.clk.xtalStarting = false ∧
    (mk base).taken.tk.testLeft = none ∧
    (let m := (mk (ticks base (fun t => { t with testNamed := 0x8000, testLeft := some 1 }))).taken
     m.tk.testLeft = some 1 ∧ m.tk.testFail = none ∧ m.clk.inSeam = false ∧ m.clk.coarseTick = false ∧ 1 ≤ testRegion m) ∧
    (mk base).taken.tk.validating = none ∧
    submissionFault { (mk (ticks base (fun t => { t with validating := some (emptySub 76800) }))).taken with tk := base.tk } (emptySub 76800) = none ∧
    submissionFault { (mk (ticks base (fun t => { t with validating := some (emptySub 0) }))).taken with tk := base.tk } (emptySub 0) = some (0xFF, 2) := by
  decide +kernel

/-- The machine whose slot 254 of tenant 1 may start, with a manifest of handle `h`. -/
def ready (h : Nat) : Mach :=
  let m := withEntry { hasProg with mem := { hasProg.mem with mans := [⟨0, 9, 1, 0, [], []⟩] } } 254
    [100, 50, 1 + 256 * 8 + 4096 * 8 + 2 ^ 24, 0xFFFE + 65536 * h, 0, 2 ^ 31]
  { ticks m (fun t => { t with strict := true, bound := [(254, 10)] }) with pm := { m.pm with onTick := 2 ^ 96 - 1 } }

/-- The run of slot 254, with streams and the fault for which it is skipped. -/
def run254 (streams : List Stream) (skip : Nat) : SlotRun :=
  { slot with id := 254, start := 100, length := 50, quad := 8, seqs := 8, vec := 0, berths := 2 ^ 63, streams, skip }

/-- The machine while slot 254 runs, with its outcome. -/
def runs254 (r : SlotRun) (outcome : Nat) : Mach :=
  { ticks (ready 0xFFFF) (fun t => { t with outcomes := [(254, outcome)] }) with st := { base.st with runs := [r] } }

/-- SlotsStartAndEnd: a slot that runs, that is idle as its tenant is halted, that is skipped for a fault or as its inputs are stale, and that may not
start; a run that reached its end, one that did not, one that was skipped for a fault and one that was not, and one that was idle. -/
theorem test_meets_slots :
    (∀ h ∈ [0, 0xFFFF], mayStart (ready h) 254 (entryOf (ready h).tk.active 254) = true) ∧ mayStart base 254 (entryOf base.tk.active 254) = false ∧
    startOutcome (beginFlips (advanceTo (ready 0xFFFF) (quayTime (ready 0xFFFF) 100)) 100) 254 (entryOf (ready 0xFFFF).tk.active 254) = (0, 0) ∧
    startOutcome (beginFlips (advanceTo (ready 0) (quayTime (ready 0) 100)) 100) 254 (entryOf (ready 0).tk.active 254) = (2, 0x0103) ∧
    (∀ h ∈ [0, 0xFFFF], let b := beginFlips (advanceTo (ready h) (quayTime (ready h) 100)) 100
     idleAt b 254 (entryOf (ready h).tk.active 254) = false ∧ manCheck b 254 (entryOf (ready h).tk.active 254) = if h = 0 then 1 else 4) ∧
    bit (ticks (ready 0) (fun t => { t with halted := 2 })).tk.halted 1 = true ∧
    findRun base 254 = none ∧ findRun (runs254 (run254 [] 0) 0) 254 = some (run254 [] 0) ∧
    (let c := closeRun (beginFlips (advanceTo (runs254 (run254 [] 0) 0) (quayTime (runs254 (run254 [] 0) 0) 150)) 150) (run254 [] 0)
     tabGet c.1.tk.outcomes 254 1 = 0 ∧ c.2.cut = false ∧ c.2.reachedEnd = true) ∧
    (let c := closeRun (beginFlips (advanceTo (runs254 (run254 [stream] 0) 0) (quayTime (runs254 (run254 [stream] 0) 0) 150)) 150) (run254 [stream] 0)
     tabGet c.1.tk.outcomes 254 1 = 0 ∧ c.2.reachedEnd = false) ∧
    (∀ k ∈ [0x0103, 0xFFFF], (closeRun (beginFlips (advanceTo (runs254 (run254 [] k) 2) (quayTime (runs254 (run254 [] k) 2) 150)) 150) (run254 [] k)).2.skip = k ∧
      tabGet (closeRun (beginFlips (advanceTo (runs254 (run254 [] k) 2) (quayTime (runs254 (run254 [] k) 2) 150)) 150) (run254 [] k)).1.tk.outcomes 254 1 = 2) ∧
    tabGet (closeRun (beginFlips (advanceTo (runs254 (run254 [] 0) 1) (quayTime (runs254 (run254 [] 0) 1) 150)) 150) (run254 [] 0)).1.tk.outcomes 254 1 = 1 := by
  decide +kernel

/-- SlotsStartAndEnd: a slot of a relaxed tenant whose inputs did not come is stale. -/
theorem test_meets_stale :
    let m := (ready 0).setFldOf (rHM_TENANT_CFG 1) 1 1 1
    startOutcome (beginFlips (advanceTo m (quayTime m 100)) 100) 254 (entryOf m.tk.active 254) = (2, 0xFFFF) := by
  decide +kernel

/-- SeamsAndBoundaries: the seam has begun, and has not; a table waits for it, and none; every outcome is one of four. -/
theorem test_meets_seam :
    { base with clk := { base.clk with inSeam := true } }.clk.inSeam = true ∧ base.clk.inSeam = false ∧ base.tk.accepted = none ∧
    (ticks base (fun t => { t with accepted := some (emptySub 76800) })).tk.accepted = some (emptySub 76800) ∧
    (∀ k, tabGet base.tk.outcomes k 1 < 4) ∧ 254 < 255 :=
  ⟨rfl, rfl, rfl, rfl, fun _ => by show (1 : Nat) < 4; decide, by decide⟩

/-- A transfer of tenant 1 between berth 0 and page 0 of handle 5: 0 an input, 1 a write-back; 0 waiting, 1 issued, 2 and more revoked. -/
def xfer (kind st : Nat) : Xfer := ⟨3, 2, 254, kind, 1, 5, 1, 0, 64, 0, st, 0, false⟩

/-- The machine with that transfer, its list, its allocation in tier `tier`: 1 DRAM, 2 flash, 4 host memory; and, unless `rules` is false, the rules that grant it. -/
def transfers (kind st tier : Nat) (rules : Bool) : Mach :=
  let m := withAllocs two [{ page5 with owner := 1, flags := tier }]
  { m with mem := { m.mem with xfers := [xfer kind st], lists := [⟨2, 254, kind, 1, 9, [], false, 0, false, 0, none⟩] },
           hm := { m.hm with rules := if rules then [⟨2, 1, 3, 0, 64, 0⟩] else [] } }

/-- The machine with flash writes. -/
def writes (m : Mach) (l : List FWrite) : Mach := { m with fl := { m.fl with writes := l } }

/-- A flash write of a page of handle 5 for tenant 0's command. -/
def write0 : FWrite := ⟨7, .page 5 1 0 [1], 0, 0xFFFE, none, false, false, false⟩

/-- TransfersAndFlips: a transfer that may issue, granted and not, and to a flash that takes no writes; one that waits, is revoked, and completes with its
bytes, with each fault, and held back by a slot. -/
theorem test_meets_transfers :
    (∀ k ∈ [0, 1], mayIssue (transfers k 0 1 true) (xfer k 0) = true ∧ xferGranted (transfers k 0 1 true) (xfer k 0) = true ∧
      mayIssue (transfers k 0 1 false) (xfer k 0) = true ∧ xferGranted (transfers k 0 1 false) (xfer k 0) = false ∧
      mayIssue (transfers k 1 1 true) (xfer k 1) = false ∧ (transfers k 0 1 true).mem.xfers.find? (·.id == 3) = some (xfer k 0)) ∧
    base.mem.xfers.find? (·.id == 3) = none ∧
    (let m := (transfers 1 0 2 true).setFlagOf rFL_STATUS 1 true
     mayIssue m (xfer 1 0) = true ∧ xferGranted m (xfer 1 0) = true ∧ m.flagOf rFL_STATUS 1 = true ∧
     (findGen m 5 1).any (fun a => inFlash a 0) = true) ∧
    (heldBerths (transfers 0 1 1 true) &&& berthMask 0 64 = 0 ∧ heldBerths { transfers 0 1 1 true with st := { base.st with runs := [slot] } } &&& berthMask 0 64 ≠ 0) ∧
    (∀ tier ∈ [1, 2, 4], ∃ a, findGen (addCorrected (addReads (transfers 0 1 tier true) [(9, 1)]) 1) 5 1 = some a ∧ xferFault a (xfer 0 1) .ok = 0 ∧
      xferFault a (xfer 1 1) .ok = 0 ∧ xferFault a (xfer 0 1) .dramError ≠ 0 ∧ xferFault a (xfer 1 1) .hostError ≠ 0) ∧
    ((findList (transfers 0 1 1 true) 2).isSome = true ∧ (findList { transfers 0 1 1 true with mem := { (transfers 0 1 1 true).mem with lists := [] } } 2) = none) := by
  refine ⟨by decide +kernel, by decide +kernel, by decide +kernel, by decide +kernel, ?_, by decide +kernel⟩
  intro tier h
  refine ⟨{ page5 with owner := 1, flags := tier }, ?_⟩
  simp only [List.mem_cons, List.not_mem_nil, or_false] at h
  rcases h with rfl | rfl | rfl <;> decide +kernel

/-- TransfersAndFlips: a page whose copy is under way and one without; a write that becomes durable, is done, is held and meets a controller that is off; a
block at the limit and one below; a bond open, committed with and without its cycle, and none; one that is due and one that is not. -/
theorem test_meets_flips :
    (findAlloc (withAllocs base [page5]) 5 = some page5 ∧ (page5.page 0).copy ≠ 1 ∧ ((page5.setPage 0 { Pg.init with copy := 1 }).page 0).copy = 1) ∧
    (let m := writes base [write0]
     m.fl.writes.find? (·.id == 7) = some write0 ∧ write0.done = false ∧ write0.held = false ∧ isOn m 16 = true ∧ write0.unmapped = false ∧ write0.xf = none ∧
     write0.q < 64 ∧ isOn (domains m [16] 2) 16 = false) ∧
    (let m := base.setFlagOf rFL_STATUS 0 true
     tabGet base.fl.reads 9 0 < base.fl.limit ∧ mounted base = false ∧ inhibited m = false ∧ mounted m = true ∧
     ({ m with fl := { m.fl with reads := [(9, m.fl.limit)] } } : Mach).fl.limit ≤ tabGet [(9, m.fl.limit)] 9 0) ∧
    (let bond := fun st flip => (⟨2, 2, 0, st, flip, none, [], 0, [], [], []⟩ : Bond)
     let at' := fun st flip => { two with cas := [{ casc with bonds := [bond st flip] }] }
     (cascOf two 1).bind (·.bond 2) = none ∧ (∀ e ∈ [(0, none), (1, some 500), (1, none), (2, none)],
       (cascOf (at' e.1 e.2) 1).bind (·.bond 2) = some (bond e.1 e.2)) ∧ (at' 1 none).clk.inSeam = false ∧
     bondDue { at' 0 none with clk := { base.clk with tick := 5 } } casc (bond 0 none) = true ∧
     bondDue { at' 0 none with clk := { base.clk with tick := 4 } } casc (bond 0 none) = false) := by
  decide +kernel

/-- The machine with what `f` makes of its lighthouse, and of its sensors. -/
def lights (m : Mach) (f : Light → Light) : Mach := { m with lh := f m.lh }
def senses (m : Mach) (f : Sensor → Sensor) : Mach := { m with sn := f m.sn }

/-- The last task's run, with a store to an address next. -/
def task (a : Int) : SlotRun := { slot with id := 383, accs := [⟨99, ins, 0, .store a (List.replicate 8 1) 33554431⟩] }

/-- LighthouseEvents: a task whose next store is to the micro-array's command, and to the publication port; one whose program ended; a confidence that
waits; a mirror copy that waits; the last partition being cleared; the 32 kHz crystal lost and locked. -/
theorem test_meets_lighthouse :
    (∀ a ∈ [0x100000, 0x100100], findRun (inRun (task a)) 383 = some (task a)) ∧ findRun base 383 = none ∧
    nextStore (task 0x100000) (· == 0x100000) = true ∧ nextStore (task 0x100100) (· == 0x100100) = true ∧ nextStore (task 0x100100) (· == 0x100000) = false ∧
    nextStore (task 0x100000) (· == 0x100100) = false ∧
    (closeRun (inRun { task 0 with accs := [] }) { task 0 with accs := [] }).2.reachedEnd = false ∧
    (closeRun (inRun { task 0 with accs := [], streams := [] }) { task 0 with accs := [], streams := [] }).2.reachedEnd = true ∧
    base.lh.vad.pend = none ∧ (lights base (fun l => { l with vad := { l.vad with pend := some (100, 65535, 0) } })).lh.vad.pend = some (100, 65535, 0) ∧
    base.sn.ring.find? (fun r => r.stream == 7 && r.mirror == true) = none ∧
    (let x := fun h => (⟨7, true, h, 1, 65472, List.replicate 64 0, zero.clk.now⟩ : RingWrite)
     let m := fun h => senses (withAllocs base [page5]) (fun n => { n with ring := [x h] })
     let fits := fun h => isOn (m h) 13 && isOn (m h) 15 && decide ((m h).clk.now ≤ (x h).due) &&
       (findGen (m h) (x h).h (x h).gen).any (fun a => decide ((x h).off + (x h).bytes.length ≤ a.size))
     (∀ h ∈ [5, 6], (m h).sn.ring.find? (fun r => r.stream == 7 && r.mirror == true) = some (x h)) ∧ fits 5 = true ∧ fits 6 = false) ∧
    bit base.lh.clearing 63 = false ∧ bit (lights base (fun l => { l with clearing := 2 ^ 63 })).lh.clearing 63 = true ∧
    base.flagOf rLH_STATUS 0 = false ∧ (base.setFlagOf rLH_STATUS 0 true).flagOf rLH_STATUS 0 = true ∧ base.flagOf rEF_START 7 = false ∧
    (base.setFlagOf rEF_START 7 true).flagOf rEF_START 7 = true ∧ base.pd.vioA = true := by
  decide +kernel

/-- TouchButtonsAndClock: a scan is due while none and while one runs; its last channel, one before, with and without an abort and a queued scan; a button in
each of its states; a pattern's last and other steps; the clock's events; a queue pair that changes host. -/
theorem test_meets_touch :
    (let touch := fun (f : Touch → Touch) => (lights base (fun l => { l with touch := f l.touch })).lh.touch
     base.lh.touch.due = false ∧ base.lh.touch.running = false ∧ (touch (fun t => { t with due := true })).due = true ∧
     (touch (fun t => { t with due := true, running := true })).running = true ∧ base.lh.touch.left = [] ∧
     (∀ a ∈ [true, false], ∀ q ∈ [true, false], ∀ ns ∈ [[], [12]],
       (touch (fun t => { t with left := 11 :: ns, abort := a, queued := q })).left = 11 :: ns ∧
         (touch (fun t => { t with left := 11 :: ns, abort := a, queued := q })).abort = a ∧ (touch (fun t => { t with left := 11 :: ns, abort := a, queued := q })).queued = q)) ∧
    (let m := fun w => base.setRegN (rLH_BTN_CFG 7) w
     (btn base 7).level = false ∧ base.pd.vioA = true ∧ directPad (m 9) 7 0 = true ∧ directPad (m 13) 7 1 = true ∧ blindAt (m 13) base.clk.now = false ∧
     directPad base 7 0 = false ∧ directPad base 7 1 = false ∧ flag ((m 1).reg (rLH_BTN_CFG 7)) 0 = true ∧ flag ((m 1).reg (rLH_BTN_CFG 7)) 1 = false ∧
     flag ((m 3).reg (rLH_BTN_CFG 7)) 1 = true ∧ flag ((m 1).reg (rLH_BTN_CFG 7)) 16 = false ∧ flag ((m (65536 + 1)).reg (rLH_BTN_CFG 7)) 16 = true ∧
     flag ((m (65536 + 5)).reg (rLH_BTN_CFG 7)) 2 = true ∧ flag ((m (65536 + 1)).reg (rLH_BTN_CFG 7)) 2 = false) ∧
    (let m := fun k => setHap base 1 k
     (hap base 1).playing = false ∧ (∀ st ∈ [30, 31], ∀ r ∈ [0, 1], hap (m { Haptic.init with playing := true, step := st, reps := r }) 1 =
       { Haptic.init with playing := true, step := st, reps := r }) ∧ base.flagOf (rLH_HAP_STEP 1 30) 16 = false) ∧
    (let rtc := fun (f : Rtc → Rtc) => (lights base (fun l => { l with rtc := f l.rtc })).lh.rtc
     base.lh.rtc.alarmDue = false ∧ base.lh.rtc.periodDue = 0 ∧ (rtc (fun r => { r with alarmDue := true })).alarmDue = true ∧
     (rtc (fun r => { r with periodDue := 1 })).periodDue ≠ 0) ∧
    (bit (base.reg64 rLH_RH_TENANTS_LO) 63 = isResident base 63 ∧
      (∀ r ∈ [0, 1], bit ((base.setReg64 rLH_RH_TENANTS_LO (r * 2 ^ 63)).reg64 rLH_RH_TENANTS_LO) 63 = (r == 1)) ∧
      isResident { base with hs := { base.hs with resident := 2 ^ 63 } } 63 = true ∧ outstanding base 63 = 0 ∧ outstanding (withCmds base [fetched63]) 63 ≠ 0) := by
  decide +kernel

/-- A frame of VC context 7 that was received whole. -/
def frame7 : Frame := ⟨0, 1, 0, 0, 0, 5, 1, 0, 64, 1, 1, 1, 64, 0, 0, false, false⟩

/-- The machine whose receiver 1 runs, with VC context 7 on for DATA_TYPE 0x2A and bound to stream 0. -/
def camera : Mach := ((withStream base 0 2 7).setFlagOf (rCM_RX_CFG 1) 0 true).setRegN (rCM_VC_CFG 7) (1 + 4 * 0x2A)

/-- CameraAndSensorEvents: frames and packets of a receiver that runs, with a stream and without, and with its context off. -/
theorem test_meets_camera :
    rxRuns base 1 = false ∧ rxRuns camera 1 = true ∧ camera.flagOf (rCM_VC_CFG 7) 0 = true ∧ (vctx camera 7).frame = none ∧ vcStream camera 7 = some 0 ∧
    (sctx camera 0).bind = none ∧ (vctx camera 7).pend = none ∧ vcStream (camera.setFldOf (rSN_STREAM_CFG 0) 0 4 0) 7 = none ∧
    (camera.setFlagOf (rCM_VC_CFG 7) 0 false).flagOf (rCM_VC_CFG 7) 0 = false ∧ rxRuns (camera.setFlagOf (rCM_VC_CFG 7) 0 false) 1 = true ∧
    knownDt 0x2A = true ∧ knownDt 0x2D = false ∧ camera.fldOf (rCM_VC_CFG 7) 2 6 = 0x2A ∧ Ecc.corrected ≠ .double ∧
    (camera.satFld (rCM_RX_ERR 1) 24 8 1).flagOf (rCM_VC_CFG 7) 0 = true ∧
    (vctx camera 7).closed = [] ∧ (vctx (setVctx camera 7 { VCtx.init with closed := [frame7, frame7] }) 7).closed = frame7 :: [frame7] ∧
    LaneEv.hsSkewCal ≠ .hsSotError := by
  decide +kernel

/-- The machine whose controller 1 runs with a device 10 at address 0x7F, whose entry has these bits, and sequence 15 on that controller, waiting for IBIs. -/
def busOne (dev trig : Nat) : Mach :=
  (((base.setRegN (rSN_I3C_CFG 1) 1).setRegN (rSN_I3C_DEV 1 10) (0x7F * 256 + dev)).setRegN (rSN_SEQ_CFG 15) (1 + 4 * trig)).setFlagOf (rSN_SEQ_CFG 15) 16 true

/-- The machine with a state of sequence 15. -/
def seq15 (f : SeqSt → SeqSt) : Mach := setSeqSt (busOne 0 0) 15 (f SeqSt.init)

/-- CameraAndSensorEvents: an in-band interrupt of no device, of one that may not, of one that triggers nothing, and of one that triggers; a timer's
trigger; a run that waits, goes on, ends and is aborted; the controller taken and free; a wheel, off, as a pulse input and as a quadrature pair. -/
theorem test_meets_sequences :
    (let live := fun (m : Mach) => m.flagOf (rSN_I3C_CFG 1) 0 && !m.flagOf (rSN_I3C_CFG 1) 1 && m.pd.vioA
     let target := fun (m : Mach) (a : Nat) => (List.range 11).find? (fun i => a != 0 && m.fldOf (rSN_I3C_DEV 1 i) 8 7 == a && !m.flagOf (rSN_I3C_DEV 1 i) 16)
     live base = false ∧ live (busOne 0 0) = true ∧ target (busOne 0 0) 0x7E = none ∧ target (busOne 0 0) 0x7F = some 10 ∧
     flag ((busOne 0 0).reg (rSN_I3C_DEV 1 10)) 17 = false ∧ flag ((busOne 0x20000 0).reg (rSN_I3C_DEV 1 10)) 17 = true ∧
     flag ((busOne 0x20000 0).reg (rSN_I3C_DEV 1 10)) 24 = false ∧
     (let m := busOne 0x1F20000 1
      target m 0x7F = some 10 ∧ flag (m.reg (rSN_I3C_DEV 1 10)) 17 = true ∧ flag (m.reg (rSN_I3C_DEV 1 10)) 24 = true ∧ fld (m.reg (rSN_I3C_DEV 1 10)) 20 4 = 15 ∧
      seqTrigger (postEvent m 0x8901 0) 15 = 1 ∧ seqCtrl (postEvent m 0x8901 0) 15 = 1)) ∧
    (seqArmed base 15 = false ∧ seqArmed (busOne 0 0) 15 = true ∧ seqTrigger (busOne 0 0) 15 = 0 ∧ seqTrigger (busOne 0 1) 15 ≠ 0) ∧
    (let q := fun f => seqSt (seq15 f) 15
     let taken := fun (m : Mach) => ((List.range 16).filter (fun k => seqCtrl m k == seqCtrl m 15)).any (fun k => (seqSt m k).running)
     (q id).waiting = none ∧ (q id).running = false ∧ (q id).delay = none ∧ (q (fun x => { x with waiting := some 1 })).waiting = some 1 ∧
     taken (seq15 (fun x => { x with waiting := some 1 })) = false ∧ taken (seq15 (fun x => { x with waiting := some 1, running := true })) = true ∧
     (q (fun x => { x with running := true })).abort = none ∧ (q (fun x => { x with running := true, abort := some 1 })).abort ≠ none ∧
     (q (fun x => { x with running := true, abort := some 1 })).running = true ∧
     (q (fun x => { x with running := true, delay := some 100 })).delay = some 100 ∧ (seq15 id).pd.vioA = true) ∧
    (let m := fun w k => base.setRegN (rSN_WHL_CFG k) w
     flag (base.reg (rSN_WHL_CFG 3)) 0 = false ∧ isBLine base 3 = false ∧ flag ((m 1 3).reg (rSN_WHL_CFG 3)) 0 = true ∧ flag ((m 1 3).reg (rSN_WHL_CFG 3)) 1 = false ∧
     flag ((m 3 3).reg (rSN_WHL_CFG 3)) 1 = true ∧ flag ((m 5 2).reg (rSN_WHL_CFG 2)) 2 = true ∧ isBLine (m 5 2) 2 = false ∧ isBLine (m 5 2) 3 = true ∧
     (m 1 3).flagOf (rSN_WHL_CFG 3) 0 = true) := by
  decide +kernel

/-- PowerAndWakeEvents: a transition of any domain, of DMC to on, of HOST to on, and one that waits for the crystal; a lowering of a channel port whose domain
wakes, of a domain at work and of one that is idle; a port that listens in each mode; the host's wakes on each link; the engine at a grid point at which
it filters, one at which it propagates and one before it is initialised; an entry that opens again. -/
theorem test_meets_wakes :
    (∀ d ∈ [15, 17, 95], (withTrans base [moving d 2 0 100 false]).pm.trans.find? (fun t => t.dom == d && !t.xtal) = some (moving d 2 0 100 false) ∧
      (withTrans base [moving d 2 0 100 false]).pm.trans.find? (·.dom == d) = some (moving d 2 0 100 false)) ∧
    base.pm.trans.find? (·.dom == 95) = none ∧ (withTrans base [moving 95 2 0 100 true]).pm.trans.find? (·.dom == 95) = some (moving 95 2 0 100 true) ∧
    (withTrans base [moving 95 2 0 100 true]).pm.trans.find? (fun t => t.dom == 95 && !t.xtal) = none ∧
    (withTrans base [moving 21 0 2 100 false]).pm.trans.any (fun t => t.dom == 21 && decide (t.src < t.tgt)) = true ∧
    base.pm.trans.any (fun t => t.dom == 21 && decide (t.src < t.tgt)) = false ∧ busyFor base 13 = false ∧ busyFor (transfers 0 1 1 true) 13 = true ∧
    (let m := fun k => (domains base [21] 1).setRegN rPM_LINK_WAKE (64 * k)
     (∀ k ∈ [0, 1, 2], domSt (m k) 21 = 1 ∧ inTrans (m k) 21 = false ∧ (m k).fldOf rPM_LINK_WAKE 6 2 = k)) ∧
    isQspi base = false ∧ isOn base 17 = true ∧ isOn (domains base [17] 2) 17 = false ∧ isQspi qspi = true ∧ isOn (domains qspi [17] 2) 17 = false ∧
    fuRuns base = false ∧ fuRuns fusing = true ∧ 0 % max 1 (fusing.fldOf rFU_FILT 0 7) = 0 ∧ 1 % max 1 ((fusing.setFldOf rFU_FILT 0 7 2).fldOf rFU_FILT 0 7) ≠ 0 ∧
    initDone fusing = false ∧ initDone (fusing.setFlagOf rFU_STATUS 3 true) = true ∧
    (fuEnt (setFuEnt fusing 15 { FuEnt.init 0 with openAt := some 100 }) 15).openAt = some 100 ∧ (fuEnt fusing 15).openAt = none := by
  decide +kernel

/-- DeliveryEvents: each voltage at its threshold and past it, the reference running with the quadrants on and not; a stretch in the lockout, the first, and
one more; each bit of PD_STATUS set and clear. -/
theorem test_meets_delivery :
    (let want := 2 * (plVolt (curPl base) + if pilotUp base then 20 else 0)
     let margin := if pilotDown base then 20 else 50
     (want - 31) + 30 < want ∧ want ≤ (want - 30) + 30 ∧ want + margin < want + margin + 1 ∧ 2 * plVolt (curPl base) ≤ (2 * plVolt (curPl base) - 60) + 60 ∧
     (2 * plVolt (curPl base) - 61) + 60 < 2 * plVolt (curPl base)) ∧
    base.clk.refStopped = false ∧ quadOn base = true ∧ quadOn (domains base [0, 1, 2, 3] 2) = false ∧ base.tk.lastStretch = none ∧
    (∀ c ∈ [99, 100], (let last := (ticks base (fun t => { t with lastStretch := some 100 })).tk.lastStretch.getD 0
      (if c < last then none else some (max (last + 64) (c + 1))) = (if c = 99 then none else some 164))) ∧
    base.pd.profileNext ≠ some false ∧ ({ base with pd := { base.pd with profileNext := some false } } : Mach).pd.profileNext = some false ∧
    (base.setFldOf (rPD_DROOP_MIN 6) 0 12 4095).fldOf (rPD_DROOP_MIN 6) 0 12 ≤ 4095 ∧ 4094 < (base.setFldOf (rPD_DROOP_MIN 6) 0 12 4095).fldOf (rPD_DROOP_MIN 6) 0 12 ∧
    (∀ k ∈ [6, 8, 9, 10], base.flagOf rPD_STATUS k = false ∧ (base.setFlagOf rPD_STATUS k true).flagOf rPD_STATUS k = true) := by
  decide +kernel

/-- The machine whose queue pair 63 is enabled in host memory, or in HOST's own memory, with four entries in each ring; the device serves it. -/
def served (loc : Bool) : Mach :=
  ((base.setRegN (rHS_Q_CFG 63) (1 + 48 + 196608 + 2 * b2n loc)).setFlagOf rEF_START 6 true)

/-- The machine while a command of an opcode runs in that queue pair. -/
def working (op : Nat) (begun : Bool) (wait : Nat) (cpl : Option Cpl) : Mach :=
  withCmds (served false) [⟨63, 1, op, false, begun, wait, cpl, [], 0, 0⟩]

/-- HostEvents: doorbells to a pair that is off the host's path, not accessed as a word, resident, off and open, at the ring's last entry and past it; a fetch
from host memory, from HOST's memory, one whose read fails, of a known and of an unknown opcode, and none; ROM recovery. -/
theorem test_meets_doorbells :
    isOn base 17 = true ∧ isOn (domains base [17] 2) 17 = false ∧ isResident { base with hs := { base.hs with resident := 2 ^ 63 } } 63 = true ∧
    isResident base 63 = false ∧ qEnabled base 63 = false ∧
    (∀ loc ∈ [true, false], isOn (served loc) 17 = true ∧ isResident (served loc) 63 = false ∧ qEnabled (served loc) 63 = true ∧ sqDepth (served loc) 63 = 4 ∧
      cqDepth (served loc) 63 = 4 ∧ (served loc).flagOf (rHS_Q_CFG 63) 1 = loc ∧
      (let m := setQueue (served loc) 63 { Queue.init with tail := 3 }
       qEnabled m 63 = true ∧ serving m 63 = true ∧ inD3 m = false ∧ m.fldOf (rHS_Q_STATUS 63) 0 12 ≠ (queueOf m 63).tail ∧ outstanding m 63 < 64 ∧
       outstanding m 63 < cqFree m 63)) ∧
    sqDepth (served true) 63 ≤ (4#32 : Word).toNat ∧ (3#32 : Word).toNat < sqDepth (served true) 63 ∧
    inRecovery ((served false).setFlagOf rEF_START 4 true) = true ∧ (served false).fldOf (rHS_Q_STATUS 63) 0 12 = (queueOf (served false) 63).tail ∧
    opcodes.contains (byteFld (List.replicate 64 0) 0 1) = true ∧ opcodes.contains (byteFld (List.replicate 64 0xFF) 0 1) = false := by
  decide +kernel

/-- HostEvents: a command that has not begun, of a known and of an unknown opcode, one that waits, one held while
the flash is off, and one that posts its completion or loses it; a vector that waits for its time; the links; a link that serves what is reserved and one that does not. -/
theorem test_meets_completions :
    findCmd base 63 1 = none ∧
    (∀ op ∈ [0x2D, 0xFF], (findCmd (working op false 0 none) 63 1).map (fun c => (c.op, c.begun)) = some (op, false)) ∧ opcodes.contains 0x2D = true ∧
    opcodes.contains 0xFF = false ∧
    (∀ w ∈ [0, 1], ∀ st ∈ [0, 0x0F02], (findCmd (working 0x2D true w (some ⟨63, 1, 0x2D, st, 0, 0, 0⟩)) 63 1).map (fun c => (c.begun, c.wait, c.cpl)) =
      some (true, w, some ⟨63, 1, 0x2D, st, 0, 0, 0⟩)) ∧
    (let c : RunCmd := ⟨63, 1, 0x2D, false, true, 0, none, [], 0, 0⟩
     cmdHeld (domains (served false) [16] 2) c ⟨63, 1, 0x2D, 0, 0, 0, 0⟩ = true ∧ cmdHeld (domains (served false) [16] 2) c ⟨63, 1, 0x2D, 0x0F02, 0, 0, 0⟩ = false ∧
     cmdHeld (domains (served false) [15, 16] 0) c ⟨63, 1, 0x2D, 0, 0, 0, 0⟩ = false) ∧
    findCmd (served false) 63 1 = none ∧ qEnabled (served false) 63 = true ∧
    (served false).flagOf (rHS_Q_CFG 63) 1 = false ∧ isResident (served false) 63 = false ∧ isOn (served false) 17 = true ∧ inD3 (served false) = false ∧
    (queueOf base 63).unsig = 0 ∧ (queueOf (setQueue base 63 { Queue.init with unsig := 1 }) 63).unsig ≠ 0 ∧
    (base.setFldOf (rHS_Q_IRQ 63) 8 16 65535).fldOf (rHS_Q_IRQ 63) 8 16 ≠ 0 ∧ isQspi base = false ∧ isQspi qspi = true ∧
    31 * linkRate 0 * 1 / 320 < 31 ∧
    31 * linkRate 0 * 1 / 320 < resSum (base.setFldOf (rCR_RES 63 1) 0 16 65535) 1 ∧ resSum base 1 ≤ 31 * linkRate 0 * 1 / 320 ∧
    resSum base 2 ≤ 31 * linkRate 0 * 1 / 320 := by
  decide +kernel

/-- The machine whose port 3 is in a state (0 DOWN, 1 TRAIN, 2 ACTIVE, 3 SLEEP), enabled, with what `f` makes of the port. -/
def portIn (st : Nat) (f : ChPort → ChPort) : Mach :=
  setPort ((base.setFldOf (rCH_PORT_STATUS 3) 0 2 st).setFlagOf (rCH_PORT_CFG 3) 0 true) 3 (f ChPort.init)

/-- The first flit to a port, with the check sum of its 72 bytes. -/
def flit0 : List Byte := List.replicate 72 0 ++ leBytes 4 (crc32 (List.replicate 72 0)) ++ List.replicate 4 0

/-- FabricPortEvents: a port that is ACTIVE and one that is not; a good flit, one with a wrong check sum, one out of order; an ACK with and without NAK;
flits to resend for the first and for the ninth time; training that ends, goes on and times out for the eighth time. -/
theorem test_meets_ports :
    portState base 3 = 0 ∧ portState (portIn 2 id) 3 = 2 ∧
    (byteFld flit0 72 4 = crc32 (flit0.take 72) ∧ flit0.length = 80 ∧ byteFld flit0 76 1 = (port (portIn 2 id) 3).exp ∧
      byteFld flit0 76 1 ≠ (port (portIn 2 (fun c => { c with exp := 255 })) 3).exp ∧
      byteFld (List.replicate 80 0) 72 4 ≠ crc32 ((List.replicate 80 0).take 72) ∧ (port (portIn 2 id) 3).nakd = false ∧
      (port (portIn 2 (fun c => { c with nakd := true })) 3).nakd = true) ∧
    bit 0x10000 16 = true ∧ bit 0xFFFF 16 = false ∧ (port (portIn 2 id) 3).sent = [] ∧
    (∀ n ∈ [7, 8], (port (portIn 2 (fun c => { c with sent := [(flit0, n)] })) 3).sent = [(flit0, n)]) ∧
    [(flit0, 8)].any (fun e => decide (8 ≤ e.2)) = true ∧ [(flit0, 7)].any (fun e => decide (8 ≤ e.2)) = false ∧ 3 < base.ch.ports.length ∧
    (∀ st ∈ [1, 3], portRuns (portIn st id) 3 = true ∧ portState (portIn st id) 3 = st ∧ (port (portIn st id) 3).trainAt ≤ base.clk.now) ∧
    portRuns (domains base [21] 2) 3 = false ∧
    (∀ f ∈ [6, 7], portState (portIn 1 (fun c => { c with fails := f })) 3 = 1 ∧ (port (portIn 1 (fun c => { c with fails := f })) 3).fails = f ∧
      (port (portIn 1 (fun c => { c with fails := f })) 3).failRaised = false) ∧
    (port (portIn 1 (fun c => { c with fails := 7, failRaised := true })) 3).failRaised = true := by
  decide +kernel

/-- A message that was received whole from port 3. -/
def msg (typ code : Nat) (data : List Byte) : Msg := ⟨3, typ, 0, 1, code, 0, 0, false, false, 1, data, 0, 0⟩

/-- The machine with a message, and what `f` makes of its fabric. -/
def received (x : Msg) (f : Fab → Fab) : Mach := { base with ch := f { base.ch with inbox := [x] } }

/-- The message is taken out, and nothing else changes. -/
def takes (x : Msg) (p : Msg → Bool) (f : Fab → Fab) : Bool :=
  match takeMsg (received x f) p with
  | some (y, m) => decide (y = x ∧ m.ch = { (received x f).ch with inbox := [] })
  | none => false

/-- FabricMessages: a message of each kind, and none; a SYNC answer that was asked for and one that was not; a TOPO that is stale; an ASSIGN that is old,
and one that is not; a table that is kept; the first TOPO in 256 ticks, and one earlier. -/
theorem test_meets_messages :
    (∀ code ∈ [1, 2, 3, 4, 8, 9, 0x10, 0x11, 0x12], takes (msg 0 code []) (ctrlMsg code) id = true ∧ (takeMsg base (ctrlMsg code)).isNone = true) ∧
    (∀ typ ∈ [2, 3, 4], takes (msg typ 0 []) (fun x => x.typ == typ) id = true ∧ (takeMsg base (fun x => x.typ == typ)).isNone = true) ∧
    (port base 3).syncT1 = none ∧ (port (setPort base 3 { ChPort.init with syncT1 := some 5 }) 3).syncT1 = some 5 ∧
    (let t := readTopo (leBytes 16 7 ++ leBytes 2 9)
     (topoOf { base with ch := { base.ch with topos := [t] } } t.uid).any (fun o => !newer16 t.seq o.seq) = true) ∧
    (let a := readAssign (leBytes 16 7 ++ leBytes 2 9)
     (a.leader = 7 ∧ newer16 a.gen 9 = false) ∧ newer16 a.gen 8 = true) ∧
    base.ch.oldUntil = none ∧ ({ base with ch := { base.ch with oldUntil := some 100 } } : Mach).ch.oldUntil = some 100 ∧
    (let past := fun (n : Nat) => (({ base with clk := { base.clk with tick := n } } : Mach).clk.tick + 2 ^ 48 - base.ch.topoTick) % 2 ^ 48
     past 255 < 256 ∧ 256 ≤ past 256) ∧
    (let past := fun (n : Nat) => (fabricTick { base with clk := { base.clk with tick := n } } + 2 ^ 48 - 0) % 2 ^ 48
     past 0 = 0 ∧ past 1 = 1 ∧ past 2 = 2) := by
  decide +kernel

/-- FabricMessages: some UID is not this node's, so that a TOPO of it that the node does not hold is not stale, and another node may lead. -/
theorem test_meets_another_uid :
    ∃ u ∈ [1, 2], (readTopo (leBytes 16 u)).uid ≠ selfUid ∧ topoOf base (readTopo (leBytes 16 u)).uid = none ∧
      isLeader { base with ch := { base.ch with leader := u } } = false := by
  by_cases h : selfUid = 1
  · refine ⟨2, by decide, ?_, by decide +kernel, ?_⟩
    · rw [h]; decide +kernel
    · simp [isLeader, leaderUid, h]
  · refine ⟨1, by decide, ?_, by decide +kernel, ?_⟩
    · have : (readTopo (leBytes 16 1)).uid = 1 := by decide +kernel
      rw [this]; exact fun e => h e.symm
    · simp only [isLeader, leaderUid, Nat.one_ne_zero, if_false, beq_eq_false_iff_ne]
      exact fun e => h e.symm

/-- The machine that holds its own TOPO and a neighbour's, each naming the other, and the digest of the last ASSIGN. -/
def twoNodes (u : Nat) (d : List Byte) : Mach :=
  { base with ch := { base.ch with topos := [⟨selfUid, 0, [u], []⟩, ⟨u, 0, [selfUid], []⟩], lastDigest := d } }

/-- Those two nodes are connected. -/
theorem two_nodes_connected (u : Nat) (hu : u ≠ selfUid) : 1 < (connectedSet (twoNodes u [])).length := by
  have ht : (twoNodes u []).ch.topos = [⟨selfUid, 0, [u], []⟩, ⟨u, 0, [selfUid], []⟩] := rfl
  have h1 : linkedTo (twoNodes u []) selfUid u = true := by simp [linkedTo, topoOf, ht, hu.symm]
  have h3 : linkedTo (twoNodes u []) selfUid selfUid = false := by simp [linkedTo, topoOf, ht, hu.symm]
  have h4 : linkedTo (twoNodes u []) u u = false := by simp [linkedTo, topoOf, ht, hu, hu.symm]
  have h6 : [u].eraseDups = [u] := rfl
  have h5 : distFrom (twoNodes u []) selfUid = [(selfUid, 0), (u, 1)] := by simp [distFrom, reach, ht, h1, h3, h4, h6, hu.symm]
  simp only [connectedSet, h5, sortOn, List.map_cons, List.map_nil, List.foldl_cons, List.foldl_nil, insertOn]
  split <;> simp

/-- FabricMessages: a node alone is its own leader; with a neighbour its connected set has two nodes; and the digest of the last ASSIGN is the same or
another. -/
theorem test_meets_leader :
    isLeader base = true ∧ (connectedSet base).length ≤ 1 ∧
    (∃ u, isLeader (twoNodes u []) = true ∧ 1 < (connectedSet (twoNodes u [])).length) ∧
    (∀ u, contentDigest (twoNodes u (contentDigest (twoNodes u []))) = (twoNodes u (contentDigest (twoNodes u []))).ch.lastDigest) ∧
    (∀ u, contentDigest (twoNodes u (0 :: contentDigest (twoNodes u []))) ≠ (twoNodes u (0 :: contentDigest (twoNodes u []))).ch.lastDigest) := by
  refine ⟨?_, ?_, ?_, fun u => rfl, fun u => ?_⟩
  · simp [isLeader, leaderUid, show base.ch.leader = 0 from rfl]
  · rfl
  · obtain ⟨u, hu⟩ : ∃ u, u ≠ selfUid := ⟨selfUid + 1, by omega⟩
    refine ⟨u, ?_, ?_⟩
    · simp [isLeader, leaderUid, show (twoNodes u []).ch.leader = 0 from rfl]
    · exact two_nodes_connected u hu
  · show contentDigest (twoNodes u []) ≠ 0 :: contentDigest (twoNodes u [])
    intro h
    have := congrArg List.length h
    simp at this

/-- FabricMessages: a SEND transfer whose record waits for it; partials that this node is home of, from a shard and from none; a cut-off that is due; a
result that is new, and one that is known. -/
theorem test_meets_reductions :
    (let w : WaitRec := ⟨1, 1, 0, 5, parityTick base 0, 254, descriptor 0 12 0 0 64 1 1 1 0 0 0 33554431, none⟩
     let m := received (msg 1 5 []) (fun c => { c with recs := [w] })
     sendRec m (msg 1 5 []) = some w ∧ ((tdesc w.dst).berths 0 &&& heldBerths m) = 0 ∧ (sendRec base (msg 1 5 [])).isNone = true) ∧
    (let j := fun (home shards : Nat) => (⟨15, 1, true, 1, 38400, [⟨5, home, shards⟩], [], false, none, [], 0⟩ : Job)
     let m := fun home shards => received (msg 2 5 []) (fun c => { c with jobs := [j home shards] })
     (∀ h ∈ [0, 1], ∀ k ∈ [0, 1], jobOf (m h k) 1 = some (j h k) ∧ (j h k).group 5 = some ⟨5, h, k⟩) ∧ selfId base = 0 ∧ bit 1 0 = true ∧ bit 0 0 = false ∧
     jobOf base 1 = none ∧ (outcomeOf base 1 5 0).isSome = false ∧
     (outcomeOf { base with ch := { base.ch with outs := [⟨1, 0, 5, none⟩] } } 1 5 0).isSome = true ∧ cutoffDue base = none ∧
     (cutoffDue { m 0 1 with ch := { (m 0 1).ch with parts := [⟨1, 5, 0, none, [(0, [], 7)], false, false, none⟩] } }).map (·.2) = some 38408) := by
  decide +kernel

/-- The machine whose start is of a kind: 0 a power-on start, 1 after a brown-out reset, 2 a recovery restart. -/
def starts (k : Nat) : Mach := { base with pm := { base.pm with start := some k } }

/-- ResetAndStart: each kind of start, and none; DRAM that trains and DRAM that does not; boundary scan, and none; bank A with and without its supply; a register
that the keep-alive supply holds, and one that it does not. -/
theorem test_meets_start :
    base.pm.start = none ∧ (∀ k ∈ [0, 1, 2], (starts k).pm.start = some k) ∧ (trainOutcome .cachedThenFull).2.2 = true ∧
    (trainOutcome (.failed true)).2.2 = false ∧ base.hm.extest = false ∧ base.pd.vioA = true ∧
    ({ base with hm := { base.hm with extest := true } } : Mach).hm.extest = true ∧ ({ base with pd := { base.pd with vioA := false } } : Mach).pd.vioA = false ∧
    rTK_PERIOD ∉ keptRegs ∧ keptRegs ≠ [] := by
  decide +kernel

/-! ## The block -/

/-- TimePassesWhileIdle: an empty queue, with the reference running and stopped, after an AON cycle of 12 and of 13. -/
theorem test_meets_idle :
    (mk base).pending = [] ∧ (mk base).mach.clk.refStopped = false ∧ (mk stopped).mach.clk.refStopped = true ∧ (mk stopped).mach.clk.coarse13 = false ∧
    (mk { stopped with clk := { stopped.clk with coarse13 := true } }).mach.clk.coarse13 = true := by
  decide +kernel

/-- A record of a fault of tenant 63. -/
def record63 : FaultRec := { FaultRec.zero with code := 0x0F04, tenant := 63 }

/-- The machine whose rings of tenant 63 and of the device hold `n` unread records, all alike. -/
def rings (n dn : Nat) (r : FaultRec) : Mach :=
  let m := (base.setFldOf (rEF_HEAD 63) 0 16 n).setFldOf rEF_DEV_HEAD 0 16 dn
  { m with ef := { m.ef with rings := (List.range 64).map (fun k => (64 * 63 + k, r)), dev := (List.range 1024).map (fun k => (k, r)) } }

/-- FaultRecords: a record that repeats the newest unread one, one that meets a full ring, and one that is written, in both rings; tails that leave as
much unread as fits, and one more; HM on. -/
theorem test_meets_records_of_faults :
    (let newest := fun (n : Nat) (r : FaultRec) => tabGet (rings n n r).ef.rings (64 * 63 + (n + 65535) % 64) FaultRec.zero
     let dnewest := fun (n : Nat) (r : FaultRec) => tabGet (rings n n r).ef.dev ((n + 65535) % 1024) FaultRec.zero
     let unread := fun (n : Nat) => ((rings n n record63).fldOf (rEF_HEAD 63) 0 16 + 2 ^ 16 - (rings n n record63).fldOf (rEF_TAIL 63) 0 16) % 2 ^ 16
     isOn (rings 1 1 record63) 26 = true ∧ unread 1 = 1 ∧ unread 64 = 64 ∧ unread 0 = 0 ∧ sameRec (newest 1 (hideRec 63 record63)) (hideRec 63 record63) = true ∧
     sameRec (newest 64 FaultRec.zero) (hideRec 63 record63) = false ∧ sameRec (dnewest 1 record63) record63 = true ∧
     sameRec (dnewest 1024 FaultRec.zero) record63 = false ∧
     ((rings 0 1024 record63).fldOf rEF_DEV_HEAD 0 16 + 2 ^ 16 - (rings 0 1024 record63).fldOf rEF_DEV_TAIL 0 16) % 2 ^ 16 = 1024) ∧
    writeOkB (mk (rings 64 1024 record63)).taken .host (rEF_TAIL 63) 0 = true ∧ writeOkB (mk (rings 64 1024 record63)).taken .host rEF_DEV_TAIL 0 = true ∧
    (let left := fun (n : Nat) (v : Word) => ((rings n n record63).fldOf (rEF_HEAD 63) 0 16 + 65536 - v.toNat % 65536) % 65536
     left 64 0 = 64 ∧ 64 < left 64 0xFFFF) ∧
    (let left := fun (n : Nat) (v : Word) => ((rings n n record63).fldOf rEF_DEV_HEAD 0 16 + 65536 - v.toNat % 65536) % 65536
     left 1024 0 = 1024 ∧ 1024 < left 1024 0xFFFF) := by
  decide +kernel

/-- TransitionTimeoutAbandons: a transition of the last berth, whose domain is in the state that it leaves. -/
theorem test_meets_timeout :
    (withTrans (domains base [95] 2) [moving 95 2 0 100 false]).pm.trans.find? (·.dom == 95) = some (moving 95 2 0 100 false) ∧
    domSt (withTrans (domains base [95] 2) [moving 95 2 0 100 false]) 95 = 2 := by
  decide +kernel

/-- SvnOnlyRises, EveryStepSettles, EveryStepKeepsTheClocks: a step answers a next state, from a state that is kept, whatever waits in front. -/
theorem test_meets_steps :
    Kept (mk base) ∧ Settled (mk base) ∧ (∃ t, step (mk base) = .next t) ∧
    (∃ t, step { mk base with pending := [.referenceStop] } = .next t) ∧
    ([Instr.referenceStop].head? ≠ some .brownOutReset ∧ [Instr.referenceStop].head? ≠ some .extestExit) := by
  refine ⟨⟨by decide +kernel, rfl⟩, rfl, ⟨_, rfl⟩, ⟨_, rfl⟩, by decide⟩

end Sys2Proof.Tests
end

section
/-!
PROOFS. Accesses of one register word over a path, and the rows of the table that are such accesses.
-/
namespace Sys2Proof.Machine

/-- An address of BAR0 at which an aligned access meets a register word, and no memory of the register map (R10, R54). -/
abbrev RegWord (a : Nat) : Prop := a % 4 = 0 ∧ a + 4 ≤ bar0 ∧ windowOf a = .none

/-- The bytes of a word are read back as the word. -/
theorem byteFld_leBytes_word (v : Nat) : byteFld (leBytes 4 v) 0 4 = v % 2 ^ 32 := by
  unfold byteFld
  rw [List.drop_zero, List.take_of_length_le (by simp), leNat_leBytes]

/-- A read of a register word reads that register alone (R10). -/
theorem busRead_word {a : Nat} (ha : RegWord a) (m : Mach) (key ctx : Nat) :
    busRead m key ctx a 4 = ((readReg m key ctx a).1, leBytes 4 (readReg m key ctx a).2) := by
  obtain ⟨h4, hb, hw⟩ := ha
  have hshape : ¬(4 = 0 ∨ 8 < 4 ∨ 8 < a % 8 + 4 ∨ bar0 < a + 4) := by omega
  unfold busRead
  rw [if_neg hshape]
  simp [h4, readWord, hw, slice, List.take_of_length_le]

/-- A read of a register word over a path sends its four bytes back (R550). -/
theorem pathRead_word {a : Nat} (ha : RegWord a) {m : Mach} {p : Path} {ctx : Nat} (hc : pathCtx m p = some ctx) :
    pathRead m p a 4 = (readReg m (pathKey p) ctx a).1.emit (.readData (leBytes 4 (readReg m (pathKey p) ctx a).2)) := by
  simp only [pathRead, hc, busRead_word ha]

/-- A write of one word over a path writes the register there (R10). -/
theorem pathWord_word {a : Nat} (ha : RegWord a) (f : Fuses) {m : Mach} {p : Path} {ctx : Nat} (hc : pathCtx m p = some ctx) (v : Word) :
    pathWord f m p a v = writeReg f m (pathKey p) ctx a v := by
  obtain ⟨h4, hb, hw⟩ := ha
  have hshape : ((leBytes 4 v.toNat).length = 4 ∧ a % 4 = 0 ∨ (leBytes 4 v.toNat).length = 8 ∧ a % 8 = 0) ∧
      a + (leBytes 4 v.toNat).length ≤ bar0 := by simp [h4, hb]
  have hv : BitVec.ofNat 32 (byteFld (leBytes 4 v.toNat) 0 4) = v := by
    rw [byteFld_leBytes_word, Nat.mod_eq_of_lt v.isLt, BitVec.ofNat_toNat, BitVec.setWidth_eq]
  unfold pathWord pathWrite
  simp only [hc]
  unfold busWrite
  rw [if_pos hshape]
  simp [hv, writeWord, hw]

/-- An access over a path without a context does nothing (R550). -/
theorem pathRead_none {m : Mach} {p : Path} (hc : pathCtx m p = none) (a n : Nat) : pathRead m p a n = m := by
  simp only [pathRead, hc]

theorem pathWord_none {m : Mach} {p : Path} (hc : pathCtx m p = none) (f : Fuses) (a : Nat) (v : Word) : pathWord f m p a v = m := by
  simp only [pathWord, pathWrite, hc]

/-! ## Rows of the table -/

/-- A row of an effect on the machine leaves what the effect leaves. -/
theorem leaves_effect {i : Instr} {s : State} {f : Mach → Mach} {M : Mach} (hi : exec i s = s.effect f) (hM : f s.taken = M) : Leaves i s M := by
  rw [Leaves, hi, ← hM]; rfl

/-- The same of a row that reads the fuses. -/
theorem leaves_effectF {i : Instr} {s : State} {f : Fuses → Mach → Mach} {M : Mach} (hi : exec i s = s.effectF f)
    (hM : f s.fuses s.taken = M) : Leaves i s M := by
  rw [Leaves, hi, ← hM]; rfl

/-- The rows of reads with side effects are reads of the registers that `readOf` names. -/
theorem exec_readOf {i : Instr} {p : Path} {a : Nat} (h : readOf i = some (p, a)) (s : State) : exec i s = readRow p a s := by
  unfold readOf at h
  split at h <;> cases h <;> rfl

/-- The rows of writes that act are writes of the registers that `writeOf` names. -/
theorem exec_writeOf {i : Instr} {p : Path} {a : Nat} {v : Word} (h : writeOf i = some (p, a, v)) (s : State) :
    exec i s = writeRow p a v s := by
  unfold writeOf at h
  split at h <;> cases h <;> rfl

theorem leaves_readRow {i : Instr} {s : State} {p : Path} {a : Nat} {M : Mach} (hi : exec i s = readRow p a s)
    (hM : pathRead s.taken p a 4 = M) : Leaves i s M := by
  rw [Leaves, hi, ← hM]; rfl

theorem leaves_writeRow {i : Instr} {s : State} {p : Path} {a : Nat} {v : Word} {M : Mach} (hi : exec i s = writeRow p a v s)
    (hM : pathWord s.fuses s.taken p a v = M) : Leaves i s M := by
  rw [Leaves, hi, ← hM]; rfl

end Sys2Proof.Machine
end

section
/-!
PROOFS. Reads of registers (R10, R13, R551): which are denied, what each register with a side effect reads, and what a read of it leaves.
-/
namespace Sys2Proof.Machine

/-- A read of a register whose domain is off is counted with cause 1 and reads zero (R664). -/
theorem readReg_off {m : Mach} {a i j : Nat} {r : RegRow} (hf : regFind a = some (r, i, j)) (ho : regOn m r = false) (key ctx : Nat) :
    readReg m key ctx a = (accessError m 1, 0) := by
  simp only [readReg, hf, ho, Bool.not_false, if_true]

/-- A read that no permission covers reads zero without an effect (R551). -/
theorem readReg_denied {m : Mach} {a i j ctx : Nat} {r : RegRow} (hf : regFind a = some (r, i, j)) (ho : regOn m r = true)
    (hp : permits m r.rd r i a ctx = false) (key : Nat) : readReg m key ctx a = (m, 0) := by
  simp [readReg, hf, ho, hp]

/-- The address is a register's, the first of `n` words and of index `i` in its row, in block `b`, and can be read. -/
abbrev ReadsAs (a i n b : Nat) : Prop :=
  RegWord a ∧ blockOf a = b ∧ (regFind a).any (fun r => r.2.1 == i && r.1.wn == n && r.1.wk == 0 && r.1.acc != .wo) = true

/-- A permitted read gives the register's value, captures the words above it, and has the read's effect (R10–R13). -/
theorem pathRead_ok {m : Mach} {p : Path} {a i n b : Nat} (ha : ReadsAs a i n b) (ok : ReadOk m p a) :
    pathRead m p a 4 = (readEffect (captureWords m (pathKey p) a n) a i).emit (.readData (leBytes 4 (regVal m a))) := by
  obtain ⟨hw, -, hrow⟩ := ha
  obtain ⟨ctx, r, k, j, hc, hf, hon, hp⟩ := ok
  simp only [hf, Option.any_some, Bool.and_eq_true, beq_iff_eq, bne_iff_ne, ne_eq] at hrow
  obtain ⟨⟨⟨rfl, rfl⟩, hk⟩, hacc⟩ := hrow
  rw [pathRead_word hw hc]
  simp [readReg, hf, hon, hp, hk, hacc]

theorem regVal_of_shown_none {m : Mach} {a : Nat} (h : shown m a = none) : regVal m a = m.regN a := by
  rw [regVal, h]; exact Nat.mod_eq_of_lt (m.reg a).isLt

theorem regVal_of_shown {m : Mach} {a v : Nat} (h : shown m a = some v) : regVal m a = v % 2 ^ 32 := by rw [regVal, h]; rfl

theorem idxOf_row {s n i : Nat} (b : Nat) (hs : 0 < s) (hi : i < n) : idxOf (b + s * i) b n s = some i := by
  simp [idxOf, Nat.mul_div_cancel_left i hs, hi]


/-- The blocks that hold none of the registers that show what a part of the device holds. -/
theorem shown_of_block {m : Mach} {a b : Nat} (hb : blockOf a = b) (h : b ∈ [10, 11, 13, 19]) : shown m a = none := by
  subst hb
  simp only [List.mem_cons, List.not_mem_nil, or_false] at h
  rcases h with h | h | h | h <;> simp only [shown, h]

/-! ### The rows' registers -/

theorem readsAs_dmCeCount : ReadsAs rDM_CE_COUNT 0 1 7 := by decide
theorem readsAs_lhCapMissed : ∀ c : Fin 8, ReadsAs (rLH_CAP_MISSED c.val) c.val 1 9 := by decide
theorem readsAs_auPbUnderrun : ∀ c : Fin 8, ReadsAs (rAU_PB_UNDERRUN c.val) c.val 1 10 := by decide
theorem readsAs_cmRxErr : ∀ r : Fin 2, ReadsAs (rCM_RX_ERR r.val) 0 1 11 := by decide
theorem readsAs_snStreamOvr : ∀ n : Fin 48, ReadsAs (rSN_STREAM_OVR n.val) n.val 1 12 := by decide
theorem readsAs_snStreamMissed : ∀ n : Fin 48, ReadsAs (rSN_STREAM_MISSED n.val) n.val 1 12 := by decide
theorem readsAs_fuOutMissed : ReadsAs rFU_OUT_MISSED 0 1 13 := by decide
theorem readsAs_fuSnsLate : ∀ e : Fin 16, ReadsAs (rFU_SNS_LATE e.val) e.val 1 13 := by decide
theorem readsAs_chDiscard : ReadsAs rCH_DISCARD 0 1 17 := by decide
theorem readsAs_chPortErr : ∀ k : Fin 4, ReadsAs (rCH_PORT_ERR k.val) 0 1 17 := by decide
theorem readsAs_hsAccessErr : ReadsAs rHS_ACCESS_ERR 0 1 0 := by decide
theorem readsAs_hsQCount : ∀ t : Fin 64, ReadsAs (rHS_Q_COUNT t.val) t.val 1 0 := by decide
theorem readsAs_efLost : ∀ t : Fin 64, ReadsAs (rEF_LOST t.val) t.val 1 19 := by decide
theorem readsAs_efDevLost : ReadsAs rEF_DEV_LOST 0 1 19 := by decide
theorem readsAs_pdDroopMin : ∀ r : Fin 7, ReadsAs (rPD_DROOP_MIN r.val) r.val 4 15 := by decide
theorem readsAs_pdStretchCount : ReadsAs rPD_STRETCH_COUNT 0 1 15 := by decide
theorem readsAs_lhEvtPopLo : ReadsAs rLH_EVT_POP_LO 0 2 9 := by decide
theorem readsAs_tkTickLo : ReadsAs rTK_TICK_LO 0 2 1 := by decide
theorem readsAs_snTimeLo : ReadsAs rSN_TIME_LO 0 2 12 := by decide
theorem readsAs_lhRtcLo : ReadsAs rLH_RTC_LO 0 2 9 := by decide

/-- Every row of reads with side effects reads a register word. -/
theorem readOf_regWord {i : Instr} {p : Path} {a : Nat} (h : readOf i = some (p, a)) : RegWord a := by
  unfold readOf at h
  split at h <;> cases h
  exacts [readsAs_dmCeCount.1, (readsAs_lhCapMissed _).1, (readsAs_auPbUnderrun _).1, (readsAs_cmRxErr _).1, (readsAs_snStreamOvr _).1,
    (readsAs_snStreamMissed _).1, readsAs_fuOutMissed.1, (readsAs_fuSnsLate _).1, readsAs_chDiscard.1, (readsAs_chPortErr _).1,
    readsAs_hsAccessErr.1, (readsAs_hsQCount _).1, (readsAs_efLost _).1, readsAs_efDevLost.1, (readsAs_pdDroopMin _).1,
    readsAs_pdStretchCount.1, readsAs_lhEvtPopLo.1]

/-! ### What the rows' registers read, and what a read of them leaves -/

section
variable (m : Mach)

theorem reads_lhCapMissed (c : Fin 8) : regVal m (rLH_CAP_MISSED c.val) = m.regN (rLH_CAP_MISSED c.val) ∧
    readEffect m (rLH_CAP_MISSED c.val) c.val =
      { m.setRegN (rLH_CAP_MISSED c.val) 0 with lh := { m.lh with mirRaised := clearBit m.lh.mirRaised c.val } } := by
  have hb := (readsAs_lhCapMissed c).2.1
  constructor
  · apply regVal_of_shown_none
    simp only [shown, hb]
    rw [if_neg (by decide +revert), if_neg (by decide +revert)]
  · have hi : idxOf (rLH_CAP_MISSED c.val) (rLH_CAP_MISSED 0) 8 16 = some c.val := idxOf_row (rLH_CAP_MISSED 0) (by decide) c.isLt
    simp only [readEffect, hb, hi]
    rw [if_neg (by decide +revert)]
    rfl

theorem reads_auPbUnderrun (c : Fin 8) : regVal m (rAU_PB_UNDERRUN c.val) = m.regN (rAU_PB_UNDERRUN c.val) ∧
    readEffect m (rAU_PB_UNDERRUN c.val) c.val =
      { m.setRegN (rAU_PB_UNDERRUN c.val) 0 with lh := { m.lh with undRaised := clearBit m.lh.undRaised c.val } } := by
  have hb := (readsAs_auPbUnderrun c).2.1
  have hi : idxOf (rAU_PB_UNDERRUN c.val) (rAU_PB_UNDERRUN 0) 8 32 = some c.val := idxOf_row (rAU_PB_UNDERRUN 0) (by decide) c.isLt
  refine ⟨regVal_of_shown_none (shown_of_block hb (by decide)), ?_⟩
  simp only [readEffect, hb, hi]
  rfl

theorem reads_cmRxErr (r : Fin 2) : regVal m (rCM_RX_ERR r.val) = m.regN (rCM_RX_ERR r.val) ∧
    readEffect m (rCM_RX_ERR r.val) 0 = m.setRegN (rCM_RX_ERR r.val) 0 := by
  have hb := (readsAs_cmRxErr r).2.1
  refine ⟨regVal_of_shown_none (shown_of_block hb (by decide)), ?_⟩
  simp only [readEffect, hb]
  rw [if_pos (by decide +revert)]

/-- The stream contexts' counts show no part of the device. -/
theorem regVal_snStream (a : Nat) (hb : blockOf a = 12) (ha : a ∉ [rSN_TIME_LO, rSN_TIME_HI, rSN_STATUS]) : regVal m a = m.regN a := by
  simp only [List.mem_cons, List.not_mem_nil, or_false, not_or] at ha
  apply regVal_of_shown_none
  simp [shown, hb, ha]

theorem reads_snStreamOvr (n : Fin 48) : regVal m (rSN_STREAM_OVR n.val) = m.regN (rSN_STREAM_OVR n.val) ∧
    readEffect m (rSN_STREAM_OVR n.val) n.val =
      setSctx (m.setRegN (rSN_STREAM_OVR n.val) 0) n.val { sctx m n.val with ovrRaised := false } := by
  have hb := (readsAs_snStreamOvr n).2.1
  have hi : idxOf (rSN_STREAM_OVR n.val) (rSN_STREAM_OVR 0) 48 32 = some n.val := idxOf_row (rSN_STREAM_OVR 0) (by decide) n.isLt
  refine ⟨regVal_snStream m _ hb (by decide +revert), ?_⟩
  simp only [readEffect, hb, hi]
  rfl

theorem reads_snStreamMissed (n : Fin 48) : regVal m (rSN_STREAM_MISSED n.val) = m.regN (rSN_STREAM_MISSED n.val) ∧
    readEffect m (rSN_STREAM_MISSED n.val) n.val =
      setSctx (m.setRegN (rSN_STREAM_MISSED n.val) 0) n.val { sctx m n.val with missRaised := false } := by
  have hb := (readsAs_snStreamMissed n).2.1
  have hi : idxOf (rSN_STREAM_MISSED n.val) (rSN_STREAM_MISSED 0) 48 32 = some n.val := idxOf_row (rSN_STREAM_MISSED 0) (by decide) n.isLt
  have ho : idxOf (rSN_STREAM_MISSED n.val) (rSN_STREAM_OVR 0) 48 32 = none := by decide +revert
  refine ⟨regVal_snStream m _ hb (by decide +revert), ?_⟩
  simp only [readEffect, hb, hi, ho]
  rfl

theorem reads_fuSnsLate (e : Fin 16) : regVal m (rFU_SNS_LATE e.val) = m.regN (rFU_SNS_LATE e.val) ∧
    readEffect m (rFU_SNS_LATE e.val) e.val = m.setRegN (rFU_SNS_LATE e.val) 0 := by
  have hb := (readsAs_fuSnsLate e).2.1
  have hi : idxOf (rFU_SNS_LATE e.val) (rFU_SNS_LATE 0) 16 64 = some e.val := idxOf_row (rFU_SNS_LATE 0) (by decide) e.isLt
  refine ⟨regVal_of_shown_none (shown_of_block hb (by decide)), ?_⟩
  simp only [readEffect, hb, hi]
  rw [if_neg (by decide +revert)]
  rfl

theorem reads_chPortErr (k : Fin 4) : regVal m (rCH_PORT_ERR k.val) = m.regN (rCH_PORT_ERR k.val) ∧
    readEffect m (rCH_PORT_ERR k.val) 0 = m.setRegN (rCH_PORT_ERR k.val) 0 := by
  have hb := (readsAs_chPortErr k).2.1
  constructor
  · apply regVal_of_shown_none
    simp only [shown, hb]
    rw [if_neg (by decide +revert)]
  · have hi : idxOf (rCH_PORT_ERR k.val) (rCH_PORT_ERR 0) 4 16 = some k.val := idxOf_row (rCH_PORT_ERR 0) (by decide) k.isLt
    simp only [readEffect, hb, hi]
    rw [if_neg (by decide +revert)]
    rfl

theorem reads_efLost (t : Fin 64) : regVal m (rEF_LOST t.val) = m.regN (rEF_LOST t.val) ∧
    readEffect m (rEF_LOST t.val) t.val = m.setRegN (rEF_LOST t.val) 0 := by
  have hb := (readsAs_efLost t).2.1
  have hi : idxOf (rEF_LOST t.val) (rEF_LOST 0) 64 16 = some t.val := idxOf_row (rEF_LOST 0) (by decide) t.isLt
  refine ⟨regVal_of_shown_none (shown_of_block hb (by decide)), ?_⟩
  simp only [readEffect, hb, hi, Option.isSome_some, true_or, if_true]

theorem reads_hsQCount (t : Fin 64) :
    regVal m (rHS_Q_COUNT t.val) = (m.fldOf (rHS_Q_COUNT t.val) 16 16 * 65536 + outstanding m t.val) % 2 ^ 32 ∧
    readEffect m (rHS_Q_COUNT t.val) t.val =
      setQueue (m.setFldOf (rHS_Q_COUNT t.val) 16 16 0) t.val { queueOf m t.val with noticeRaised := false } := by
  have hb := (readsAs_hsQCount t).2.1
  have hi : idxOf (rHS_Q_COUNT t.val) (rHS_Q_COUNT 0) 64 64 = some t.val := idxOf_row (rHS_Q_COUNT 0) (by decide) t.isLt
  constructor
  · apply regVal_of_shown
    simp only [shown, hb, hi, Option.map_some]
  · simp only [readEffect, hb, hi]
    rw [if_neg (by decide +revert)]
    rfl

/-- A read of a droop minimum leaves the recorder's reset values, once its record is captured (R525). -/
theorem reads_pdDroopMin (r : Fin 7) (x : Mach) : regVal m (rPD_DROOP_MIN r.val) = m.regN (rPD_DROOP_MIN r.val) ∧
    readEffect x (rPD_DROOP_MIN r.val) r.val = (((x.setRegN (rPD_DROOP_MIN r.val) 0xFFF).setRegN (rPD_DROOP_MIN r.val + 4) 0).setRegN
      (rPD_DROOP_MIN r.val + 8) 0).setRegN (rPD_DROOP_MIN r.val + 12) 0 := by
  have hb := (readsAs_pdDroopMin r).2.1
  constructor
  · apply regVal_of_shown_none
    simp only [shown, hb]
    rw [if_neg (by decide +revert)]
  · have hi : idxOf (rPD_DROOP_MIN r.val) (rPD_DROOP_MIN 0) 7 16 = some r.val := idxOf_row (rPD_DROOP_MIN 0) (by decide) r.isLt
    simp only [readEffect, hb, hi]
    rw [if_neg (by decide +revert)]
    rfl

/-- An upper word captured for a path (R13). -/
def Mach.capture (key b v : Nat) : Mach := { m with shadow := tabSet m.shadow (key * wideSpan + b) (BitVec.ofNat 32 v) 0 }

theorem captureWords_two (key a : Nat) : captureWords m key a 2 = m.capture key (a + 4) (regVal m (a + 4)) := by
  simp [captureWords, Mach.capture, Nat.add_assoc]

theorem captureWords_four (key a : Nat) : captureWords m key a 4 =
    ((m.capture key (a + 4) (regVal m (a + 4))).capture key (a + 8) (regVal m (a + 8))).capture key (a + 12) (regVal m (a + 12)) := by
  simp [captureWords, Mach.capture, Nat.add_assoc, List.range_succ]

/-- The words above a droop minimum show no part of the device. -/
theorem regVal_pdDroop (r : Fin 7) (k : Fin 4) : regVal m (rPD_DROOP_MIN r.val + 4 * k.val) = m.regN (rPD_DROOP_MIN r.val + 4 * k.val) := by
  have hb : blockOf (rPD_DROOP_MIN r.val + 4 * k.val) = 15 := by decide +revert
  apply regVal_of_shown_none
  simp only [shown, hb]
  rw [if_neg (by decide +revert)]

/-- A read of a droop minimum captures its record, the three words above it (R525). -/
theorem captureWords_pdDroop (key : Nat) (r : Fin 7) :
    let d := rPD_DROOP_MIN r.val
    captureWords m key d 4 =
      ((m.capture key (d + 4) (m.regN (d + 4))).capture key (d + 8) (m.regN (d + 8))).capture key (d + 12) (m.regN (d + 12)) := by
  intro d
  rw [captureWords_four, show regVal m (d + 4) = _ from regVal_pdDroop m r 1, show regVal m (d + 8) = _ from regVal_pdDroop m r 2,
    show regVal m (d + 12) = _ from regVal_pdDroop m r 3]
  rfl

theorem regVal_word {a v k : Nat} (h : shown m a = some (wordOf v k)) : regVal m a = wordOf v k := by
  rw [regVal_of_shown h]; exact Nat.mod_eq_of_lt (Nat.mod_lt _ (by decide))

/-- A read of the low word of a 64-bit value that a part of the device holds captures its high word (R13). -/
theorem reads_wide {lo v : Nat} (key : Nat) (f : Mach → Mach) (h0 : shown m lo = some (wordOf v 0)) (h1 : shown m (lo + 4) = some (wordOf v 1))
    (he : ∀ x, readEffect x lo 0 = f x) :
    regVal m lo = wordOf v 0 ∧ readEffect (captureWords m key lo 2) lo 0 = f (m.capture key (lo + 4) (wordOf v 1)) := by
  rw [captureWords_two, regVal_word m h0, regVal_word m h1, he]
  exact ⟨rfl, rfl⟩

end

/-- A row of reads does what a permitted read of its register does: the value is sent back, and the read has its effect. -/
theorem leaves_read {i : Instr} {s : State} {p : Path} {a k n b v : Nat} {M : Mach} (hi : exec i s = readRow p a s) (ha : ReadsAs a k n b)
    (h : regVal s.taken a = v ∧ readEffect (captureWords s.taken (pathKey p) a n) a k = M) (ok : ReadOk s.taken p a) :
    Leaves i s (M.emit (.readData (leBytes 4 v))) := by
  obtain ⟨hv, hM⟩ := h
  exact leaves_readRow hi (by rw [pathRead_ok ha ok, hv, hM])

/-- An upper word of a wide value reads what was captured for the path (R13). -/
theorem pathRead_upper {m : Mach} {p : Path} {a : Nat} (hw : RegWord a) (hrow : (regFind a).any (fun r => r.1.wk != 0 && r.1.acc != .wo) = true)
    (ok : ReadOk m p a) : pathRead m p a 4 = m.emit (.readData (leBytes 4 (tabGet m.shadow (pathKey p * wideSpan + a) 0).toNat)) := by
  obtain ⟨ctx, r, k, j, hc, hf, hon, hp⟩ := ok
  simp only [hf, Option.any_some, Bool.and_eq_true, bne_iff_ne, ne_eq] at hrow
  obtain ⟨hk, hacc⟩ := hrow
  rw [pathRead_word hw hc]
  simp [readReg, hf, hon, hp, hk, hacc]

/-- Settles O16: each row's read is a permitted read of its register, and the register's block says what it leaves. -/
theorem readsThatAct : Obligations.ReadsThatAct := by
  unfold Obligations.ReadsThatAct
  constructor
  · intro s p c r n e k t m clears
    exact ⟨leaves_read rfl readsAs_dmCeCount ⟨regVal_of_shown_none rfl, rfl⟩,
      leaves_read rfl (readsAs_lhCapMissed c) (reads_lhCapMissed m c),
      leaves_read rfl (readsAs_auPbUnderrun c) (reads_auPbUnderrun m c),
      leaves_read rfl (readsAs_cmRxErr r) (reads_cmRxErr m r),
      leaves_read rfl (readsAs_snStreamOvr n) (reads_snStreamOvr m n),
      leaves_read rfl (readsAs_snStreamMissed n) (reads_snStreamMissed m n),
      leaves_read rfl readsAs_fuOutMissed ⟨regVal_of_shown_none rfl, rfl⟩,
      leaves_read rfl (readsAs_fuSnsLate e) (reads_fuSnsLate m e),
      leaves_read rfl readsAs_chDiscard ⟨regVal_of_shown_none rfl, rfl⟩,
      leaves_read rfl (readsAs_chPortErr k) (reads_chPortErr m k),
      leaves_read rfl (readsAs_efLost t) (reads_efLost m t),
      leaves_read rfl readsAs_efDevLost ⟨regVal_of_shown_none rfl, rfl⟩,
      leaves_read rfl readsAs_hsAccessErr ⟨regVal_of_shown_none rfl, rfl⟩⟩
  · intro s p r t a m reads holds d
    refine ⟨leaves_read rfl (readsAs_hsQCount t) (reads_hsQCount m t),
      leaves_read rfl readsAs_pdStretchCount ⟨regVal_of_shown_none rfl, rfl⟩,
      leaves_read rfl (readsAs_pdDroopMin r) ?_, ?_, ?_, ?_, ?_, ?_⟩
    · rw [captureWords_pdDroop]
      exact reads_pdDroopMin m r _
    · exact leaves_read rfl readsAs_lhEvtPopLo (reads_wide m _ (fun x => { x with latch := x.latch.drop 1 }) rfl rfl fun _ => rfl)
    · exact leaves_read rfl readsAs_tkTickLo (reads_wide m _ id rfl rfl fun _ => rfl)
    · exact leaves_read rfl readsAs_snTimeLo (reads_wide m _ id rfl rfl fun _ => rfl)
    · exact leaves_read rfl readsAs_lhRtcLo (reads_wide m _ id rfl rfl fun _ => rfl)
    · intro ha ok
      have hall : ∀ a ∈ [rTK_TICK_HI, rSN_TIME_HI, rLH_RTC_HI],
          RegWord a ∧ (regFind a).any (fun r => r.1.wk != 0 && r.1.acc != .wo) = true := by decide
      obtain ⟨hw, hrow⟩ := hall a ha
      exact leaves_readRow rfl (pathRead_upper hw hrow ok)

end Sys2Proof.Machine
end

section
/-!
PROOFS. Writes of registers that are denied or discarded (R11, R551, R552).
-/
namespace Sys2Proof.Machine

/-- The address is a register's word in block `b`, neither a read-only register's nor LH_MIC_MUTE, whose writes are checked in another way (R371). -/
abbrev WritesAs (a b : Nat) : Prop :=
  RegWord a ∧ blockOf a = b ∧ a ≠ rLH_MIC_MUTE ∧ (regFind a).any (fun r => r.1.acc != .ro) = true

theorem writesAs_tkCommit : WritesAs rTK_COMMIT 1 := by decide
theorem writesAs_qySelftest : WritesAs rQY_SELFTEST 3 := by decide
theorem writesAs_crRes : ∀ (t : Fin 64) (x : Fin 5), WritesAs (rCR_RES t.val x.val) 5 := by decide
theorem writesAs_lhPartOwner : ∀ n : Fin 64, WritesAs (rLH_PART_OWNER n.val) 9 := by decide
theorem writesAs_lhVadCfg : WritesAs rLH_VAD_CFG 9 := by decide
theorem writesAs_lhCapCfg : ∀ c : Fin 8, WritesAs (rLH_CAP_CFG c.val) 9 := by decide
theorem writesAs_auCommit : WritesAs rAU_COMMIT 10 := by decide
theorem writesAs_snBindCommit : ∀ n : Fin 48, WritesAs (rSN_BIND_COMMIT n.val) 12 := by decide
theorem writesAs_cmCommit : ∀ c : Fin 8, WritesAs (rCM_COMMIT c.val) 11 := by decide
theorem writesAs_fuCtrl : WritesAs rFU_CTRL 13 := by decide
theorem writesAs_fuSnsCtrl : ∀ n : Fin 16, WritesAs (rFU_SNS_CTRL n.val) 13 := by decide
theorem writesAs_hmLockSet : WritesAs rHM_LOCK_SET 16 := by decide
theorem writesAs_hsQCfg : ∀ t : Fin 64, WritesAs (rHS_Q_CFG t.val) 0 := by decide
theorem writesAs_lhHapCtrl : ∀ h : Fin 2, WritesAs (rLH_HAP_CTRL h.val) 9 := by decide
theorem writesAs_snSeqCtrl : ∀ n : Fin 16, WritesAs (rSN_SEQ_CTRL n.val) 12 := by decide
theorem writesAs_dbCtrl : WritesAs rDB_CTRL 18 := by decide
theorem writesAs_chPortCtrl : ∀ k : Fin 4, WritesAs (rCH_PORT_CTRL k.val) 17 := by decide
theorem writesAs_efTail : ∀ t : Fin 64, WritesAs (rEF_TAIL t.val) 19 := by decide
theorem writesAs_efDevTail : WritesAs rEF_DEV_TAIL 19 := by decide

/-- Every row of writes that act writes a register word that can be written. -/
theorem writeOf_writesAs {i : Instr} {p : Path} {a : Nat} {v : Word} (h : writeOf i = some (p, a, v)) : ∃ b, WritesAs a b := by
  unfold writeOf at h
  split at h <;> cases h
  exacts [⟨_, writesAs_tkCommit⟩, ⟨_, writesAs_qySelftest⟩, ⟨_, writesAs_crRes _ _⟩, ⟨_, writesAs_lhPartOwner _⟩, ⟨_, writesAs_lhVadCfg⟩,
    ⟨_, writesAs_lhCapCfg _⟩, ⟨_, writesAs_auCommit⟩, ⟨_, writesAs_snBindCommit _⟩, ⟨_, writesAs_cmCommit _⟩, ⟨_, writesAs_fuCtrl⟩,
    ⟨_, writesAs_fuSnsCtrl _⟩, ⟨_, writesAs_hmLockSet⟩, ⟨_, writesAs_hsQCfg _⟩, ⟨_, writesAs_lhHapCtrl _⟩, ⟨_, writesAs_lhHapCtrl _⟩,
    ⟨_, writesAs_snSeqCtrl _⟩, ⟨_, writesAs_snSeqCtrl _⟩, ⟨_, writesAs_snSeqCtrl _⟩, ⟨_, writesAs_dbCtrl⟩, ⟨_, writesAs_dbCtrl⟩,
    ⟨_, writesAs_dbCtrl⟩, ⟨_, writesAs_chPortCtrl _⟩, ⟨_, writesAs_efTail _⟩, ⟨_, writesAs_efDevTail⟩]

/-! ### Writes that are denied -/

section
variable {m : Mach} {a i j b : Nat} {r : RegRow} (f : Fuses) (key ctx : Nat) (v : Word)

/-- A write of a register whose domain is off is counted with cause 1 (R664). -/
theorem writeReg_off (hf : regFind a = some (r, i, j)) (ho : regOn m r = false) : writeReg f m key ctx a v = accessError m 1 := by
  simp [writeReg, hf, ho]

variable (ha : WritesAs a b) (hf : regFind a = some (r, i, j)) (ho : regOn m r = true)
include ha hf ho

/-- A write that no permission covers is counted with cause 2 (R551). -/
theorem writeReg_denied (hw : mayWrite m r i a ctx = false) : writeReg f m key ctx a v = accessError m 2 := by
  obtain ⟨-, -, hmute, hacc⟩ := ha
  simp only [hf, Option.any_some, bne_iff_ne, ne_eq] at hacc
  simp [writeReg, hf, ho, hacc, hmute, hw]

/-- A lock, or what is under way, discards a write (R11, R552). -/
theorem writeReg_held (hw : mayWrite m r i a ctx = true) (hl : locked m r a = true ∨ frozen m r i a = true) :
    writeReg f m key ctx a v = m := by
  obtain ⟨-, -, hmute, hacc⟩ := ha
  simp only [hf, Option.any_some, bne_iff_ne, ne_eq] at hacc
  simp [writeReg, hf, ho, hacc, hmute, hw, hl]

end

/-- Settles O17: the checks of a read and of a write, in their order, on the register that the row names. -/
theorem accessesDenied : Obligations.AccessesDenied := by
  unfold Obligations.AccessesDenied
  intro s i p a v m
  constructor
  · intro hi
    have hw := readOf_regWord hi
    refine ⟨fun hc => leaves_readRow (exec_readOf hi s) (pathRead_none hc a 4), fun ctx r n j hc hf => ⟨fun ho => ?_, fun ho hp => ?_⟩⟩
    · exact leaves_readRow (exec_readOf hi s) (by rw [pathRead_word hw hc, readReg_off hf ho])
    · exact leaves_readRow (exec_readOf hi s) (by rw [pathRead_word hw hc, readReg_denied hf ho hp])
  · intro hi
    obtain ⟨b, ha⟩ := writeOf_writesAs hi
    refine ⟨fun hc => leaves_writeRow (exec_writeOf hi s) (pathWord_none hc _ a v),
      fun ctx r n j hc hf => ⟨fun ho => ?_, fun ho hp => ?_, fun ho hp hl => ?_⟩⟩
    · exact leaves_writeRow (exec_writeOf hi s) (by rw [pathWord_word ha.1 _ hc, writeReg_off _ _ _ _ hf ho])
    · exact leaves_writeRow (exec_writeOf hi s) (by rw [pathWord_word ha.1 _ hc, writeReg_denied _ _ _ _ ha hf ho hp])
    · exact leaves_writeRow (exec_writeOf hi s) (by rw [pathWord_word ha.1 _ hc, writeReg_held _ _ _ _ ha hf ho hp hl])

end Sys2Proof.Machine
end

section
/-!
PROOFS. Writes of registers that are carried out (R11–R13): the writes that submit, start, reserve and keep.
-/
namespace Sys2Proof.Machine

/-- A permitted write of a word of a register reaches the register's row with the bits that can be written (R11, R12). -/
theorem pathWord_ok {m : Mach} {p : Path} {a b ctx : Nat} (ha : WritesAs a b) (ok : WriteOk m p a ctx) (f : Fuses) (v : Word) :
    ∃ r i j, regFind a = some (r, i, j) ∧ pathWord f m p a v =
      if r.wn ≤ 1 then applyReg f m r ctx i j a (v &&& BitVec.ofNat 32 r.mask)
      else if r.wk = 0 then applyWide m (pathKey p) a r.wn (v &&& BitVec.ofNat 32 r.mask)
      else { m with held := tabPut m.held (pathKey p * wideSpan + a) (v &&& BitVec.ofNat 32 r.mask) } := by
  obtain ⟨hword, -, hmute, hacc⟩ := ha
  obtain ⟨r, i, j, hc, hf, ho, hw, hl, hz⟩ := ok
  simp only [hf, Option.any_some, bne_iff_ne, ne_eq] at hacc
  refine ⟨r, i, j, hf, ?_⟩
  rw [pathWord_word hword f hc]
  simp only [writeReg, hf, ho, hacc, hmute, hw, hl, hz, Bool.not_true, Bool.false_eq_true, or_self, if_false]

/-- The address has the indices `i` and `j` in the row at `base`, a row of single words that are written as they are, with these writable bits. -/
abbrev WriteRow (a i j base mask : Nat) : Prop :=
  (regFind a).any (fun r => r.1.base == base && r.1.mask == mask && r.2 == (i, j) && decide (r.1.wn ≤ 1) && r.1.acc != .w1c) = true

/-- A permitted write of a single word is the row's own write (R11). -/
theorem pathWord_single {m : Mach} {p : Path} {a b ctx i j base mask : Nat} (ha : WritesAs a b) (hr : WriteRow a i j base mask)
    (ok : WriteOk m p a ctx) (f : Fuses) (v : Word) :
    ∃ r : RegRow, r.base = base ∧ r.acc ≠ .w1c ∧ pathWord f m p a v = applyReg f m r ctx i j a (v &&& BitVec.ofNat 32 mask) := by
  obtain ⟨r, i', j', hf, h⟩ := pathWord_ok ha ok f v
  simp only [WriteRow, hf, Option.any_some, Bool.and_eq_true, beq_iff_eq, bne_iff_ne, ne_eq, Prod.mk.injEq, decide_eq_true_eq] at hr
  obtain ⟨⟨⟨⟨hbase, rfl⟩, rfl, rfl⟩, hwn⟩, hacc⟩ := hr
  exact ⟨r, hbase, hacc, by rw [h, if_pos hwn]⟩

section
variable {f : Fuses} {m : Mach} {r : RegRow} {ctx i j a : Nat} {v : Word}

theorem applyReg_core {b : Nat} (hb : blockOf a = b) (h : b ∈ [1, 3, 5]) (hacc : r.acc ≠ .w1c) :
    applyReg f m r ctx i j a v = writeCore m r ctx i j a v := by
  subst hb
  simp only [List.mem_cons, List.not_mem_nil, or_false] at h
  rcases h with h | h | h <;> simp only [applyReg, hacc, if_false, h]

theorem applyReg_audio (hb : blockOf a = 9) (hacc : r.acc ≠ .w1c) : applyReg f m r ctx i j a v = writeAudio m r i a v := by
  simp only [applyReg, hacc, if_false, hb]

theorem applyReg_late {b : Nat} (hb : blockOf a = b) (h : b ∈ [16, 19]) (hacc : r.acc ≠ .w1c) :
    applyReg f m r ctx i j a v = writeLate f m r i a v := by
  subst hb
  simp only [List.mem_cons, List.not_mem_nil, or_false] at h
  rcases h with h | h <;> simp only [applyReg, hacc, if_false, h]
end

theorem writeRow_tkCommit : WriteRow rTK_COMMIT 0 0 rTK_COMMIT 1 := by decide
theorem writeRow_qySelftest : WriteRow rQY_SELFTEST 0 0 rQY_SELFTEST 0x1FF0F := by decide
theorem writeRow_crRes : ∀ (t : Fin 64) (x : Fin 5), WriteRow (rCR_RES t.val x.val) t.val x.val (rCR_RES 0 0) 0xFFFF := by decide
theorem writeRow_lhPartOwner : ∀ n : Fin 64, WriteRow (rLH_PART_OWNER n.val) n.val 0 (rLH_PART_OWNER 0) 0x3F := by decide
theorem writeRow_hmLockSet : WriteRow rHM_LOCK_SET 0 0 rHM_LOCK_SET 0xFFFFF := by decide
theorem writeRow_efTail : ∀ t : Fin 64, WriteRow (rEF_TAIL t.val) t.val 0 (rEF_TAIL 0) 0xFFFF := by decide
theorem writeRow_efDevTail : WriteRow rEF_DEV_TAIL 0 0 rEF_DEV_TAIL 0xFFFF := by decide

/-- The families' addresses are none of the single registers that their blocks tell apart before them. -/
theorem crRes_ne : ∀ (t : Fin 64) (x : Fin 5), rCR_RES t.val x.val ≠ rTK_COMMIT ∧ rCR_RES t.val x.val ≠ rQY_SELFTEST := by decide
theorem lhPartOwner_ne : ∀ n : Fin 64, rLH_PART_OWNER n.val ≠ rLH_PDM_CFG ∧ rLH_PART_OWNER n.val ≠ rLH_VAD_CFG ∧
    rLH_PART_OWNER n.val ≠ rLH_TOUCH_CFG ∧ rLH_PART_OWNER n.val ≠ rLH_CHG_CFG := by decide
theorem efTail_ne : ∀ t : Fin 64, ¬(rPD_VTH_WARN ≤ rEF_TAIL t.val ∧ rEF_TAIL t.val ≤ rPD_VTH_BOR) ∧ rEF_TAIL t.val ≠ rHM_LOCK_SET ∧
    rEF_TAIL t.val ≠ rDB_CTRL := by decide

section
variable (f : Fuses) {m : Mach} {p : Path} {ctx : Nat} (v : Word)

theorem pathWord_tkCommit (ok : WriteOk m p rTK_COMMIT ctx) : pathWord f m p rTK_COMMIT v = writeTkCommit m (v &&& 1#32) := by
  obtain ⟨r, -, hacc, h⟩ := pathWord_single writesAs_tkCommit writeRow_tkCommit ok f v
  rw [h, applyReg_core writesAs_tkCommit.2.1 (by decide) hacc, writeCore, if_pos rfl]

theorem pathWord_qySelftest (ok : WriteOk m p rQY_SELFTEST ctx) :
    pathWord f m p rQY_SELFTEST v = writeSelftest m (v &&& 0x1FF0F#32) := by
  obtain ⟨r, -, hacc, h⟩ := pathWord_single writesAs_qySelftest writeRow_qySelftest ok f v
  rw [h, applyReg_core writesAs_qySelftest.2.1 (by decide) hacc, writeCore, if_neg (by decide), if_pos rfl]

theorem pathWord_crRes (t : Fin 64) (x : Fin 5) (ok : WriteOk m p (rCR_RES t.val x.val) ctx) :
    pathWord f m p (rCR_RES t.val x.val) v = writeRes m ctx t.val x.val (v &&& 0xFFFF#32).toNat := by
  obtain ⟨r, hbase, hacc, h⟩ := pathWord_single (writesAs_crRes t x) (writeRow_crRes t x) ok f v
  obtain ⟨hcommit, htest⟩ := crRes_ne t x
  rw [h, applyReg_core (writesAs_crRes t x).2.1 (by decide) hacc, writeCore, if_neg hcommit, if_neg htest, if_pos hbase]

theorem pathWord_lhPartOwner (n : Fin 64) (ok : WriteOk m p (rLH_PART_OWNER n.val) ctx) :
    pathWord f m p (rLH_PART_OWNER n.val) v = writePartOwner m n.val (v &&& 0x3F#32).toNat := by
  obtain ⟨r, hbase, hacc, h⟩ := pathWord_single (writesAs_lhPartOwner n) (writeRow_lhPartOwner n) ok f v
  obtain ⟨hpdm, hvad, htouch, hchg⟩ := lhPartOwner_ne n
  rw [h, applyReg_audio (writesAs_lhPartOwner n).2.1 hacc]
  simp [writeAudio, hpdm, hvad, htouch, hchg, hbase]

theorem pathWord_hmLockSet (ok : WriteOk m p rHM_LOCK_SET ctx) :
    pathWord f m p rHM_LOCK_SET v = writeLockSet m (v &&& 0xFFFFF#32) := by
  obtain ⟨r, -, hacc, h⟩ := pathWord_single writesAs_hmLockSet writeRow_hmLockSet ok f v
  rw [h, applyReg_late writesAs_hmLockSet.2.1 (by decide) hacc, writeLate, if_neg (by decide), if_pos rfl]

theorem pathWord_efTail (t : Fin 64) (ok : WriteOk m p (rEF_TAIL t.val) ctx) :
    pathWord f m p (rEF_TAIL t.val) v = writeEfTail m (rEF_HEAD t.val) (rEF_TAIL t.val) 64 (v &&& 0xFFFF#32).toNat := by
  obtain ⟨r, hbase, hacc, h⟩ := pathWord_single (writesAs_efTail t) (writeRow_efTail t) ok f v
  obtain ⟨hvth, hlock, hdb⟩ := efTail_ne t
  rw [h, applyReg_late (writesAs_efTail t).2.1 (by decide) hacc, writeLate, if_neg hvth, if_neg hlock, if_neg hdb, if_pos hbase]

theorem pathWord_efDevTail (ok : WriteOk m p rEF_DEV_TAIL ctx) :
    pathWord f m p rEF_DEV_TAIL v = writeEfTail m rEF_DEV_HEAD rEF_DEV_TAIL 1024 (v &&& 0xFFFF#32).toNat := by
  obtain ⟨r, hbase, hacc, h⟩ := pathWord_single writesAs_efDevTail writeRow_efDevTail ok f v
  rw [h, applyReg_late writesAs_efDevTail.2.1 (by decide) hacc, writeLate, if_neg (by decide), if_neg (by decide), if_neg (by decide),
    if_neg (by rw [hbase]; decide), if_pos rfl]
end

theorem flag_and_one (v : Word) : flag (v &&& 1#32) 0 = flag v 0 := by
  simp [flag, BitVec.toNat_and]

/-- A field takes as many bits of a value as it has. -/
theorem setFldOf_fld (m : Mach) (a lo k n : Nat) (w : Word) : m.setFldOf a lo n (fld w k n) = m.setFldOf a lo n (w.toNat / 2 ^ k) := by
  simp [Mach.setFldOf, setFld, fld, bits, Nat.shiftRight_eq_div_pow]

theorem bits_testMask (v : Nat) : bits (testMask v) 0 4 = bits v 0 4 ∧ bits (testMask v) 8 8 = bits v 8 8 := by
  simp only [testMask, bits_eq]
  omega

/-- What a write of TK_COMMIT's GO submits (R27). -/
theorem writeTkCommit_go {m : Mach} {v : Word} (hv : flag v 0 = true) (hn : m.tk.validating = none) : writeTkCommit m v =
    (({ m with tk := { m.tk with validating := some { table := m.tk.shadow, period := m.fldOf rTK_PERIOD_NEXT 0 26,
                                                      seam := m.fldOf rTK_SEAM_LEN 0 16, bound := [],
                                                      resume := m.tk.halted ||| m.tk.haltNext } } } : Mach).setFlagOf rTK_STATUS 1 false).setFlagOf
      rTK_STATUS 0 true := by
  rw [writeTkCommit, if_neg (by simp [hv, hn])]
  rfl

theorem writeTkCommit_idle {m : Mach} {v : Word} (h : flag v 0 = false ∨ m.tk.validating.isSome = true) : writeTkCommit m v = m := by
  rw [writeTkCommit, if_pos (by simpa using h)]

theorem reg_setFldOf_ne (m : Mach) {a k : Nat} {lo n v : Nat} (h : k ≠ a) : (m.setFldOf a lo n v).reg k = m.reg k := Mach.reg_setReg_ne m _ h

theorem reg_setFlagOf_ne (m : Mach) {a k i : Nat} {b : Bool} (h : k ≠ a) : (m.setFlagOf a i b).reg k = m.reg k := Mach.reg_setReg_ne m _ h

/-- The quay clock is a matter of the clocks, the tick and the performance level. -/
theorem quayNow_congr {m x : Mach} (hclk : x.clk = m.clk) (htk : x.tk = m.tk) (hreg : x.reg rPM_PERF = m.reg rPM_PERF) :
    quayNow x = quayNow m := by
  simp only [quayNow, curPl, Mach.fldOf, hclk, htk, hreg]

/-- The self-test's masks stored (R177). -/
def storeMasks (m : Mach) (w : Word) : Mach := (m.setFldOf rQY_SELFTEST 0 4 (fld w 0 4)).setFldOf rQY_SELFTEST 8 8 (fld w 8 8)

/-- A self-test runs, or a table names what it would test (R177). -/
def testBusy (m : Mach) (w : Word) : Bool :=
  m.flagOf rQY_SELFTEST 17 || anyNaming m (fun e => (e.quad &&& fld w 0 4) != 0 || (e.vec &&& fld w 8 8) != 0)

section
variable {m : Mach} {w : Word}

theorem storeMasks_eq : (m.setFldOf rQY_SELFTEST 0 4 w.toNat).setFldOf rQY_SELFTEST 8 8 (w.toNat / 256) = storeMasks m w := by
  rw [storeMasks, setFldOf_fld, setFldOf_fld, Nat.pow_zero, Nat.div_one]
  rfl

/-- A write that starts nothing stores its masks (R177, log 48). -/
theorem writeSelftest_stores (h : flag w 16 = false ∨ testMask w.toNat = 0) : writeSelftest m w = storeMasks m w := by
  unfold writeSelftest
  simp only [storeMasks_eq]
  exact if_pos (by simpa using h)

theorem testBusy_iff : (m.flagOf rQY_SELFTEST 17 = true ∨ anyNaming m (fun e => (e.quad &&& bits (testMask w.toNat) 0 4) != 0 ||
    (e.vec &&& bits (testMask w.toNat) 8 8) != 0) = true) ↔ testBusy m w = true := by
  obtain ⟨hq, hv⟩ := bits_testMask w.toNat
  rw [hq, hv, testBusy, Bool.or_eq_true]
  rfl

theorem writeSelftest_refused (hg : flag w 16 = true) (hm : testMask w.toNat ≠ 0) (hb : testBusy m w = true) :
    writeSelftest m w = raiseT m 0x0304 0 0 := by
  unfold writeSelftest
  simp only [testBusy_iff]
  rw [if_neg (by simpa [hg] using hm), if_pos hb]

@[simp] theorem storeMasks_clk : (storeMasks m w).clk = m.clk := rfl
@[simp] theorem storeMasks_tk : (storeMasks m w).tk = m.tk := rfl

/-- The quay clock does not depend on QY_SELFTEST. -/
theorem quayNow_storeMasks : quayNow ((storeMasks m w).setFlagOf rQY_SELFTEST 17 true) = quayNow m := by
  have hne : rPM_PERF ≠ rQY_SELFTEST := by decide
  refine quayNow_congr ((Mach.setFlagOf_clk ..).trans storeMasks_clk) ((Mach.setFlagOf_tk ..).trans storeMasks_tk) ?_
  rw [reg_setFlagOf_ne _ hne, storeMasks, reg_setFldOf_ne _ hne, reg_setFldOf_ne _ hne]

theorem writeSelftest_starts (hg : flag w 16 = true) (hm : testMask w.toNat ≠ 0) (hb : testBusy m w = false) :
    writeSelftest m w =
      { (storeMasks m w).setFlagOf rQY_SELFTEST 17 true with
        tk := { m.tk with testNamed := testMask w.toNat, testLeft := some 65536, testFail := none,
                          testAt := if m.clk.inSeam then 2 ^ 64 else quayNow m } } := by
  have hneg : ¬((!flag w 16) = true ∨ testMask w.toNat = 0) := by simpa [hg] using hm
  have hidle : ¬testBusy m w = true := by simp [hb]
  have hquay : quayNow ((storeMasks m w).setFlagOf rQY_SELFTEST 17 true) = quayNow m := quayNow_storeMasks
  have hclk : ((storeMasks m w).setFlagOf rQY_SELFTEST 17 true).clk = m.clk := (Mach.setFlagOf_clk ..).trans storeMasks_clk
  have htk : ((storeMasks m w).setFlagOf rQY_SELFTEST 17 true).tk = m.tk := (Mach.setFlagOf_tk ..).trans storeMasks_tk
  unfold writeSelftest
  simp only [testBusy_iff, storeMasks_eq]
  rw [if_neg hneg, if_neg hidle]
  generalize (storeMasks m w).setFlagOf rQY_SELFTEST 17 true = x at hquay hclk htk ⊢
  rw [hquay, hclk, htk]

end

section
variable (m : Mach) (ctx t x v : Nat)

/-- Reservations of the pool that are not this tenant's (R252). -/
def otherRes : Nat := resSum m x - m.fldOf (rCR_RES t x) 0 16

theorem writeRes_refused (h : m.fldOf (rCR_RES_POOL x) 0 16 < otherRes m t x + v % 65536) : writeRes m ctx t x v = raiseT m 0x0506 ctx 0 := by
  simp only [writeRes]
  exact if_pos h

theorem writeRes_taken (h : otherRes m t x + v % 65536 ≤ m.fldOf (rCR_RES_POOL x) 0 16) : writeRes m ctx t x v =
    (m.setFldOf (rCR_RES t x) 0 16 (v % 65536)).setFldOf (rCR_RES_SUM x) 0 16 (resSum (m.setFldOf (rCR_RES t x) 0 16 (v % 65536)) x) := by
  simp only [writeRes]
  exact if_neg (Nat.not_lt.mpr h)

end

theorem and_low16_mod (v : Word) : (v &&& 0xFFFF#32).toNat % 65536 = (v &&& 0xFFFF#32).toNat := by
  rw [BitVec.toNat_and]
  exact Nat.mod_eq_of_lt (lt_of_le_of_lt Nat.and_le_right (by decide))

/-- Settles O19: each write is the register's own, whose guards are the statement's. -/
theorem submittingWrites : Obligations.SubmittingWrites := by
  unfold Obligations.SubmittingWrites
  intro s p v ctx t x m sub w mask stored busy r others taken
  refine ⟨fun ok => ⟨fun hv hn => ?_, fun h => ?_⟩, fun ok => ⟨fun h => ?_, fun hg hm hb => ?_, fun hg hm hb => ?_⟩, fun ok => ?_⟩
  · exact leaves_writeRow rfl ((pathWord_tkCommit _ v ok).trans (writeTkCommit_go (by rwa [flag_and_one]) hn))
  · exact leaves_writeRow rfl ((pathWord_tkCommit _ v ok).trans (writeTkCommit_idle (by rwa [flag_and_one])))
  · exact leaves_writeRow rfl ((pathWord_qySelftest _ v ok).trans (writeSelftest_stores h))
  · exact leaves_writeRow rfl ((pathWord_qySelftest _ v ok).trans (writeSelftest_refused hg hm hb))
  · exact leaves_writeRow rfl ((pathWord_qySelftest _ v ok).trans (writeSelftest_starts hg hm hb))
  · have hr : r % 65536 = r := and_low16_mod v
    constructor
    · intro h
      exact leaves_writeRow rfl ((pathWord_crRes _ v t x ok).trans (writeRes_refused m ctx t x r (by rw [hr]; exact h)))
    · intro h
      refine leaves_writeRow rfl ((pathWord_crRes _ v t x ok).trans ((writeRes_taken m ctx t x r (by rw [hr]; exact h)).trans ?_))
      rw [hr]

/-! ### Wide values -/

/-- A permitted write of the lowest word of a wide value sets it with the words held for the path; one of an upper word holds it (R13). -/
theorem pathWord_wide {m : Mach} {p : Path} {a b ctx n : Nat} (ha : WritesAs a b)
    (hr : (regFind a).any (fun r => r.1.wn == n && decide (1 < r.1.wn) && r.1.mask == 0xFFFFFFFF && r.1.wk == 0) = true)
    (ok : WriteOk m p a ctx) (f : Fuses) (v : Word) : pathWord f m p a v = applyWide m (pathKey p) a n v := by
  obtain ⟨r, i, j, hf, h⟩ := pathWord_ok ha ok f v
  simp only [hf, Option.any_some, Bool.and_eq_true, beq_iff_eq, decide_eq_true_eq] at hr
  obtain ⟨⟨⟨rfl, hn⟩, hmask⟩, hk⟩ := hr
  have hall : v &&& BitVec.ofNat 32 0xFFFFFFFF = v := BitVec.and_allOnes
  rw [h, if_neg (by omega), if_pos hk, hmask, hall]

theorem pathWord_upper {m : Mach} {p : Path} {a b ctx : Nat} (ha : WritesAs a b)
    (hr : (regFind a).any (fun r => decide (1 < r.1.wn) && r.1.mask == 0xFFFFFFFF && r.1.wk != 0) = true)
    (ok : WriteOk m p a ctx) (f : Fuses) (v : Word) :
    pathWord f m p a v = { m with held := tabPut m.held (pathKey p * wideSpan + a) v } := by
  obtain ⟨r, i, j, hf, h⟩ := pathWord_ok ha ok f v
  simp only [hf, Option.any_some, Bool.and_eq_true, beq_iff_eq, bne_iff_ne, decide_eq_true_eq] at hr
  obtain ⟨⟨hn, hmask⟩, hk⟩ := hr
  have hall : v &&& BitVec.ofNat 32 0xFFFFFFFF = v := BitVec.and_allOnes
  rw [h, if_neg (by omega), if_neg hk, hmask, hall]

theorem writesAs_lhRtcLo : WritesAs rLH_RTC_LO 9 := by decide
theorem writesAs_lhRhTenantsLo : WritesAs rLH_RH_TENANTS_LO 9 := by decide
theorem writesAs_lhRhTenantsHi : WritesAs rLH_RH_TENANTS_HI 9 := by decide

/-- The upper word that a write of a 64-bit value takes: the one held for the path, or the value's own. -/
def upperHeld (m : Mach) (key a : Nat) : Nat := ((tabFind m.held (key * wideSpan + (a + 4))).map (·.toNat)).getD (regVal m (a + 4))

/-- The machine once the words held for a path have been taken. -/
def unheld (m : Mach) (key a : Nat) : Mach := { m with held := tabDel (tabDel m.held (key * wideSpan + a)) (key * wideSpan + (a + 4)) }

/-- A write of the low word of a 64-bit value takes both words (R13). -/
theorem applyWide_two (m : Mach) (key a : Nat) (v : Word) : applyWide m key a 2 v =
    if a = rLH_RTC_LO then writeRtc (unheld m key a) (v.toNat + 2 ^ 32 * upperHeld m key a)
    else if a = rLH_RH_TENANTS_LO then writeRh (unheld m key a) (v.toNat + 2 ^ 32 * upperHeld m key a)
    else ((unheld m key a).setRegN a v.toNat).setRegN (a + 4) (upperHeld m key a) := by
  unfold applyWide unheld upperHeld
  generalize key * wideSpan = b
  have hk : b + a + 4 = b + (a + 4) := Nat.add_assoc ..
  simp only [show List.range 2 = [0, 1] from rfl, List.foldl_cons, List.foldl_nil, Nat.mul_zero, Nat.mul_one, Nat.add_zero, hk, if_true,
    Nat.one_ne_zero, if_false]

section
variable (f : Fuses) {m : Mach} {p : Path} {ctx : Nat}

theorem pathWord_lhRtcLo (ok : WriteOk m p rLH_RTC_LO ctx) (v : Word) : pathWord f m p rLH_RTC_LO v =
    writeRtc (unheld m (pathKey p) rLH_RTC_LO) (v.toNat + 2 ^ 32 * upperHeld m (pathKey p) rLH_RTC_LO) := by
  rw [pathWord_wide (n := 2) writesAs_lhRtcLo (by decide) ok, applyWide_two, if_pos rfl]

theorem upperHeld_lhRtcLo (key : Nat) : upperHeld m key rLH_RTC_LO =
    ((tabFind m.held (key * wideSpan + rLH_RTC_HI)).map (·.toNat)).getD (wordOf m.lh.rtc.count 1) := by
  rw [upperHeld, regVal_word m (v := m.lh.rtc.count) (k := 1) rfl]

theorem pathWord_lhRhTenantsLo (ok : WriteOk m p rLH_RH_TENANTS_LO ctx) (v : Word) : pathWord f m p rLH_RH_TENANTS_LO v =
    writeRh (unheld m (pathKey p) rLH_RH_TENANTS_LO) (v.toNat + 2 ^ 32 * upperHeld m (pathKey p) rLH_RH_TENANTS_LO) := by
  rw [pathWord_wide (n := 2) writesAs_lhRhTenantsLo (by decide) ok, applyWide_two, if_neg (by decide), if_pos rfl]

/-- The row of a word of LH_RH_TENANTS. -/
def rhRow (base wk : Nat) : RegRow := ⟨base, 1, 4, 1, 4, .rwl, 0, 0xFFFFFFFF, .t0, .t0, wk, 2, 127⟩

/-- The two words of the mask of resident tenants are written by the same contexts. -/
theorem writeOk_lhRhTenantsHi (ok : WriteOk m p rLH_RH_TENANTS_LO ctx) : WriteOk m p rLH_RH_TENANTS_HI ctx := by
  obtain ⟨r, i, j, hc, hf, hon, hw, hl, hz⟩ := ok
  have hlo : regFind rLH_RH_TENANTS_LO = some (rhRow rLH_RH_TENANTS_LO 0, 0, 0) := by decide
  have hhi : regFind rLH_RH_TENANTS_HI = some (rhRow rLH_RH_TENANTS_HI 1, 0, 0) := by decide
  rw [hlo] at hf
  cases hf
  exact ⟨_, _, _, hc, hhi, hon, hw, hl, rfl⟩

/-- What a path holds does not change what it may write. -/
theorem writeOk_held (h : Tab Word) {a : Nat} (ok : WriteOk m p a ctx) : WriteOk { m with held := h } p a ctx := ok

/-- A write of both words of LH_RH_TENANTS, the upper word first (R13, R389). -/
theorem pathWord_lhRhTenants (ok : WriteOk m p rLH_RH_TENANTS_LO ctx) (hi lo : Word) :
    pathWord f (pathWord f m p rLH_RH_TENANTS_HI hi) p rLH_RH_TENANTS_LO lo =
      writeRh (unheld { m with held := tabPut m.held (pathKey p * wideSpan + rLH_RH_TENANTS_HI) hi } (pathKey p) rLH_RH_TENANTS_LO)
        (lo.toNat + 2 ^ 32 * hi.toNat) := by
  rw [pathWord_upper writesAs_lhRhTenantsHi (by decide) (writeOk_lhRhTenantsHi ok), pathWord_lhRhTenantsLo _ (writeOk_held _ ok), upperHeld,
    tabFind_tabPut, if_pos rfl]
  rfl

end

theorem ofNat_fld_low20 (v : Word) : BitVec.ofNat 32 (fld (v &&& 0xFFFFF#32) 0 20) = v &&& 0xFFFFF#32 := by
  apply BitVec.eq_of_toNat_eq
  have hlt : (v &&& 0xFFFFF#32).toNat < 2 ^ 20 := by
    rw [BitVec.toNat_and]
    exact lt_of_le_of_lt Nat.and_le_right (by decide)
  rw [BitVec.toNat_ofNat, fld, bits_eq, Nat.pow_zero, Nat.div_one, Nat.mod_eq_of_lt hlt, Nat.mod_eq_of_lt (by omega)]

theorem toNat_halves (u : BitVec 64) : (u.extractLsb' 0 32).toNat + 2 ^ 32 * (u.extractLsb' 32 32).toNat = u.toNat := by
  have hu := u.isLt
  simp only [BitVec.extractLsb'_toNat, Nat.shiftRight_eq_div_pow]
  omega

/-- Settles O20: each write is the register's own; a wide value takes the word that the path holds. -/
theorem keepingWrites : Obligations.KeepingWrites := by
  unfold Obligations.KeepingWrites
  intro s p v u ctx n m o r k hi
  have ho : o % 64 = o := Nat.mod_eq_of_lt (by
    show (v &&& 0x3F#32).toNat < 64
    rw [BitVec.toNat_and]
    exact lt_of_le_of_lt Nat.and_le_right (by decide))
  refine ⟨fun ok => ⟨fun h => ?_, fun hn hne => ?_⟩, fun ok => ?_, fun ok => ?_, fun ok => ?_, fun ok => ?_, fun ok => ?_⟩
  · refine leaves_writeRow rfl ((pathWord_lhPartOwner _ v n ok).trans ?_)
    exact if_pos (by rw [show (v &&& 0x3F#32).toNat % 64 = o from ho]; exact h)
  · refine leaves_writeRow rfl ((pathWord_lhPartOwner _ v n ok).trans ?_)
    exact if_neg (by rw [show (v &&& 0x3F#32).toNat % 64 = o from ho]; omega)
  · refine leaves_writeRow rfl ((pathWord_hmLockSet _ v ok).trans ?_)
    rw [writeLockSet, ofNat_fld_low20]
  · exact leaves_writeRow rfl (pathWord_efTail _ v n ok)
  · exact leaves_writeRow rfl (pathWord_efDevTail _ v ok)
  · refine leaves_writeRow rfl ((pathWord_lhRtcLo _ ok v).trans ?_)
    rw [upperHeld_lhRtcLo]
    rfl
  · have hexec : Leaves (.lhRhTenants p u) s (pathWord s.fuses (pathWord s.fuses m p rLH_RH_TENANTS_HI (u.extractLsb' 32 32)) p
        rLH_RH_TENANTS_LO (u.extractLsb' 0 32)) := rfl
    rw [pathWord_lhRhTenants _ ok, toNat_halves] at hexec
    exact hexec

end Sys2Proof.Machine
end

section
/-!
PROOFS. Brown-out reset and keep-alive loss (R536), the start-up sequence (R690–R697), boundary scan (R583) and the IO banks (R723, R724).
-/
namespace Sys2Proof.Machine

/-! ## Brown-out reset and keep-alive loss -/

/-- A list of registers set, each to a word of its own. -/
def Mach.setRegs (m : Mach) (l : List Nat) (w : Nat → Word) : Mach := l.foldl (fun x a => x.setReg a (w a)) m

theorem Mach.reg_setRegs (w : Nat → Word) (k : Nat) (l : List Nat) (m : Mach) :
    (m.setRegs l w).reg k = if k ∈ l then w k else m.reg k := by
  induction l generalizing m with
  | nil => simp [Mach.setRegs]
  | cons a l ih =>
    have hcons : m.setRegs (a :: l) w = (m.setReg a (w a)).setRegs l w := rfl
    rw [hcons, ih, Mach.reg_setReg]
    by_cases hl : k ∈ l
    · simp [hl]
    · by_cases hk : k = a
      · subst hk; simp
      · simp [hl, hk]

/-- Setting registers changes registers alone. -/
theorem Mach.setRegs_eq (w : Nat → Word) (l : List Nat) (m : Mach) : m.setRegs l w = { m with regs := (m.setRegs l w).regs } := by
  induction l generalizing m with
  | nil => rfl
  | cons a l ih => exact ih (m.setReg a (w a))

/-- The machine in reset with what outlives a brown-out (R225, R536), but for the registers that the keep-alive supply holds. -/
def afterBrownOut (m : Mach) (kind : Nat) : Mach :=
  let x := Mach.inReset kind m.fresh m.lh.rtc m.latch (keptFlash m.fl) (Deliv.init m.pd.vioA m.pd.vioH m.pd.vioHHigh)
  { x with mem := { x.mem with allocs := keptAllocs m, gens := m.mem.gens } }

theorem brownOut_eq (m : Mach) (kind : Nat) : brownOut m kind = { afterBrownOut m kind with regs := (brownOut m kind).regs } :=
  Mach.setRegs_eq m.reg keptRegs (afterBrownOut m kind)

theorem reg_brownOut (m : Mach) (kind k : Nat) : (brownOut m kind).reg k = if k ∈ keptRegs then m.reg k else regReset k :=
  Mach.reg_setRegs m.reg k keptRegs (afterBrownOut m kind)

/-- What a brown-out reset keeps, and what it resets (R536). -/
theorem brownOut_parts (m : Mach) (kind : Nat) :
    let b := brownOut m kind
    b.pm.start = some kind ∧ b.fl = keptFlash m.fl ∧ b.lh.rtc = m.lh.rtc ∧ b.latch = m.latch ∧ b.fresh = m.fresh ∧
      b.mem.allocs = keptAllocs m ∧ b.mem.gens = m.mem.gens ∧ b.pd.vioA = m.pd.vioA ∧ b.pd.vioH = m.pd.vioH ∧
      b.clk.now = 0 ∧ b.clk.tick = 0 ∧ b.tk = Tick.init ∧ b.cas = [] ∧ b.hs.cmds = [] ∧ b.ef.rings = [] ∧ b.sto.progs = [] ∧
      b.hm = Harbour.init := by
  intro b
  rw [show b = { afterBrownOut m kind with regs := b.regs } from brownOut_eq m kind]
  exact ⟨rfl, rfl, rfl, rfl, rfl, rfl, rfl, rfl, rfl, rfl, rfl, rfl, rfl, rfl, rfl, rfl, rfl⟩

theorem keepAliveLoss_idle {m : Mach} (h : m.pm.start = none ∨ m.pm.start = some 2) : keepAliveLoss m = m := if_pos h

/-- The machine without what the keep-alive supply holds in its parts, its next start a power-on start. -/
def withoutKeepAlive (m : Mach) : Mach := { m with latch := [], lh := { m.lh with rtc := Rtc.init }, pm := { m.pm with start := some 0 } }

theorem keepAliveLoss_eq {m : Mach} (hn : m.pm.start ≠ none) (h2 : m.pm.start ≠ some 2) :
    keepAliveLoss m = (withoutKeepAlive m).setRegs keptRegs regReset := if_neg (by simp [hn, h2])

theorem keepAliveLoss_parts {m : Mach} (hn : m.pm.start ≠ none) (h2 : m.pm.start ≠ some 2) (a : Nat) :
    let x := keepAliveLoss m
    x.latch = [] ∧ x.lh = { m.lh with rtc := Rtc.init } ∧ x.pm = { m.pm with start := some 0 } ∧ (∀ k ∈ keptRegs, x.reg k = regReset k) ∧
      (a ∉ keptRegs → x.reg a = m.reg a) ∧ x.fl = m.fl ∧ x.mem = m.mem := by
  intro x
  have hx : x = (withoutKeepAlive m).setRegs keptRegs regReset := keepAliveLoss_eq hn h2
  have hreg : ∀ k, x.reg k = if k ∈ keptRegs then regReset k else m.reg k := fun k => by rw [hx, Mach.reg_setRegs]; rfl
  have heq : x = { withoutKeepAlive m with regs := x.regs } := by rw [hx]; exact Mach.setRegs_eq ..
  refine ⟨?_, ?_, ?_, fun k hk => by rw [hreg, if_pos hk], fun ha => by rw [hreg, if_neg ha], ?_, ?_⟩ <;> rw [heq] <;> rfl

/-! ## The start-up sequence -/

section
variable (f : Fuses) (z : StartIn) {kind : Nat} {m : Mach}

theorem startUp_none (h : m.pm.start = none) : startUp f z m = m := by simp only [startUp, h]

/-- Steps 2 to 4 of a start (R690, R692, R693): the clocks run, the start is counted, and DRAM has trained or not. -/
def startTrained (kind : Nat) (m : Mach) : Mach :=
  let clocks := startClocks f z kind m
  let counted := ({ clocks with fl := { clocks.fl with boots := clocks.fl.boots + 1 } } : Mach).setRegN rHM_BOOT_COUNT (clocks.fl.boots + 1)
  (advanceTo counted (counted.clk.now + (trainOutcome z.train).1)).setFlagOf rEF_START 2 (trainOutcome z.train).2.1

theorem startUp_trained (h : m.pm.start = some kind) (ht : (trainOutcome z.train).2.2 = true) : startUp f z m =
    (let x := startTrained f z kind m
     let y := startBoot f z kind m.clk.now (startMount z (((setDom x 15 0).setFlagOf rDM_STATUS 0 true).setFlagOf rDM_STATUS 1
       (trainOutcome z.train).2.1))
     if kind = 2 then y else passTime y) := by
  unfold startUp startTrained
  simp only [h]
  generalize startClocks f z kind m = clocks
  generalize trainOutcome z.train = t at ht ⊢
  obtain ⟨t, full, ok⟩ := t
  cases ht
  rfl

theorem startUp_untrained (h : m.pm.start = some kind) (ht : (trainOutcome z.train).2.2 = false) : startUp f z m =
    (let y := enterRecovery (raiseD (setDom (startTrained f z kind m) 15 2) 0x1002 0)
     if kind = 2 then y else passTime y) := by
  unfold startUp startTrained
  simp only [h]
  generalize startClocks f z kind m = clocks
  generalize trainOutcome z.train = t at ht ⊢
  obtain ⟨t, full, ok⟩ := t
  cases ht
  rfl

/-- Steps 6 to 8 (R694, R697): the images are tried in order, up to the first that is accepted. -/
theorem startBoot_eq (kind a : Nat) (y : Mach) :
    let tried := (bootTry f z.damaged (bootOrder y.fl)).1
    let waited := (advanceTo y (y.clk.now + (tried.map imageTime).foldl (· + ·) 0)).setFldOf rEF_START 8 4 (min tried.length 15)
    startBoot f z kind a y = (bootTry f z.damaged (bootOrder y.fl)).2.elim
      (enterRecovery ((List.range tried.length).foldl (fun m _ => raiseD m 0x0D09 0) waited))
      (fun i => bootFirmware f z i kind a (tried.length - 1) waited) := by
  unfold startBoot
  generalize bootTry f z.damaged (bootOrder y.fl) = b
  obtain ⟨tried, ok⟩ := b
  cases ok <;> rfl

end

/-! ## Boundary scan -/

theorem extestEntry_idle {m : Mach} (h : m.hm.extest = true ∨ m.pd.vioA = false) : extestEntry m = m := if_pos (by simpa using h)

theorem extestEntry_parts {m : Mach} (he : m.hm.extest = false) (hv : m.pd.vioA = true) :
    let x := extestEntry m
    x.hm = { Harbour.init with extest := true } ∧ x.pm.dom = [] ∧ x.pm.trans = [] ∧ x.pm.acts = [] ∧ x.st.runs = [] ∧ x.ef.rings = [] ∧
      x.hs.cmds = [] ∧ x.hs.queues = [] := by
  intro x
  have hx : x = _ := if_neg (by simp [he, hv])
  rw [hx]
  exact ⟨rfl, rfl, rfl, rfl, rfl, rfl, rfl, rfl⟩

/-! ## The IO banks -/

/-- A button's pad reads low from now on, where it read high (R723). -/
def lowerBtn (m : Mach) (b : Nat) : Mach :=
  if (btn m b).level then { m with lh := { m.lh with btns := tabSet m.lh.btns b { level := false, since := m.clk.now } Btn.init } } else m

theorem btn_lowerBtn (m : Mach) (b k : Nat) :
    btn (lowerBtn m b) k = if k = b ∧ (btn m b).level = true then { level := false, since := m.clk.now } else btn m k := by
  by_cases h : (btn m b).level = true
  · rw [lowerBtn, if_pos h, btn, tabGet_tabSet]
    simp only [h, and_true]
    rfl
  · rw [lowerBtn, if_neg h, if_neg (by simp [h])]

/-- Lowering a list of buttons changes nothing else. -/
theorem lowerBtns_frame (l : List Nat) (m : Mach) :
    (l.foldl lowerBtn m).pd = m.pd ∧ (l.foldl lowerBtn m).regs = m.regs ∧ (l.foldl lowerBtn m).clk = m.clk := by
  induction l generalizing m with
  | nil => exact ⟨rfl, rfl, rfl⟩
  | cons b l ih =>
    obtain ⟨hpd, hregs, hclk⟩ := ih (lowerBtn m b)
    have hstep : (lowerBtn m b).pd = m.pd ∧ (lowerBtn m b).regs = m.regs ∧ (lowerBtn m b).clk = m.clk := by
      unfold lowerBtn; split <;> exact ⟨rfl, rfl, rfl⟩
    exact ⟨hpd.trans hstep.1, hregs.trans hstep.2.1, hclk.trans hstep.2.2⟩

theorem btn_lowerBtns_low (k : Nat) (l : List Nat) (m : Mach) (h : (btn m k).level = false) : btn (l.foldl lowerBtn m) k = btn m k := by
  induction l generalizing m with
  | nil => rfl
  | cons b l ih =>
    have hstep : btn (lowerBtn m b) k = btn m k := by
      rw [btn_lowerBtn, if_neg (by rintro ⟨rfl, hb⟩; simp [h] at hb)]
    rw [List.foldl_cons, ih _ (by rw [hstep]; exact h), hstep]

theorem level_lowerBtns (k : Nat) (l : List Nat) (m : Mach) (hk : k ∈ l) : (btn (l.foldl lowerBtn m) k).level = false := by
  induction l generalizing m with
  | nil => cases hk
  | cons b l ih =>
    rw [List.foldl_cons]
    rcases List.mem_cons.mp hk with rfl | hk
    · have hlow : (btn (lowerBtn m k) k).level = false := by
        rw [btn_lowerBtn]
        split
        · rfl
        · next h => simpa using h
      rw [btn_lowerBtns_low k l _ hlow, hlow]
    · exact ih _ hk

theorem vioChange_low (m : Mach) (hiV : Bool) :
    vioChange m false false hiV = (List.range 8).foldl lowerBtn { m with pd := { m.pd with vioA := false } } := rfl

theorem vioChange_low_parts (m : Mach) (hiV : Bool) :
    let x := vioChange m false false hiV
    x.pd = { m.pd with vioA := false } ∧ (∀ k < 8, (btn x k).level = false ∧ ((btn m k).level = false → btn x k = btn m k)) ∧
      x.regs = m.regs ∧ x.clk = m.clk := by
  rw [vioChange_low]
  have hbtn : ∀ k, btn { m with pd := { m.pd with vioA := false } } k = btn m k := fun _ => rfl
  obtain ⟨hpd, hregs, hclk⟩ := lowerBtns_frame (List.range 8) { m with pd := { m.pd with vioA := false } }
  refine ⟨hpd, fun k hk => ⟨level_lowerBtns k _ _ (List.mem_range.mpr hk), fun hl => ?_⟩, hregs, hclk⟩
  rw [btn_lowerBtns_low k _ _ (by rw [hbtn]; exact hl), hbtn]

section
variable {s : State} {M : Mach}

theorem leaves_brownOutReset (h : brownOutReset s.taken = M) : Leaves .brownOutReset s M := leaves_effect (f := brownOutReset) rfl h

theorem leaves_keepAliveLoss (h : keepAliveLoss s.taken = M) : Leaves .keepAliveLoss s M := leaves_effect (f := keepAliveLoss) rfl h

theorem leaves_brownOutRelease {z : StartIn} (h : startUp s.fuses z s.taken = M) : Leaves (.brownOutRelease z) s M :=
  leaves_effectF (f := fun f m => startUp f z m) rfl h

theorem leaves_extestEntry (h : extestEntry s.taken = M) : Leaves .extestEntry s M := leaves_effect (f := extestEntry) rfl h

theorem leaves_extestExit (h : (if s.taken.hm.extest then brownOutReset s.taken else s.taken) = M) : Leaves .extestExit s M :=
  leaves_effect (f := fun m => if m.hm.extest then brownOutReset m else m) rfl h

theorem leaves_vioBankSupplyChange {h up hiV : Bool} (hM : vioChange s.taken h up hiV = M) : Leaves (.vioBankSupplyChange h up hiV) s M :=
  leaves_effect (f := fun m => vioChange m h up hiV) rfl hM

end

/-- Settles O48: what the reset and the keep-alive loss keep, the start by the outcome of its training, boundary scan, and the banks by cases. -/
theorem resetAndStart : Obligations.ResetAndStart := by
  unfold Obligations.ResetAndStart
  intro s z kind h up hiV y a m b clocks counted t trained dram ends tried waited
  refine ⟨?_, fun hi => leaves_keepAliveLoss (keepAliveLoss_idle hi), fun hn h2 => ⟨_, leaves_keepAliveLoss rfl, keepAliveLoss_parts hn h2 a⟩,
    fun hs => leaves_brownOutRelease (startUp_none _ z hs),
    fun hs => ⟨fun ht => leaves_brownOutRelease (startUp_trained _ z hs ht), fun ht => leaves_brownOutRelease (startUp_untrained _ z hs ht)⟩,
    startBoot_eq _ z kind a y, fun hi => leaves_extestEntry (extestEntry_idle hi),
    fun he hv => ⟨_, leaves_extestEntry rfl, extestEntry_parts he hv⟩, fun he => leaves_extestExit (if_pos he),
    fun he => leaves_extestExit (if_neg (ne_true_of_eq_false he)), ?_, ?_, ?_⟩
  · obtain ⟨hstart, hfl, hrtc, hlatch, hfresh, hallocs, hgens, hvioA, hvioH, hnow, htick, htk, hcas, hcmds, hrings, hprogs, hhm⟩ :=
      brownOut_parts m (if m.pm.start = some 0 then 0 else 1)
    refine ⟨leaves_brownOutReset rfl, hstart, hfl, hrtc, hlatch, hfresh, hallocs, hgens, hvioA, hvioH, hnow, htick, htk, hcas, hcmds, hrings,
      hprogs, hhm, fun k hk => ?_, fun ha => ?_⟩
    · rw [reg_brownOut, if_pos hk]
    · rw [reg_brownOut, if_neg ha]
  · rintro rfl
    refine leaves_vioBankSupplyChange ?_
    simp only [vioChange, if_true, Bool.and_eq_true, Bool.not_eq_true']
    rfl
  · rintro rfl rfl
    exact leaves_vioBankSupplyChange rfl
  · rintro rfl rfl
    exact ⟨_, leaves_vioBankSupplyChange rfl, vioChange_low_parts m hiV⟩

end Sys2Proof.Machine
end

section
/-!
PROOFS. The machine at reset (R14).
-/
namespace Sys2Proof.Machine

/-- Settles O60: the tick counter starts at 0, and nothing has been raised. -/
theorem keptAtReset : Obligations.KeptAtReset := ⟨by decide, rfl⟩

/-- Settles O54: the register file and every part's lists are empty at reset, so that every register reads its table's value. -/
theorem resetState : Obligations.ResetState := by
  have htable : ∀ a, State.reset.mach.reg a = regReset a := fun _ => rfl
  have hdomains : ∀ d < 96, isOn State.reset.mach d = (d == 26) := by decide
  exact ⟨htable, rfl, rfl, rfl, rfl, rfl, by decide, by decide, by decide, by decide, by decide, by decide, hdomains,
    rfl, rfl, rfl, rfl, rfl, rfl, rfl⟩

end Sys2Proof.Machine
end

section
/-!
PROOFS. The passing of time (R18, R404) and the power commands (R33, R478–R488).
-/
namespace Sys2Proof.Machine

/-- Settles O53: a step on an empty queue is the idle tick, by the reference's state. -/
theorem timePassesWhileIdle : Obligations.TimePassesWhileIdle := by
  unfold Obligations.TimePassesWhileIdle
  intro s hs m
  have hstep : step s = .next { s with mach := idleTick m } := by rw [step, hs]
  refine ⟨fun hr => ?_, fun hr hc => ?_, fun hr hc => ?_⟩ <;> rw [hstep, idleTick]
  · rw [if_neg (by simp [hr])]
  · rw [if_pos hr, hc]; rfl
  · rw [if_pos hr, hc]; rfl

/-! ## The power commands -/

/-- A command that begins reaches its own effect (R553, R674, R678, R697). -/
theorem beginCmd_begins {m : Mach} {cmd : CmdCtx} {op : Nat} {waits : RunCmd → Bool} (h : Begins m cmd op waits) (rf : Nat) (f : Mach → Mach) :
    beginCmd m cmd op rf waits f = f (begun m cmd) := by
  obtain ⟨hmay, hop, ht, hrec, hresv⟩ := h
  have ht' : tenantExists (begun m cmd) cmd.q.val = true := ht
  have hrec' : ¬(inRecovery (begun m cmd) = true ∧ (!recoveryOps.contains op) = true) := by
    rintro ⟨hr, hn⟩
    rw [hrec hr] at hn
    exact absurd hn (by decide)
  show (if _ then _ else if (!tenantExists (begun m cmd) cmd.q.val) = true then _ else
    if inRecovery (begun m cmd) = true ∧ (!recoveryOps.contains op) = true then _ else if cmd.resv = true then _ else f (begun m cmd)) = _
  rw [if_neg (by simp [hmay, hop]), if_neg (by simp [ht']), if_neg hrec', if_neg (by simp [hresv])]

/-- A power command of tenant 0 that begins reaches its own effect (R479). -/
theorem powerCmd_begins {m : Mach} {cmd : CmdCtx} {op : Nat} (hq : cmd.q.val = 0) (h : Begins m cmd op noWait) (f : Mach → Mach) :
    powerCmd m cmd op f = f (begun m cmd) := by
  have h' : Begins m { cmd with resv := false } op noWait := ⟨h.1, h.2.1, h.2.2.1, h.2.2.2.1, rfl⟩
  have hresv : cmd.resv = false := h.2.2.2.2
  rw [powerCmd, beginCmd_begins h']
  simp only [hq, ne_eq, not_true_eq_false, if_false, hresv, Bool.false_eq_true]
  rfl

/-- A power command of tenant 0 that begins leaves what its own effect leaves. -/
theorem leaves_powerCmd {i : Instr} {s : State} {cmd : CmdCtx} {op : Nat} {f : Mach → Mach} {M : Mach}
    (hi : exec i s = s.effect (fun m => powerCmd m cmd op f)) (hq : cmd.q.val = 0) (h : Begins s.taken cmd op noWait)
    (hM : f (begun s.taken cmd) = M) : Leaves i s M :=
  leaves_effect hi (by rw [powerCmd_begins hq h, hM])

/-- A command that takes time changes the list of commands alone. -/
theorem running_pm (m : Mach) (q cid op w : Nat) (c : Option Cpl) (objs : List Nat) (lo hi : Nat) :
    (running m q cid op w c objs lo hi).pm = m.pm := by
  unfold running; dsimp only; split <;> rfl

theorem not_decide_iff {P : Prop} [Decidable P] : (!decide P) = true ↔ ¬P := by simp

/-- Settles O34: each command by its fault, its WAIT and what it asks for. -/
theorem powerCommands : Obligations.PowerCommands := by
  unfold Obligations.PowerCommands
  intro s cmd p m b W a hostFirst late F waiting k order
  refine ⟨fun hq hb => ?_, fun hq hb => ?_, fun hq hb => ?_⟩
  · have hi : exec (.pwrSet cmd p) s = s.effect (fun m => powerCmd m cmd 0x48 _) := rfl
    refine ⟨fun hf => ?_, fun hf hw => ?_, fun hf hw hh => ?_⟩ <;> refine leaves_powerCmd hi hq hb ?_
    · rw [hq]; exact if_pos hf
    · refine (if_neg (not_not.2 hf)).trans (if_neg fun h => ?_)
      rcases hw with hw | ⟨h0, h17, hr⟩
      · exact Bool.false_ne_true (hw.symm.trans h.1)
      · exact not_decide_iff.1 h.2 ⟨h0, h17, congrArg (!·) hr⟩
    · refine (if_neg (not_not.2 hf)).trans (if_pos ⟨hw, not_decide_iff.2 ?_⟩)
      exact fun ⟨h0, h17, hr⟩ => hh ⟨h0, h17, Bool.eq_false_of_not_eq_true' hr⟩
  · have hi : exec (.perfSet cmd p) s = s.effect (fun m => powerCmd m cmd 0x49 _) := rfl
    have hkeep : F.pl = 0xFF → F.s = 0xFF → acceptPerf b F = b := fun hpl hs => if_pos ⟨hpl, hs⟩
    have hset : ¬(F.pl = 0xFF ∧ F.s = 0xFF) → acceptPerf b F = _ := fun hn => if_neg hn
    refine ⟨fun hf => ?_, fun hf hpl hs => ?_, fun hf hn => ⟨by rw [hset hn]; rfl, by rw [hset hn]; rfl, fun hw => ?_, fun hw => ?_⟩⟩
    · exact leaves_powerCmd hi hq hb (by rw [hq]; exact if_pos hf)
    · refine leaves_powerCmd hi hq hb ((if_neg (not_not.2 hf)).trans ((if_neg fun h => ?_).trans ?_))
      · exact not_decide_iff.1 h.2 ⟨hpl, hs⟩
      · rw [hq]; exact congrArg (complete · 0 cmd.cid 0x49 0 0 0) (hkeep hpl hs)
    · refine leaves_powerCmd hi hq hb ((if_neg (not_not.2 hf)).trans ((if_neg fun h => ?_).trans (by rw [hq])))
      exact Bool.false_ne_true (hw.symm.trans h.1)
    · refine leaves_powerCmd hi hq hb ((if_neg (not_not.2 hf)).trans ((if_pos ⟨hw, not_decide_iff.2 hn⟩).trans ?_))
      have hp : waiting.pm.perfWait = m.pm.perfWait := by
        rw [show waiting.pm = (acceptPerf b F).pm from running_pm .., hset hn]; rfl
      show { waiting with pm := { waiting.pm with perfWait := waiting.pm.perfWait ++ [(0, cmd.cid)] } } = _
      rw [hp]
  · have hi : exec (.standingOrder cmd p) s = s.effect (fun m => powerCmd m cmd 0x4A _) := rfl
    refine ⟨fun hf => ?_, fun hf hr => ?_, fun hf hr => ?_⟩ <;> refine leaves_powerCmd hi hq hb ?_
    · rw [hq]; exact if_pos hf
    · refine (if_neg (not_not.2 hf)).trans ?_
      simp only [hr, hq, if_true]
      rfl
    · refine (if_neg (not_not.2 hf)).trans ?_
      simp only [hr, hq, if_false, Bool.false_eq_true]
      rfl

end Sys2Proof.Machine
end

section
/-!
PROOFS. What the operations of the model leave of the time: device time and the tick counter (R17, R403), in the order of the definitions.
-/
namespace Sys2Proof.Machine

/-- Device time and the tick counter. -/
def Mach.time (m : Mach) : Nat × Nat := (m.clk.now, m.clk.tick)

@[simp] theorem Mach.time_mk (a b c clk d e f g h i j k l n o p q r s t u v) :
    (Mach.mk a b c clk d e f g h i j k l n o p q r s t u v).time = (clk.now, clk.tick) := (rfl)

@[simp] theorem Mach.time_pair (m : Mach) : (m.clk.now, m.clk.tick) = m.time := (rfl)

@[simp] theorem time_ite (c : Prop) [Decidable c] (a b : Mach) : (if c then a else b).time = if c then a.time else b.time := apply_ite ..

@[simp] theorem time_foldl {α : Type} (f : Mach → α → Mach) (hf : ∀ m x, (f m x).time = m.time) (l : List α) (m : Mach) :
    (l.foldl f m).time = m.time := by
  induction l generalizing m with
  | nil => rfl
  | cons x l ih => exact (ih _).trans (hf m x)

@[simp] theorem time_foldl_fst {α β : Type} (f : Mach × β → α → Mach × β) (hf : ∀ p x, (f p x).1.time = p.1.time) (l : List α) (p : Mach × β) :
    (l.foldl f p).1.time = p.1.time := by
  induction l generalizing p with
  | nil => rfl
  | cons x l ih => exact (ih _).trans (hf p x)

theorem SameParts.time {m m' : Mach} (h : SameParts m m') : m'.time = m.time := Prod.ext h.now h.tick

/-! ## The operations of Mach.lean -/

@[simp] theorem Mach.setReg_time (m a w) : (Mach.setReg m a w).time = m.time := (sameParts_setReg ..).time

@[simp] theorem Mach.setRegN_time (m a v) : (Mach.setRegN m a v).time = m.time := (sameParts_setRegN ..).time

@[simp] theorem Mach.setFldOf_time (m a lo n v) : (Mach.setFldOf m a lo n v).time = m.time := (rfl)

@[simp] theorem Mach.setFlagOf_time (m a i b) : (Mach.setFlagOf m a i b).time = m.time := (sameParts_setFlagOf ..).time

@[simp] theorem Mach.incFld_time (m a lo n d) : (Mach.incFld m a lo n d).time = m.time := (sameParts_incFld ..).time

@[simp] theorem Mach.satFld_time (m a lo n d) : (Mach.satFld m a lo n d).time = m.time := (sameParts_satFld ..).time

@[simp] theorem Mach.setReg64_time (m a v) : (Mach.setReg64 m a v).time = m.time := (rfl)

@[simp] theorem Mach.emit_time (m o) : (Mach.emit m o).time = m.time := (sameParts_emit ..).time

/-! ## The operations of Ops.lean -/

@[simp] theorem Mach.draw_time (m) : (Mach.draw m).2.time = m.time := (rfl)

@[simp] theorem raiseAt_time (m code tenant device slot cycle info) :
    (raiseAt m code tenant device slot cycle info).time = m.time := (sameParts_raiseAt ..).time

@[simp] theorem raiseT_time (m code tenant info) : (raiseT m code tenant info).time = m.time := (sameParts_raiseT ..).time

@[simp] theorem raiseD_time (m code info) : (raiseD m code info).time = m.time := (sameParts_raiseD ..).time

@[simp] theorem sendVec_time (m v) : (sendVec m v).time = m.time := (sameParts_sendVec ..).time

@[simp] theorem writeTenantRing_time (m r0) : (writeTenantRing m r0).time = m.time := (sameParts_writeTenantRing ..).time

@[simp] theorem writeDevRing_time (m r) : (writeDevRing m r).time = m.time := (sameParts_writeDevRing ..).time

@[simp] theorem writeRec_time (m r) : (writeRec m r).time = m.time := (sameParts_writeRec ..).time

@[simp] theorem flushFaults_time (m) : (flushFaults m).time = m.time := (sameParts_flushFaults ..).time

@[simp] theorem flushHeldRecs_time (m) : (flushHeldRecs m).time = m.time := by simp [flushHeldRecs]

@[simp] theorem setQueue_time (m t q) : (setQueue m t q).time = m.time := (sameParts_setQueue ..).time

@[simp] theorem coalesce_time (m t) : (coalesce m t).time = m.time := (sameParts_coalesce ..).time

@[simp] theorem writeCpl_time (m c) : (writeCpl m c).time = m.time := (sameParts_writeCpl ..).time

@[simp] theorem postCpl_time (m c) : (postCpl m c).time = m.time := (sameParts_postCpl ..).time

@[simp] theorem dropCmd_time (m q cid) : (dropCmd m q cid).time = m.time := (sameParts_dropCmd ..).time

@[simp] theorem complete_time (m q cid op status result detail) :
    (complete m q cid op status result detail).time = m.time := (sameParts_complete ..).time

@[simp] theorem running_time (m q cid op wait c objs lo hi) : (running m q cid op wait c objs lo hi).time = m.time := by simp [running]

@[simp] theorem setCmd_time (m q cid wait c) : (setCmd m q cid wait c).time = m.time := (rfl)

@[simp] theorem refuse_time (m q cid op code detail) : (refuse m q cid op code detail).time = m.time := (sameParts_refuse ..).time

@[simp] theorem beginCmd_time (m cmd op r w f) (hf : ∀ m, (f m).time = m.time) : (beginCmd m cmd op r w f).time = m.time := by
  simp [beginCmd, hf]

@[simp] theorem notice_time (m q op status result detail cls) :
    (notice m q op status result detail cls).time = m.time := (sameParts_notice ..).time

@[simp] theorem beginTrans_time (m a) : (beginTrans m a).time = m.time := (sameParts_beginTrans ..).time

@[simp] theorem pumpActs_time (a a1 m) : (pumpActs a a1 m).time = m.time := (sameParts_pumpActs ..).time

@[simp] theorem setMasks_time (m changed offline) : (setMasks m changed offline).time = m.time := (sameParts_setMasks ..).time

@[simp] theorem finishReqs_time (m) : (finishReqs m).time = m.time := (sameParts_finishReqs ..).time

@[simp] theorem pumpPower_time (m) : (pumpPower m).time = m.time := (sameParts_pumpPower ..).time

@[simp] theorem acceptPower_time (m named st seam req) :
    (acceptPower m named st seam req).1.time = m.time := (sameParts_acceptPower ..).time

@[simp] theorem raiseDomains_time (m ds) : (raiseDomains m ds).time = m.time := (sameParts_raiseDomains ..).time

@[simp] theorem acceptPerf_time (m p) : (acceptPerf m p).time = m.time := (sameParts_acceptPerf ..).time

@[simp] theorem doWake_time (m w replayed) : (doWake m w replayed).time = m.time := (sameParts_doWake ..).time

@[simp] theorem wake_time (m w) : (wake m w).time = m.time := (sameParts_wake ..).time

@[simp] theorem replayWakes_time (m) : (replayWakes m).time = m.time := by simp [replayWakes]

@[simp] theorem orderCounted_time (m k rept) : (orderCounted m k rept).time = m.time := (sameParts_orderCounted ..).time

@[simp] theorem orderAct_time (m k o) : (orderAct m k o).1.time = m.time := (sameParts_orderAct ..).time

@[simp] theorem fireOrder_time (m k o code) : (fireOrder m k o code).time = m.time := (sameParts_fireOrder ..).time

@[simp] theorem fireOrders_time (m code) : (fireOrders m code).time = m.time := (sameParts_fireOrders ..).time

@[simp] theorem eventPosted_time (m code) : (eventPosted m code).time = m.time := (sameParts_eventPosted ..).time

@[simp] theorem postEvent_time (m code tenant) : (postEvent m code tenant).time = m.time := (sameParts_postEvent ..).time

/-! ## The operations of Effect.lean -/

@[simp] theorem wakeHost_time (m) : (wakeHost m).time = m.time := (sameParts_wakeHost ..).time

/-! ## The operations of Slots.lean -/

@[simp] theorem putRun_time (m r) : (putRun m r).time = m.time := (rfl)

@[simp] theorem raiseIns_time (m code r i) : (raiseIns m code r i).time = m.time := (rfl)

@[simp] theorem haltAtSeam_time (m t) : (haltAtSeam m t).time = m.time := (rfl)

@[simp] theorem offlineAtSeam_time (m d) : (offlineAtSeam m d).time = m.time := (rfl)

@[simp] theorem countChoice_time (m t cause) : (countChoice m t cause).time = m.time := (rfl)

@[simp] theorem setOutcome_time (m n v) : (setOutcome m n v).time = m.time := (rfl)

@[simp] theorem idleRuns_time (m) : (idleRuns m).time = m.time := by
  simp only [idleRuns, Mach.time_mk, Mach.time_pair]
  exact time_foldl _ (fun m n => setOutcome_time ..) _ _

/-! ## The operations of Cascade.lean -/

@[simp] theorem putCasc_time (m c) : (putCasc m c).time = m.time := (rfl)

@[simp] theorem postCas_time (m t stage kind cause) : (postCas m t stage kind cause).time = m.time := by
  unfold postCas; dsimp only; repeat' split
  all_goals simp

@[simp] theorem enableStage_time (m c j st d) : (enableStage m c j st d).time = m.time := by simp [enableStage]

@[simp] theorem becomeSpec_time (m t j d cause) : (becomeSpec m t j d cause).time = m.time := by unfold becomeSpec; split <;> simp

@[simp] theorem becomeLive_time (m t j d cause) : (becomeLive m t j d cause).time = m.time := by unfold becomeLive; split <;> simp

@[simp] theorem commitAt_time (m t j flip) : (commitAt m t j flip).time = m.time := by
  unfold commitAt; dsimp only; repeat' split
  all_goals simp

@[simp] theorem dropOne_time (expired cause m t j e) : (dropOne expired cause m t j e).time = m.time := by
  unfold dropOne; dsimp only; repeat' split
  all_goals simp

@[simp] theorem dropBond_time (m t j e expired cause) : (dropBond m t j e expired cause).time = m.time := by unfold dropBond; split <;> simp

@[simp] theorem actOnSlot_time (m t j dec d c) : (actOnSlot m t j dec d c).1.time = m.time := by
  unfold actOnSlot; split
  · rfl
  · split
    · simp
    · simp
    · split <;> simp
    · simp
    · rfl

@[simp] theorem actOnNext_time (m t k dec v d c) : (actOnNext m t k dec v d c).1.time = m.time := by
  unfold actOnNext; split
  · rfl
  · split
    · split <;> simp
    · simp
    · simp
    · rfl

@[simp] theorem retire_time (m t k dec) : (retire m t k dec).1.time = m.time := by
  unfold retire; dsimp only; repeat' split
  all_goals simp

@[simp] theorem decideLive_time (m t k dec v d) : (decideLive m t k dec v d).time = m.time := by simp [decideLive]

@[simp] theorem decideSpec_time (m t k dec d) : (decideSpec m t k dec d).time = m.time := by unfold decideSpec; split <;> simp

@[simp] theorem publish_time (m t k v d) : (publish m t k v d).time = m.time := by
  unfold publish; dsimp only; repeat' split
  all_goals simp

@[simp] theorem beginFlip_time (m t j) : (beginFlip m t j).time = m.time := by
  unfold beginFlip; dsimp only; repeat' split
  all_goals simp

@[simp] theorem beginFlips_time (m cyc) : (beginFlips m cyc).time = m.time := by simp [beginFlips]

@[simp] theorem disarmNow_time (m t) : (disarmNow m t).time = m.time := by
  unfold disarmNow; dsimp only; repeat' split
  all_goals simp

@[simp] theorem creditHeatList_time (m l) (f : Mach → Nat → Nat → Mach) (hf : ∀ m a b, (f m a b).time = m.time) :
    (creditHeatList m l f).time = m.time :=
  time_foldl _ (fun m h => hf ..) _ _

@[simp] theorem endFlip_time (credit note m t j d) (hc : ∀ m a b, (credit m a b).time = m.time) (hn : ∀ m n, (note m n).time = m.time) :
    (endFlip credit note m t j d).time = m.time := by
  unfold endFlip; split
  · rfl
  · split
    · rfl
    · split
      · rfl
      · extract_lets a b c d e f g h
        have he : f.time = m.time := by simp [a, b, c, d, e, f, time_foldl _ hn, creditHeatList, hc]
        have hg : g.time = f.time := time_foldl _ (fun m k => by split <;> simp) _ _
        have hh : h.time = g.time := by
          unfold h; split
          · split <;> simp
          · rfl
        rw [← he, ← hg, ← hh]
        split
        · simp
        · rfl

@[simp] theorem setNumFlags_time (m r mask) : (setNumFlags m r mask).time = m.time := by
  unfold setNumFlags; split
  · rfl
  · split
    · split <;> simp
    · simp

/-! ## The operations of Operands.lean -/

@[simp] theorem writeS_time (m bank r v) : (writeS m bank r v).time = m.time := (rfl)

@[simp] theorem writeP_time (m bank p v) : (writeP m bank p v).time = m.time := by simp [writeP]

@[simp] theorem writeD_time (m bank r v) : (writeD m bank r v).time = m.time := (rfl)

@[simp] theorem writeV_time (m cl r v) : (writeV m cl r v).time = m.time := (rfl)

@[simp] theorem setBerthByte_time (m a b) : (setBerthByte m a b).time = m.time := (rfl)

/-! ## The operations of Micro.lean -/

@[simp] theorem lhWrite_time (m a bs) : (lhWrite m a bs).time = m.time := (rfl)

@[simp] theorem microStart_time (m r i c) : (microStart m r i c).1.time = m.time := by
  unfold microStart; dsimp only; repeat' split
  all_goals simp

@[simp] theorem portPublish_time (m r c v) : (portPublish m r c v).time = m.time := by unfold portPublish; split <;> simp

/-! ## The operations of Memory.lean -/

@[simp] theorem putAlloc_time (m a) : (putAlloc m a).time = m.time := (rfl)

@[simp] theorem createAlloc_time (m t flags pages) : (createAlloc m t flags pages).1.time = m.time := (rfl)

@[simp] theorem addWrite_time (m act q cid xf) : (addWrite m act q cid xf).time = m.time := (rfl)

@[simp] theorem touchPage_time (m h gen off n) : (touchPage m h gen off n).time = m.time := by unfold touchPage; split <;> simp

@[simp] theorem storeAlloc_time (m h gen off bs) : (storeAlloc m h gen off bs).time = m.time := by unfold storeAlloc; split <;> simp

@[simp] theorem writeAlloc_time (m a off bs q cid xf) : (writeAlloc m a off bs q cid xf).time = m.time := by simp [writeAlloc]

@[simp] theorem finish_time (m q cid op result detail objs) : (finish m q cid op result detail objs).time = m.time := by simp [finish]

@[simp] theorem taking_time (m q cid op result objs lo hi) : (taking m q cid op result objs lo hi).time = m.time := by simp [taking]

@[simp] theorem writeRef_time (m t cid r bs) : (writeRef m t cid r bs).time = m.time := by
  unfold writeRef; dsimp only; repeat' split
  all_goals simp

@[simp] theorem withRef_time (m cmd op r b) (f : List Byte → Mach) (hf : ∀ d, (f d).time = m.time) :
    (withRef m cmd op r b f).time = m.time := by
  unfold withRef; dsimp only; split
  · simp
  · split
    · exact hf _
    · simp

@[simp] theorem creditHeat_time (m key n) : (creditHeat m key n).time = m.time := by unfold creditHeat; split <;> simp

@[simp] theorem decayHeat_time (m) : (decayHeat m).time = m.time := (rfl)

@[simp] theorem raiseSlot_time (m code tenant slot info) : (raiseSlot m code tenant slot info).time = m.time := (rfl)

@[simp] theorem failRun_time (m code tenant slot) : (failRun m code tenant slot).time = m.time := by simp [failRun]

@[simp] theorem putList_time (m l) : (putList m l).time = m.time := (rfl)

@[simp] theorem runNotice_time (m slot tenant tick status cls) :
    (runNotice m slot tenant tick status cls).time = m.time := by simp [runNotice]

@[simp] theorem listEnd_time (m id) : (listEnd m id).time = m.time := by
  unfold listEnd; dsimp only; repeat' split
  all_goals simp

@[simp] theorem dropXfer_time (m x) : (dropXfer m x).time = m.time := by simp [dropXfer]

@[simp] theorem failList_time (m id code) : (failList m id code).time = m.time := by unfold failList; split <;> simp

@[simp] theorem writeBerths_time (m addr bs) : (writeBerths m addr bs).time = m.time := (rfl)

@[simp] theorem moveBytes_time (m x n) : (moveBytes m x n).time = m.time := by unfold moveBytes; split <;> simp

@[simp] theorem abortOne_time (st m x) : (abortOne st m x).time = m.time := by simp [abortOne]

@[simp] theorem abortXfers_time (m p st) : (abortXfers m p st).time = m.time := by simp [abortXfers]

@[simp] theorem abortWrites_time (m p) : (abortWrites m p).time = m.time := (rfl)

@[simp] theorem endCmdsOn_time (m k) : (endCmdsOn m k).time = m.time := (rfl)

@[simp] theorem dropAlloc_time (m h) : (dropAlloc m h).time = m.time := by unfold dropAlloc; split <;> simp

/-! ## The operations of CasCmds.lean -/

@[simp] theorem armNow_time (m c) : (armNow m c).time = m.time := by simp [armNow]

@[simp] theorem casCommand_time (m cmd op t) (f : Casc → Mach) (hf : ∀ c, (f c).time = m.time) :
    (casCommand m cmd op t f).time = m.time := by
  unfold casCommand; split
  · simp
  · split
    · simp
    · exact hf _

@[simp] theorem endDisarm_time (m t) : (endDisarm m t).time = m.time := by
  unfold endDisarm; split
  · rfl
  · exact time_foldl _ (fun m c => setCmd_time ..) _ _

@[simp] theorem expireBonds_time (m) : (expireBonds m).time = m.time := by simp [expireBonds]

/-! ## The operations of Seq.lean -/

@[simp] theorem applyLand_time (m r a) : (applyLand m r a).time = m.time := by unfold applyLand; split <;> simp

@[simp] theorem raiseRange_time (m r i) : (raiseRange m r i).1.time = m.time := by unfold raiseRange; split <;> simp

@[simp] theorem raisePort_time (m r i) : (raisePort m r i).1.time = m.time := by unfold raisePort; split <;> simp

@[simp] theorem raiseMet_time (m r i range port) : (raiseMet m r i range port).1.time = m.time := by
  unfold raiseMet; dsimp only; repeat' split
  all_goals simp

@[simp] theorem writeBytes_time (r lim lost m a bs) : (writeBytes r lim lost m a bs).time = m.time := by
  induction bs generalizing m a with
  | nil => rfl
  | cons b bs ih => simp [writeBytes, ih]

@[simp] theorem writeBeat_time (m r lost b bs) : (writeBeat m r lost b bs).time = m.time := by simp [writeBeat]

@[simp] theorem taskStore_time (m r i c a bs) : (taskStore m r i c a bs).1.time = m.time := by
  unfold taskStore; dsimp only; repeat' split
  all_goals simp

@[simp] theorem serveWrite_time (cs k m r a) : (serveWrite cs k m r a).1.time = m.time := by
  unfold serveWrite; split
  · split
    · split <;> simp
    · simp
  · simp
  · split <;> simp
  · split
    · rfl
    · simp [apply_ite]
  · split
    · rfl
    · simp [apply_ite]
  · simp
  · rfl

@[simp] theorem serveRead_time (cs k m r a) : (serveRead cs k m r a).1.time = m.time := by
  unfold serveRead; dsimp only; repeat' split
  all_goals simp

@[simp] theorem markHolds_time (cs k m r) : (markHolds cs k m r).1.time = m.time := by
  refine time_foldl_fst _ (fun p h => ?_) _ _
  split <;> simp

@[simp] theorem runCycle_time (m r k) : (runCycle m r k).1.time = m.time := by
  simp [runCycle]

@[simp] theorem runTo_time (n m r t) : (runTo n m r t).1.time = m.time := by
  induction n generalizing m r with
  | zero => rfl
  | succ n ih =>
    unfold runTo; split
    · rfl
    · split
      · rfl
      · simp [ih]

@[simp] theorem catchUp_time (m r til) : (catchUp m r til).1.time = m.time := by simp [catchUp]

@[simp] theorem closeRun_time (m r) : (closeRun m r).1.time = m.time := by simp [closeRun]

/-! ## The operations of Tensor.lean -/

@[simp] theorem raiseParity_time (m c code d) : (raiseParity m c code d).time = m.time := (rfl)

@[simp] theorem tResult_time (m c par win ds occ bad mode cells fl) : (tResult m c par win ds occ bad mode cells fl).2.time = m.time := by
  show ((List.foldl _ (List.foldl _ m _) _) : Mach).time = _
  exact (time_foldl _ (fun m q => raiseParity_time ..) _ _).trans (time_foldl _ (fun m q => raiseParity_time ..) _ _)

@[simp] theorem mmaIns_time (par df acc dst src1 src2 m c) : (mmaIns par df acc dst src1 src2 m c).2.time = m.time := by
  unfold mmaIns; dsimp only; repeat' split
  all_goals simp

@[simp] theorem convIns_time (par df acc pack dst s1 s2 s3 m c) : (convIns par df acc pack dst s1 s2 s3 m c).2.time = m.time := by
  simp only [convIns, apply_ite Prod.snd, time_ite, tResult_time, ite_self]

@[simp] theorem poolIns_time (par mode dst src1 src3 m c) : (poolIns par mode dst src1 src3 m c).2.time = m.time := by
  unfold poolIns; dsimp only; repeat' split
  all_goals simp

/-! ## The operations of Vector.lean -/

@[simp] theorem vParityFx_time (m c par) : (vParityFx m c par).time = m.time :=
  time_foldl _ (fun m q => raiseParity_time ..) _ _

@[simp] theorem vMap_time (par g ty w dst f m c) : (vMap par g ty w dst f m c).2.time = m.time := by simp [vMap]

@[simp] theorem v1_time (par g f ty dst a m c) : (v1 par g f ty dst a m c).2.time = m.time := by simp [v1]

@[simp] theorem v2_time (par g f ty dst a b m c) : (v2 par g f ty dst a b m c).2.time = m.time := by simp [v2]

@[simp] theorem v3_time (par g f ty dst a b s m c) : (v3 par g f ty dst a b s m c).2.time = m.time := by simp [v3]

@[simp] theorem vcvt_time (par ty ty2 dst a m c) : (vcvt par ty ty2 dst a m c).2.time = m.time := by simp [vcvt]

@[simp] theorem vbcast_time (par ty dst s m c) : (vbcast par ty dst s m c).2.time = m.time := by simp [vbcast]

@[simp] theorem vext_time (par ty dst a lane m c) : (vext par ty dst a lane m c).2.time = m.time := by
  unfold vext; dsimp only; repeat' split
  all_goals simp

@[simp] theorem vred_time (par op ty dst a m c) : (vred par op ty dst a m c).2.time = m.time := by simp [vred]

@[simp] theorem vgather_time (par dst src1 src2 m c) : (vgather par dst src1 src2 m c).2.time = m.time := by
  unfold vgather; dsimp only; repeat' split
  all_goals simp

@[simp] theorem vscatter_time (par src1 src2 src3 m c) : (vscatter par src1 src2 src3 m c).2.time = m.time := by
  unfold vscatter; dsimp only; repeat' split
  all_goals simp

/-! ## The operations of CascadeIns.lean -/

@[simp] theorem confIns_time (s m c) : (confIns s m c).2.time = m.time := by
  unfold confIns; split
  · rfl
  · split <;> simp

@[simp] theorem wakeStage_time (m c j) : (wakeStage m c j).time = m.time := by unfold wakeStage; split <;> simp

@[simp] theorem wakeIns_time (event target m c) : (wakeIns event target m c).2.time = m.time := by
  unfold wakeIns; dsimp only; repeat' split
  all_goals simp

@[simp] theorem bondOpenIns_time (src m c) : (bondOpenIns src m c).2.time = m.time := by
  unfold bondOpenIns; dsimp only; repeat' split
  all_goals simp

@[simp] theorem bondCommitIns_time (j m c) : (bondCommitIns j m c).2.time = m.time := by
  unfold bondCommitIns; dsimp only; repeat' split
  all_goals simp

@[simp] theorem bondDropIns_time (s m c) : (bondDropIns s m c).2.time = m.time := by
  unfold bondDropIns; split
  · rfl
  · split <;> simp

/-! ## The operations of Cranes.lean -/

@[simp] theorem storeManifest_time (m t d) : (storeManifest m t d).1.time = m.time := (rfl)

@[simp] theorem releaseList_time (m slot kind tenant x spec fabric notice) :
    (releaseList m slot kind tenant x spec fabric notice).time = m.time := by simp [releaseList]

@[simp] theorem abandonFeed_time (m slot) : (abandonFeed m slot).time = m.time := by unfold abandonFeed; split <;> simp

@[simp] theorem releaseInputs_time (m slot tenant x spec fabric) :
    (releaseInputs m slot tenant x spec fabric).time = m.time := by simp [releaseInputs]

@[simp] theorem issueXfer_time (m id) : (issueXfer m id).time = m.time := by unfold issueXfer; split <;> simp

@[simp] theorem addReads_time (m reads) : (addReads m reads).time = m.time := by simp [addReads]

@[simp] theorem addCorrected_time (m n) : (addCorrected m n).time = m.time := (rfl)

@[simp] theorem poisonPage_time (m a p dram) : (poisonPage m a p dram).time = m.time := by simp [poisonPage]

@[simp] theorem releaseOld_time (m h gen p) : (releaseOld m h gen p).time = m.time := by unfold releaseOld; split <;> simp

@[simp] theorem completeXfer_time (m id e ce reads) : (completeXfer m id e ce reads).time = m.time := by
  unfold completeXfer; dsimp only; repeat' split
  all_goals simp

@[simp] theorem overtake_time (m berths) : (overtake m berths).time = m.time := by simp [overtake]

@[simp] theorem startCopy_time (m h p) : (startCopy m h p).time = m.time := by unfold startCopy; split <;> simp

@[simp] theorem evalPage_time (m e) : (evalPage m e).time = m.time := by
  unfold evalPage; dsimp only; repeat' split
  all_goals simp

@[simp] theorem handover_time (m e) : (handover m e).time = m.time := by unfold handover; split <;> simp

@[simp] theorem handovers_time (es left m) : (handovers es left m).time = m.time := by
  induction es generalizing left m with
  | nil => rfl
  | cons e es ih => simp [handovers, ih]

@[simp] theorem placement_time (m tick) : (placement m tick).time = m.time := by simp [placement]

@[simp] theorem writeRes_time (m ctx t x v) : (writeRes m ctx t x v).time = m.time := by simp [writeRes]

/-! ## The operations of Flash.lean -/

@[simp] theorem extendLog_time (m t k digest) : (extendLog m t k digest).time = m.time := (rfl)

@[simp] theorem logProgram_time (m t k h digest) : (logProgram m t k h digest).time = m.time := (rfl)

@[simp] theorem unlogProgram_time (m t k h) : (unlogProgram m t k h).time = m.time := (rfl)

@[simp] theorem logWeights_time (m t id version digest h gen) : (logWeights m t id version digest h gen).time = m.time := (rfl)

@[simp] theorem setIngest_time (m i) : (setIngest m i).time = m.time := (rfl)

@[simp] theorem imageVisible_time (m) : (imageVisible m).time = m.time := by unfold imageVisible; split <;> simp

@[simp] theorem applyFtl_time (m r) : (applyFtl m r).time = m.time := by simp [applyFtl]

@[simp] theorem settle_time (ws es m) : (settle ws es m).time = m.time := by
  induction ws generalizing es m with
  | nil => simp [settle]
  | cons w ws ih =>
    unfold settle; split
    · split <;> simp [ih]
    · exact ih ..

@[simp] theorem wakeCmd_time (m q cid) : (wakeCmd m q cid).time = m.time := by unfold wakeCmd; split <;> simp

@[simp] theorem formatFlash_time (m) : (formatFlash m).time = m.time := by simp [formatFlash]

@[simp] theorem recordDurable_time (m t) : (recordDurable m t).time = m.time := (rfl)

@[simp] theorem eraseDurable_time (m t) : (eraseDurable m t).time = m.time := (rfl)

@[simp] theorem durableAct_time (m w) : (durableAct m w).time = m.time := by unfold durableAct; split <;> simp

@[simp] theorem settleUnlock_time (m) : (settleUnlock m).time = m.time := by simp [settleUnlock]

@[simp] theorem makeDurable_time (m id r) : (makeDurable m id r).time = m.time := by
  unfold makeDurable; dsimp only; repeat' split
  all_goals simp

@[simp] theorem enterInhibit_time (m) : (enterInhibit m).time = m.time := by simp [enterInhibit]

@[simp] theorem undoAct_time (m w) : (undoAct m w).time = m.time := by unfold undoAct; split <;> simp

@[simp] theorem leaveInhibit_time (m) : (leaveInhibit m).time = m.time := by
  unfold leaveInhibit; dsimp only; split
  · simp
  · refine (time_foldl _ (fun m w => ?_) _ _).trans (by simp)
    split
    · split <;> split <;> simp
    · split <;> simp

@[simp] theorem mountFlash_time (m) : (mountFlash m).time = m.time := by
  unfold mountFlash; dsimp only; repeat' split
  all_goals simp

@[simp] theorem mountFail_time (m) : (mountFail m).time = m.time := (rfl)

/-! ## The operations of Delivery.lean -/

@[simp] theorem showIlim_time (m) : (showIlim m).time = m.time := (rfl)

@[simp] theorem measureSupply_time (m vb vr) : (measureSupply m vb vr).time = m.time := by
  unfold measureSupply; dsimp only; rw [showIlim_time, Mach.time_mk, Mach.time_pair]; simp

@[simp] theorem cutRun_time (c m r) : (cutRun c m r).time = m.time := by
  unfold cutRun; dsimp only; repeat' split
  all_goals simp

@[simp] theorem cutRuns_time (m c) : (cutRuns m c).time = m.time := by simp [cutRuns]

@[simp] theorem endPerf_time (m status) : (endPerf m status).time = m.time := by simp [endPerf]

@[simp] theorem clearPend_time (m) : (clearPend m).time = m.time := (rfl)

@[simp] theorem reportBlocked_time (m) : (reportBlocked m).time = m.time := by simp [reportBlocked]

@[simp] theorem sampleNtc_time (m bad) : (sampleNtc m bad).time = m.time := by simp [sampleNtc]

@[simp] theorem sampleThermal_time (m f) : (sampleThermal m f).time = m.time := by simp [sampleThermal]

@[simp] theorem thermalOrder_time (m) : (thermalOrder m).time = m.time := by simp [thermalOrder]

@[simp] theorem thermalRecover_time (m) : (thermalRecover m).time = m.time := by simp [thermalRecover]

@[simp] theorem thermalSeam_time (m) : (thermalSeam m).time = m.time := by simp [thermalSeam]

@[simp] theorem retentionOrder_time (m) : (retentionOrder m).time = m.time := by simp [retentionOrder]

@[simp] theorem setSag_time (m i b) : (setSag m i b).time = m.time := (rfl)

@[simp] theorem profileSeam_time (m) : (profileSeam m).time = m.time := by unfold profileSeam; split <;> simp

@[simp] theorem reservoirSeam_time (m) : (reservoirSeam m).time = m.time := by simp [reservoirSeam]

@[simp] theorem deliverySeam_time (m) : (deliverySeam m).time = m.time := by simp [deliverySeam]

@[simp] theorem thermalShutdown_time (m) : (thermalShutdown m).time = m.time := by simp [thermalShutdown]

/-! ## The operations of Link.lean -/

@[simp] theorem setPort_time (m p c) : (setPort m p c).time = m.time := (rfl)

@[simp] theorem discardFlits_time (m cause n) : (discardFlits m cause n).time = m.time := by
  unfold discardFlits; dsimp only; repeat' split
  all_goals simp

@[simp] theorem countNoRecord_time (m n) : (countNoRecord m n).time = m.time := by simp [countNoRecord]

@[simp] theorem sendAck_time (m p nak) : (sendAck m p nak).time = m.time := (rfl)

@[simp] theorem freeBuf_time (m p cls) : (freeBuf m p cls).time = m.time := by simp [freeBuf]

@[simp] theorem pumpPort_time (p n m) : (pumpPort p n m).time = m.time := by
  induction n generalizing m with
  | zero => rfl
  | succ n ih =>
    unfold pumpPort; dsimp only; split
    · rfl
    · split
      · rfl
      · simp [ih]

@[simp] theorem enqueue_time (m p f) : (enqueue m p f).time = m.time := by simp [enqueue]

@[simp] theorem pumpPorts_time (m) : (pumpPorts m).time = m.time := by simp [pumpPorts]

@[simp] theorem forward_time (m src bs) : (forward m src bs).time = m.time := by simp [forward]

@[simp] theorem toSelf_time (m h data) : (toSelf m h data).time = m.time := (rfl)

@[simp] theorem sendTo_time (m dst typ ten chan shard tp arr data) :
    (sendTo m dst typ ten chan shard tp arr data).time = m.time := by simp [sendTo]

@[simp] theorem sendLink_time (m p code data) : (sendLink m p code data).time = m.time := by simp [sendLink]

@[simp] theorem flood_time (m but code data) : (flood m but code data).time = m.time := by simp [flood]

@[simp] theorem assemble_time (m p h payload) : (assemble m p h payload).time = m.time := by
  unfold assemble; dsimp only; repeat' split
  all_goals simp

@[simp] theorem acceptFlit_time (m p bs) : (acceptFlit m p bs).time = m.time := by simp [acceptFlit]

@[simp] theorem receiveFlit_time (m p bs blockErr) : (receiveFlit m p bs blockErr).time = m.time := by simp [receiveFlit]

@[simp] theorem losePort_time (m p) : (losePort m p).time = m.time := (rfl)

@[simp] theorem enterTrain_time (m p start) : (enterTrain m p start).time = m.time := (rfl)

@[simp] theorem dropStatus_time (m p st) : (dropStatus m p st).time = m.time := (rfl)

/-! ## The operations of Rings.lean -/

@[simp] theorem queueRing_time (m stream mirror h gen off bytes) : (queueRing m stream mirror h gen off bytes).time = m.time := (rfl)

@[simp] theorem forwardPeers_time (m n owner so fo cb bytes) :
    (forwardPeers m n owner so fo cb bytes).time = m.time := by simp [forwardPeers]

@[simp] theorem setSctx_time (m n c) : (setSctx m n c).time = m.time := (rfl)

@[simp] theorem missRecord_time (m stream) : (missRecord m stream).time = m.time := by
  unfold missRecord; dsimp only; repeat' split
  all_goals simp

@[simp] theorem seqWritten_time (m stream seq) : (seqWritten m stream seq).time = m.time := by simp [seqWritten]

@[simp] theorem placeRecord_time (m stream owner loc ring gen off bytes) :
    (placeRecord m stream owner loc ring gen off bytes).time = m.time := by simp [placeRecord]

/-! ## The operations of Fusion.lean -/

@[simp] theorem setFuEnt_time (m n e) : (setFuEnt m n e).time = m.time := (rfl)

@[simp] theorem showStates_time (m) : (showStates m).time = m.time := (rfl)

@[simp] theorem maskEnt_time (m n cause openAt) : (maskEnt m n cause openAt).time = m.time := by simp [maskEnt]

@[simp] theorem dropEnt_time (m n) : (dropEnt m n).time = m.time := by simp [dropEnt]

@[simp] theorem openEnt_time (m n) : (openEnt m n).time = m.time := by simp [openEnt]

@[simp] theorem countLate_time (m n) : (countLate m n).time = m.time := (rfl)

@[simp] theorem arriveAt_time (m rec n) : (arriveAt m rec n).time = m.time := by simp [arriveAt]

@[simp] theorem fuArrive_time (m stream rec) : (fuArrive m stream rec).time = m.time := by simp [fuArrive]

@[simp] theorem countLates_time (m t) : (countLates m t).time = m.time := by simp [countLates]

@[simp] theorem strapdown_time (m t) : (strapdown m t).time = m.time := by
  unfold strapdown; dsimp only; repeat' split
  all_goals simp

@[simp] theorem initPoint_time (m t) : (initPoint m t).time = m.time := by unfold initPoint; split <;> simp

@[simp] theorem countFail_time (m n) : (countFail m n).time = m.time := (rfl)

@[simp] theorem testResult_time (m n pass) : (testResult m n pass).1.time = m.time := by
  unfold testResult; dsimp only; repeat' split
  all_goals simp

@[simp] theorem eventSpeed_time (m n s) : (eventSpeed m n s).2.time = m.time := by
  unfold eventSpeed; dsimp only; repeat' split
  all_goals simp

@[simp] theorem dropCheck_time (t m n) : (dropCheck t m n).time = m.time := by simp [dropCheck]

@[simp] theorem addErrors_time (kf0 a) : (addErrors kf0 a).time = a.m.time := by
  simp [addErrors]

@[simp] theorem riseStep_time (m s) : (riseStep m s).time = m.time := by simp [riseStep]

@[simp] theorem fallStep_time (m s) : (fallStep m s).time = m.time := by simp [fallStep]

@[simp] theorem evalStep_time (m t) : (evalStep m t).time = m.time := by simp [evalStep]

@[simp] theorem writeOut_time (m t contrib) : (writeOut m t contrib).time = m.time := by simp [writeOut]

@[simp] theorem applyMeas_time (a n args) : (applyMeas a n args).m.time = a.m.time := by
  unfold applyMeas; split
  · simp
  · rfl

@[simp] theorem stepSampled_time (t a n) : (stepSampled t a n).m.time = a.m.time := by
  unfold stepSampled; dsimp only; split
  · rfl
  · generalize (!ite (fuKind a.m n = 2) _ _) = pass
    repeat' split
    all_goals simp [applyMeas_time]

@[simp] theorem stepMeas_time (t n a s) : (stepMeas t n a s).m.time = a.m.time := by
  unfold stepMeas; dsimp only; split
  · simp
  · simp [apply_ite FuAcc.m, applyMeas_time]

theorem foldl_m_time {α} (f : FuAcc → α → FuAcc) (hf : ∀ a x, (f a x).m.time = a.m.time) (l : List α) (a : FuAcc) :
    (l.foldl f a).m.time = a.m.time := by
  induction l generalizing a with
  | nil => rfl
  | cons x l ih => exact (ih _).trans (hf a x)

@[simp] theorem stepEvents_time (t a n) : (stepEvents t a n).m.time = a.m.time :=
  (foldl_m_time _ (stepMeas_time t n) _ _).trans (by simp)

@[simp] theorem filterStep_time (m t) : (filterStep m t).time = m.time := by
  have hstep : ∀ a n, (if fuSampled a.m n then stepSampled t a n else stepEvents t a n).m.time = a.m.time := fun a n => by
    rw [apply_ite FuAcc.m, time_ite, stepSampled_time, stepEvents_time, ite_self]
  unfold filterStep
  lift_lets
  extract_lets a b _ c k d
  have ha : a.time = m.time := time_foldl _ (fun m n => dropCheck_time ..) _ _
  have hb : b.time = a.time := by simp [b]
  have hc : c.time = b.time := by simp [c]
  have hd : d.m.time = c.time := foldl_m_time _ hstep _ _
  rw [← ha, ← hb, ← hc, ← hd]
  simp [addErrors_time]

@[simp] theorem openHolds_time (m) : (openHolds m).time = m.time := by simp [openHolds]

@[simp] theorem startFusion_time (m) : (startFusion m).time = m.time := (rfl)

@[simp] theorem restartFusion_time (m) : (restartFusion m).time = m.time := by simp [restartFusion]

@[simp] theorem writeFuCtrl_time (m v) : (writeFuCtrl m v).time = m.time := by simp [writeFuCtrl]

@[simp] theorem writeFuSnsCtrl_time (m n v) : (writeFuSnsCtrl m n v).time = m.time := by simp [writeFuSnsCtrl]

/-! ## The operations of Sensor.lean -/

@[simp] theorem takeBind_time (m n) : (takeBind m n).time = m.time := by
  unfold takeBind; dsimp only; split
  · rfl
  · split <;> simp

@[simp] theorem produce_time (m n kind stamp flags len source extra payload) :
    (produce m n kind stamp flags len source extra payload).time = m.time := by simp [produce]

@[simp] theorem ringDone_time (m n) : (ringDone m n).time = m.time := by
  unfold ringDone; split
  · rfl
  · exact time_foldl _ (fun m c => setCmd_time ..) _ _

@[simp] theorem takeCtx_time (m n kind owner loc size src ring records) :
    (takeCtx m n kind owner loc size src ring records).time = m.time := (rfl)

@[simp] theorem freeStream_time (m n) : (freeStream m n).time = m.time := (rfl)

@[simp] theorem writeBindCommit_time (m ctx n v) : (writeBindCommit m ctx n v).time = m.time := by simp [writeBindCommit]

@[simp] theorem setVctx_time (m v c) : (setVctx m v c).time = m.time := (rfl)

@[simp] theorem closeFrame_time (m v flags) : (closeFrame m v flags).time = m.time := by
  unfold closeFrame; dsimp only; repeat' split
  all_goals simp

@[simp] theorem transferCommit_time (m v late count) : (transferCommit m v late count).time = m.time := by
  unfold transferCommit; dsimp only; repeat' split
  all_goals simp

@[simp] theorem frameStart_time (m v csi late) : (frameStart m v csi late).time = m.time := by
  unfold frameStart; dsimp only; repeat' split
  all_goals simp

@[simp] theorem modFrame_time (m v f) : (modFrame m v f).time = m.time := (rfl)

@[simp] theorem phyError_time (m v) : (phyError m v).time = m.time := by unfold phyError; split <;> simp

@[simp] theorem frameLine_time (m v dt bs crcBad lost) :
    (frameLine m v dt bs crcBad lost).time = m.time := by unfold frameLine; split <;> simp

@[simp] theorem longPacket_time (m v dt bs ecc crcBad lost) : (longPacket m v dt bs ecc crcBad lost).time = m.time := by simp [longPacket]

@[simp] theorem writeCmCommit_time (m v w) : (writeCmCommit m v w).time = m.time := by
  unfold writeCmCommit; dsimp only; repeat' split
  all_goals simp

@[simp] theorem writeVcCfg_time (m v w) : (writeVcCfg m v w).time = m.time := by simp [writeVcCfg]

@[simp] theorem writeEnCfg_time (m a w) : (writeEnCfg m a w).time = m.time := by simp [writeEnCfg]

@[simp] theorem rxStatus_time (m r) : (rxStatus m r).time = m.time := (rfl)

@[simp] theorem writeI3cCfg_time (m k found w) : (writeI3cCfg m k found w).time = m.time := by
  unfold writeI3cCfg; dsimp only; split
  · simp
  · refine (time_foldl _ (fun m i => ?_) _ _).trans (by simp)
    split <;> simp

@[simp] theorem nackIbi_time (m k) : (nackIbi m k).time = m.time := (rfl)

@[simp] theorem setSeqSt_time (m n c) : (setSeqSt m n c).time = m.time := (rfl)

@[simp] theorem overrun_time (m n) : (overrun m n).time = m.time := by simp [overrun]

@[simp] theorem trigger_time (m n ibi) : (trigger m n ibi).time = m.time := by
  unfold trigger; dsimp only; repeat' split
  all_goals simp

@[simp] theorem endRun_time (m n) : (endRun m n).time = m.time := by
  unfold endRun; dsimp only; repeat' split
  all_goals simp

@[simp] theorem runStep_time (m n) : (runStep m n).time = m.time := by
  unfold runStep; dsimp only; repeat' split
  all_goals simp

@[simp] theorem writeSeqCtrl_time (m n w) : (writeSeqCtrl m n w).time = m.time := by simp [writeSeqCtrl]

@[simp] theorem setWheelSt_time (m w c) : (setWheelSt m w c).time = m.time := (rfl)

@[simp] theorem wheelReport_time (m w) : (wheelReport m w).time = m.time := by simp [wheelReport]

@[simp] theorem countEdge_time (m w d stamp) : (countEdge m w d stamp).time = m.time := by simp [countEdge]

@[simp] theorem writeWheelCfg_time (m w v) : (writeWheelCfg m w v).time = m.time := by simp [writeWheelCfg]

/-! ## The operations of Topology.lean -/

@[simp] theorem setLead_time (m) : (setLead m).time = m.time := (rfl)

@[simp] theorem noteLost_time (m uid cause) : (noteLost m uid cause).time = m.time := by simp [noteLost]

@[simp] theorem aloneRegs_time (m) : (aloneRegs m).time = m.time := by simp [aloneRegs]

@[simp] theorem fallOut_time (m) : (fallOut m).time = m.time := by simp [fallOut]

@[simp] theorem followTopology_time (m) : (followTopology m).time = m.time := by simp [followTopology]

@[simp] theorem sendTopo_time (m) : (sendTopo m).time = m.time := by simp [sendTopo]

@[simp] theorem outStep_time (m) : (outStep m).time = m.time := by simp [outStep]

@[simp] theorem leaveActive_time (m p st) : (leaveActive m p st).time = m.time := by simp [leaveActive]

@[simp] theorem linkFails_time (m p) : (linkFails m p).time = m.time := by simp [linkFails]

@[simp] theorem sendWake_time (m p) : (sendWake m p).time = m.time := by simp [sendWake]

@[simp] theorem portUp_time (m p) : (portUp m p).time = m.time := by simp [portUp]

@[simp] theorem enterActive_time (m p) : (enterActive m p).time = m.time := by simp [enterActive]

@[simp] theorem resend_time (m p) : (resend m p).time = m.time := by simp [resend]

theorem takeMsg_time {m f x} (h : takeMsg m f = some x) : x.2.time = m.time := by
  unfold takeMsg at h
  obtain ⟨y, -, rfl⟩ := Option.map_eq_some_iff.1 h
  simp

@[simp] theorem decideAdmission_time (m p) : (decideAdmission m p).time = m.time := by
  unfold decideAdmission; dsimp only; repeat' split
  all_goals simp

@[simp] theorem buildRoutes_time (m table uids) : (buildRoutes m table uids).time = m.time := by simp [buildRoutes]

@[simp] theorem actOnAssign_time (m a) : (actOnAssign m a).time = m.time := by
  unfold actOnAssign; split
  · rfl
  · simp

@[simp] theorem assignRegs_time (m a) : (assignRegs m a).time = m.time := by
  simp only [assignRegs, time_ite, raiseD_time, Mach.setFlagOf_time, ite_self]
  refine (time_foldl _ (fun m p => ?_) _ _).trans ((time_foldl _ (fun m n => by simp) _ _).trans (by simp))
  split <;> simp

@[simp] theorem routeSwap_time (m) : (routeSwap m).time = m.time := by unfold routeSwap; split <;> simp

@[simp] theorem sendSync_time (m) : (sendSync m).time = m.time := by unfold sendSync; split <;> simp

@[simp] theorem applyTheta_time (m theta) : (applyTheta m theta).time = m.time := by simp [applyTheta]

/-! ## The operations of Fabric.lean -/

@[simp] theorem tensorLand_time (m t bs) : (tensorLand m t bs).time = m.time :=
  time_foldl_fst _ (fun p x => by simp) _ _

@[simp] theorem haltJob_time (m j code cause) : (haltJob m j code cause).time = m.time := by
  simp only [haltJob, Mach.time_mk, Mach.time_pair, Mach.setFldOf_time, raiseT_time]

@[simp] theorem sendRecord_time (tenant slot m r) : (sendRecord tenant slot m r).time = m.time := by
  unfold sendRecord; dsimp only; repeat' split
  all_goals simp

@[simp] theorem waitRecs_time (m tenant slot rs list) : (waitRecs m tenant slot rs list).time = m.time := (rfl)

@[simp] theorem recArrived_time (m w) : (recArrived m w).time = m.time := by
  unfold recArrived; dsimp only; repeat' split
  all_goals simp

@[simp] theorem placeData_time (m w bs) : (placeData m w bs).time = m.time := by simp [placeData]

@[simp] theorem setParts_time (m p) : (setParts m p).time = m.time := (rfl)

@[simp] theorem sendResult_time (m j p none' arr bs) : (sendResult m j p none' arr bs).time = m.time := by simp [sendResult]

@[simp] theorem combine_time (m j g p) : (combine m j g p).time = m.time := by
  unfold combine; split
  · rfl
  · split
    · rfl
    · split <;> exact sendResult_time ..

@[simp] theorem partialArrives_time (m j g p shard at' bs) : (partialArrives m j g p shard at' bs).time = m.time := by simp [partialArrives]

@[simp] theorem trySendDigest_time (m j t) : (trySendDigest m j t).time = m.time := by simp [trySendDigest]

@[simp] theorem sendVerdict_time (m j t) : (sendVerdict m j t).time = m.time := by simp [sendVerdict]

@[simp] theorem checkVerdict_time (m j t) : (checkVerdict m j t).time = m.time := by simp [checkVerdict]

@[simp] theorem peerDeliver_time (x m n) : (peerDeliver x m n).time = m.time := by simp [peerDeliver]

@[simp] theorem applyHandoff_time (m x d) : (applyHandoff m x d).time = m.time := by
  unfold applyHandoff; dsimp only; repeat' split
  all_goals simp

@[simp] theorem boundaryHandoffs_time (m) : (boundaryHandoffs m).time = m.time := by simp [boundaryHandoffs]

@[simp] theorem seamHandoffs_time (m) : (seamHandoffs m).time = m.time := by
  refine time_foldl _ (fun m c => ?_) _ _
  refine (time_foldl _ (fun m s => by simp) _ _).trans ?_
  split <;> simp

@[simp] theorem jobsSeam_time (m) : (jobsSeam m).time = m.time := by
  refine (time_foldl _ (fun m j => ?_) _ _).trans (by simp)
  split <;> simp

@[simp] theorem digestSeam_time (m tick) : (digestSeam m tick).time = m.time := by simp [digestSeam]

@[simp] theorem staleSeam_time (m tick) : (staleSeam m tick).time = m.time := by simp [staleSeam]

@[simp] theorem mergeSeam_time (m before) : (mergeSeam m before).time = m.time := by simp [mergeSeam]

@[simp] theorem fabricSeam_time (m) : (fabricSeam m).time = m.time := by simp [fabricSeam]

@[simp] theorem fabricBoundary_time (m) : (fabricBoundary m).time = m.time := by
  unfold fabricBoundary
  lift_lets
  extract_lets a _ b _ c
  have ha : a.time = m.time := by unfold a; split <;> simp only [Mach.time_mk, Mach.time_pair, Mach.setReg64_time]
  have hb : b.time = a.time := by unfold b; split <;> simp
  have hc : c.time = b.time := by unfold c; simp
  rw [sendSync_time, boundaryHandoffs_time, hc, hb, ha]

/-! ## The operations of HostIf.lean -/

@[simp] theorem accessError_time (m cause) : (accessError m cause).time = m.time := by simp [accessError]

@[simp] theorem stopQueue_time (m t) : (stopQueue m t).time = m.time := (rfl)

@[simp] theorem writeQCfg_time (m t v) : (writeQCfg m t v).time = m.time := by simp [writeQCfg]

@[simp] theorem doorbell_time (m t ok n d) (f : Mach) (hf : f.time = m.time) : (doorbell m t ok n d f).time = m.time := by
  simp [doorbell, hf]

@[simp] theorem sqDoorbell_time (m t n ok) : (sqDoorbell m t n ok).time = m.time := doorbell_time _ _ _ _ _ _ (by simp)

@[simp] theorem cqDoorbell_time (m t n ok) : (cqDoorbell m t n ok).time = m.time := doorbell_time _ _ _ _ _ _ (by simp)

@[simp] theorem badOpcode_time (m q cid op) : (badOpcode m q cid op).time = m.time :=
  beginCmd_time _ _ _ _ _ _ fun m => by simp

@[simp] theorem stopFailed_time (m t) : (stopFailed m t).time = m.time := by simp [stopFailed]

@[simp] theorem fetchCmd_time (m q dma) : (fetchCmd m q dma).time = m.time := by
  unfold fetchCmd; dsimp only; repeat' split
  all_goals simp

@[simp] theorem logLoad_time (m c) : (logLoad m c).time = m.time := by
  unfold logLoad; split
  · split <;> simp
  · rfl

@[simp] theorem endCmd_time (m q cid lost) : (endCmd m q cid lost).time = m.time := by
  unfold endCmd; dsimp only; repeat' split
  all_goals simp

@[simp] theorem postHeld_time (m) : (postHeld m).time = m.time := by simp [postHeld]

@[simp] theorem dropExternal_time (m) : (dropExternal m).time = m.time := by simp [dropExternal]

@[simp] theorem resetMsix_time (m) : (resetMsix m).time = m.time := (rfl)

@[simp] theorem linkReset_time (m down) : (linkReset m down).time = m.time := by simp [linkReset]

@[simp] theorem linkTrained_time (m speed width) : (linkTrained m speed width).time = m.time := by simp [linkTrained]

@[simp] theorem nopCommand_time (m cmd) : (nopCommand m cmd).time = m.time :=
  beginCmd_time _ _ _ _ _ _ fun m => by simp

/-! ## The operations of Lighthouse.lean -/

@[simp] theorem writePartOwner_time (m p v) : (writePartOwner m p v).time = m.time := by simp [writePartOwner]

@[simp] theorem writeRtc_time (m v) : (writeRtc m v).time = m.time := (rfl)

@[simp] theorem runRtc_time (m) : (runRtc m).time = m.time := (rfl)

@[simp] theorem rtcAlarm_time (m) : (rtcAlarm m).time = m.time := by simp [rtcAlarm]

@[simp] theorem rtcPeriod_time (m) : (rtcPeriod m).time = m.time := by simp [rtcPeriod]

@[simp] theorem capOff_time (m c) : (capOff m c).time = m.time := by
  unfold capOff; dsimp only; repeat' split
  all_goals simp

@[simp] theorem writeCapCfg_time (m c v) : (writeCapCfg m c v).time = m.time := by
  unfold writeCapCfg; dsimp only; repeat' split
  all_goals simp

@[simp] theorem writePdmCfg_time (m v) : (writePdmCfg m v).time = m.time := by simp [writePdmCfg]

@[simp] theorem missMirror_time (c m) : (missMirror c m).time = m.time := by
  unfold missMirror; dsimp only; repeat' split
  all_goals simp

@[simp] theorem writeVadCfg_time (m v) : (writeVadCfg m v).time = m.time := by simp [writeVadCfg]

@[simp] theorem logMute_time (m t mute) : (logMute m t mute).time = m.time := by simp [logMute]

@[simp] theorem writeMute_time (m t v) : (writeMute m t v).time = m.time := by simp [writeMute]

@[simp] theorem writeAuCommit_time (m v) : (writeAuCommit m v).time = m.time := by simp [writeAuCommit]

@[simp] theorem writeAuCfg_time (m v) : (writeAuCfg m v).time = m.time := by simp [writeAuCfg]

@[simp] theorem writePbBase_time (m p v) : (writePbBase m p v).time = m.time := by simp [writePbBase]

@[simp] theorem writePbWp_time (m p v) : (writePbWp m p v).time = m.time := by simp [writePbWp]

@[simp] theorem setTouchCh_time (m n c) : (setTouchCh m n c).time = m.time := (rfl)

@[simp] theorem startScan_time (m) : (startScan m).time = m.time := (rfl)

@[simp] theorem triggerScan_time (m) : (triggerScan m).time = m.time := by unfold triggerScan; split <;> simp

@[simp] theorem writeTouchCfg_time (m v) : (writeTouchCfg m v).time = m.time := by simp [writeTouchCfg]

@[simp] theorem writeTouchCh_time (m n v) : (writeTouchCh m n v).time = m.time := by simp [writeTouchCh]

@[simp] theorem touchTimer_time (m) : (touchTimer m).time = m.time := by simp [touchTimer]

@[simp] theorem evalTouch_time (m n cnt) : (evalTouch m n cnt).time = m.time := by simp [evalTouch]

@[simp] theorem padWake_time (m b) : (padWake m b).time = m.time := by simp [padWake]

@[simp] theorem lateEdge_time (m b) : (lateEdge m b).time = m.time := by simp [lateEdge]

@[simp] theorem buttonInput_time (m b level) : (buttonInput m b level).time = m.time := by simp [buttonInput]

@[simp] theorem setHap_time (m h x) : (setHap m h x).time = m.time := (rfl)

@[simp] theorem writeHapCtrl_time (m h v) : (writeHapCtrl m h v).time = m.time := by simp [writeHapCtrl]

@[simp] theorem hapOut_time (m h duty) : (hapOut m h duty).time = m.time := by simp [hapOut]

@[simp] theorem hapStep_time (m h step reps) : (hapStep m h step reps).time = m.time := by simp [hapStep]

@[simp] theorem hapticStepEnd_time (m h) : (hapticStepEnd m h).time = m.time := by simp [hapticStepEnd]

@[simp] theorem hapFrame_time (m h) : (hapFrame m h).time = m.time := by simp [hapFrame]

@[simp] theorem showRh_time (m) : (showRh m).time = m.time := (rfl)

@[simp] theorem rhSwitch_time (m t) : (rhSwitch m t).time = m.time := by simp [rhSwitch]

@[simp] theorem writeRh_time (m v) : (writeRh m v).time = m.time := by simp [writeRh]

/-! ## The operations of Frame.lean -/

@[simp] theorem startShares_time (m) : (startShares m).time = m.time :=
  time_foldl_fst _ (fun p t => by simp) _ _

@[simp] theorem capture_time (f m c) : (capture f m c).time = m.time := by
  unfold capture; dsimp only; repeat' split
  all_goals simp

@[simp] theorem vadEnd_time (m f) : (vadEnd m f).time = m.time := by simp [vadEnd]

@[simp] theorem vadStart_time (m) : (vadStart m).time = m.time := by simp [vadStart]

@[simp] theorem playOne_time (m p) : (playOne m p).2.time = m.time := by
  unfold playOne; dsimp only; repeat' split
  all_goals simp

@[simp] theorem playN_time (p n m) : (playN p n m).2.time = m.time := by
  induction n generalizing m with
  | zero => rfl
  | succ n ih => simp [playN, ih]

@[simp] theorem fadeOn_time (m n) : (fadeOn m n).time = m.time := by unfold fadeOn; split <;> simp

@[simp] theorem audioOut_time (m f) : (audioOut m f).time = m.time := by
  have h : ∀ (l : List Nat) (n : Nat) (a : List (List Int) × Mach),
      (l.foldl (fun (a : List (List Int) × Mach) p => let (xs, m) := playN p n a.2; (a.1 ++ [xs], m)) a).2.time = a.2.time := by
    intro l n
    induction l with
    | nil => exact fun _ => rfl
    | cons p l ih => exact fun a => (ih _).trans (playN_time ..)
  simp only [audioOut, time_ite, fadeOn_time]
  rw [time_foldl _ (fun m o => Mach.emit_time ..)]
  simp [h]

@[simp] theorem routeApply_time (m) : (routeApply m).time = m.time := by
  unfold routeApply; split
  · rfl
  · split
    · rfl
    · simp

@[simp] theorem chgEffect_time (m dock) : (chgEffect m dock).time = m.time := by simp [chgEffect]

@[simp] theorem sampleChg_time (m level) : (sampleChg m level).time = m.time := by simp [sampleChg]

@[simp] theorem frameEnd_time (m f) : (frameEnd m f).time = m.time := by simp [frameEnd]

@[simp] theorem muteFrame_time (m) : (muteFrame m).time = m.time := (rfl)

@[simp] theorem touchFrame_time (m) : (touchFrame m).time = m.time := (rfl)

@[simp] theorem frameStartAll_time (m) : (frameStartAll m).time = m.time := by
  unfold frameStartAll; dsimp only; repeat' split
  all_goals simp

/-! ## The operations of Powers.lean -/

@[simp] theorem powerCmd_time (m cmd op f) (hf : ∀ m, (f m).time = m.time) : (powerCmd m cmd op f).time = m.time :=
  beginCmd_time _ _ _ _ _ _ fun m => by simp [hf]

@[simp] theorem setOrder_time (m k o) : (setOrder m k o).time = m.time := by unfold setOrder; split <;> simp

@[simp] theorem linkWake_time (m p mode) : (linkWake m p mode).time = m.time := by simp [linkWake]

@[simp] theorem hostWake_time (m i) : (hostWake m i).time = m.time := by simp [hostWake]

@[simp] theorem sleepPort_time (m p) : (sleepPort m p).time = m.time := by simp [sleepPort]

@[simp] theorem loweringStart_time (m d) : (loweringStart m d).time = m.time := by simp [loweringStart]

@[simp] theorem resetRegs_time (m d) : (resetRegs m d).time = m.time := by simp [resetRegs]

@[simp] theorem showStore_time (m) : (showStore m).time = m.time := (rfl)

@[simp] theorem unloadAll_time (m) : (unloadAll m).time = m.time := by
  simp only [unloadAll, showStore_time, Mach.time_mk, Mach.time_pair]
  exact time_foldl _ (fun m p => unlogProgram_time ..) _ _

@[simp] theorem mapPages_time (m f) : (mapPages m f).time = m.time := (rfl)

@[simp] theorem loseDomain_time (m d) : (loseDomain m d).time = m.time := by
  simp only [loseDomain, time_ite, unloadAll_time, mapPages_time, setPort_time, Mach.setFlagOf_time, Mach.time_mk, Mach.time_pair]
  simp only [time_foldl _ dropAlloc_time, dropExternal_time]
  simp

@[simp] theorem setDom_time (m d st) : (setDom m d st).time = m.time := (rfl)

@[simp] theorem domainOn_time (m d src mountOk) : (domainOn m d src mountOk).time = m.time := by simp [domainOn]

@[simp] theorem domainLow_time (m d tgt) : (domainLow m d tgt).time = m.time := by
  unfold domainLow; dsimp only; repeat' split
  all_goals simp

@[simp] theorem abandon_time (m t) : (abandon m t).time = m.time := (rfl)

@[simp] theorem freeWakes_time (m) : (freeWakes m).time = m.time := by simp [freeWakes]

/-! ## The operations of Load.lean -/

@[simp] theorem zeroBank_time (m h) : (zeroBank m h).time = m.time := (rfl)

theorem placeProg_time {m l ps r} (h : placeProg m l ps = .ok r) : r.1.time = m.time := by
  unfold placeProg at h; dsimp only at h
  split at h
  · cases h
  · split at h <;> cases h
    simp

theorem placeTask_time {m l ps r} (h : placeTask m l ps = .ok r) : r.1.time = m.time := by
  unfold placeTask at h; dsimp only at h
  split at h
  · cases h
  · split at h <;> cases h
    simp

theorem validateLoad_time {m l r} (h : validateLoad m l = .ok r) : r.1.time = m.time := by
  unfold validateLoad at h
  split at h
  · cases h
  · split at h <;> cases h
    rename_i hp
    split at hp
    · exact placeProg_time hp
    · exact placeTask_time hp

@[simp] theorem validationDone_time (m q cid) : (validationDone m q cid).time = m.time := by
  unfold validationDone; split
  · rfl
  · dsimp only; split
    · rfl
    · split
      · simp
      · rename_i h
        simp only [complete_time, Mach.setFldOf_time]
        rw [validateLoad_time h]
        simp

@[simp] theorem unloadProg_time (m p) : (unloadProg m p).time = m.time := (rfl)

@[simp] theorem unloadTask_time (m t) : (unloadTask m t).time = m.time := (rfl)

@[simp] theorem writeSelftest_time (m w) : (writeSelftest m w).time = m.time := by
  simp only [writeSelftest, time_ite, raiseT_time, Mach.time_mk, Mach.time_pair, Mach.setFlagOf_time, Mach.setFldOf_time, ite_self]

@[simp] theorem takeOffline_time (m i) : (takeOffline m i).time = m.time := by
  unfold takeOffline; dsimp only
  rw [resetRegs_time, loseDomain_time, setDom_time]
  simp

@[simp] theorem seamSelftest_time (m) : (seamSelftest m).time = m.time := by
  unfold seamSelftest; split
  · simp only [time_ite, raiseD_time, Mach.time_mk, Mach.time_pair, Mach.setFlagOf_time, time_foldl _ takeOffline_time, ite_self]
    exact time_foldl _ (fun m i => Mach.setFlagOf_time ..) _ _
  · simp only [Mach.time_mk, Mach.time_pair]
  · rfl

/-! ## The operations of Tenant.lean -/

@[simp] theorem harbourCmd_time (m cmd op w f) (hf : ∀ m, (f m).time = m.time) : (harbourCmd m cmd op w f).time = m.time :=
  beginCmd_time _ _ _ _ _ _ fun m => by simp [hf]

@[simp] theorem setTenRec_time (m t r) : (setTenRec m t r).time = m.time := (rfl)

@[simp] theorem clearRes_time (m t) : (clearRes m t).time = m.time := by
  unfold clearRes; exact time_foldl _ (fun m c => by simp) _ _

@[simp] theorem freshTenant_time (m t mode quota) : (freshTenant m t mode quota).time = m.time := (rfl)

@[simp] theorem dropKey_time (m t) : (dropKey m t).time = m.time := by simp [dropKey]

@[simp] theorem dropCascade_time (m t) : (dropCascade m t).time = m.time := by simp [dropCascade]

@[simp] theorem dropObjects_time (m t) : (dropObjects m t).time = m.time := by
  simp only [dropObjects, clearRes_time, Mach.setFlagOf_time, Mach.time_mk, Mach.time_pair, endCmdsOn_time, time_ite, setIngest_time, ite_self]
  rw [time_foldl _ (fun m i => endCmdsOn_time ..), Mach.time_mk, Mach.time_pair, time_foldl _ (fun m l => by simp), time_foldl _ (fun m h => endCmdsOn_time ..),
    Mach.time_mk, Mach.time_pair, time_foldl _ dropAlloc_time]

@[simp] theorem dropPlaces_time (m t) : (dropPlaces m t).time = m.time := by
  simp only [dropPlaces]
  rw [time_foldl _ (fun m p => by simp), time_foldl _ unloadTask_time]
  simp

@[simp] theorem installRules_time (m rules) : (installRules m rules).time = m.time := by simp [installRules]

@[simp] theorem fullReport_time (m scope nonce) : (fullReport m scope nonce).2.time = m.time := (rfl)

@[simp] theorem writeLockSet_time (m v) : (writeLockSet m v).time = m.time := (rfl)

@[simp] theorem newChallenge_time (m) : (newChallenge m).time = m.time := by simp [newChallenge]

@[simp] theorem vendorWipe_time (m) : (vendorWipe m).time = m.time := by simp [vendorWipe]

@[simp] theorem unlock_time (f m level) : (unlock f m level).time = m.time := by simp [unlock]

@[simp] theorem writeDbCtrl_time (f m v) : (writeDbCtrl f m v).time = m.time := by simp [writeDbCtrl]

/-! ## The operations of Tick.lean -/

@[simp] theorem wipeRes_time (m i) : (wipeRes m i).time = m.time := by simp [wipeRes]

@[simp] theorem scrubRes_time (m i) : (scrubRes m i).time = m.time := by simp [scrubRes]

@[simp] theorem showPending_time (m) : (showPending m).time = m.time := (rfl)

@[simp] theorem writeTkCommit_time (m v) : (writeTkCommit m v).time = m.time := by simp [writeTkCommit]

@[simp] theorem feedEntry_time (m n e bound fabric) : (feedEntry m n e bound fabric).1.time = m.time := by
  unfold feedEntry; split
  · rfl
  · split <;> simp

@[simp] theorem validateTable_time (m) : (validateTable m).time = m.time := by
  unfold validateTable; dsimp only; repeat' split
  all_goals simp

@[simp] theorem showCheck_time (m b n e) : (showCheck m b n e).time = m.time := by
  simp [showCheck]

@[simp] theorem noteRun_time (m r status cls) : (noteRun m r status cls).time = m.time := by
  unfold noteRun; split
  · split <;> simp
  · simp

@[simp] theorem ranEnd_time (m r) : (ranEnd m r).time = m.time := by
  unfold ranEnd; dsimp only; repeat' split
  all_goals simp

@[simp] theorem truncEnd_time (m r) : (truncEnd m r).time = m.time := by simp [truncEnd]

@[simp] theorem feedNext_time (m n tenant recs) : (feedNext m n tenant recs).time = m.time := by
  unfold feedNext; dsimp only; repeat' split
  all_goals simp

@[simp] theorem gapScrub_time (m r) : (gapScrub m r).time = m.time := by simp [gapScrub]

@[simp] theorem seamBonds_time (m) : (seamBonds m).time = m.time := by simp [seamBonds]

@[simp] theorem haltSeam_time (m) : (haltSeam m).time = m.time := (rfl)

@[simp] theorem recordOutcomes_time (m) : (recordOutcomes m).time = m.time := (rfl)

@[simp] theorem activateTable_time (m) : (activateTable m).time = m.time := by unfold activateTable; split <;> simp

@[simp] theorem powerSeam_time (m) : (powerSeam m).time = m.time := by simp [powerSeam]

@[simp] theorem unloadSeam_time (m) : (unloadSeam m).time = m.time := by
  simp only [unloadSeam, Mach.time_mk, Mach.time_pair]
  exact time_foldl _ (fun m p => unloadProg_time ..) _ _

@[simp] theorem memorySeam_time (m) : (memorySeam m).time = m.time := by simp [memorySeam]

@[simp] theorem enableStages_time (m) : (enableStages m).time = m.time := by
  refine time_foldl _ (fun m p => ?_) _ _
  split
  · rfl
  · dsimp only; split
    · rfl
    · simp

@[simp] theorem takeTiming_time (m) : (takeTiming m).time = m.time := by unfold takeTiming; split <;> simp

@[simp] theorem referenceStop_time (m) : (referenceStop m).time = m.time := by simp [referenceStop]

@[simp] theorem referenceRestart_time (m) : (referenceRestart m).time = m.time := by simp [referenceRestart]

/-! ## The operations of Startup.lean -/

@[simp] theorem keepAliveLoss_time (m) : (keepAliveLoss m).time = m.time := by simp [keepAliveLoss]

@[simp] theorem enterRecovery_time (m) : (enterRecovery m).time = m.time := by simp [enterRecovery]

@[simp] theorem restoreTenant_time (unreadable m e) :
    (restoreTenant unreadable m e).time = m.time := by unfold restoreTenant; split <;> simp

@[simp] theorem extestEntry_time (m) : (extestEntry m).time = m.time := by
  unfold extestEntry; split
  · rfl
  · simp only [Mach.time_mk, Mach.time_pair]
    exact time_foldl _ (fun m d => by rw [resetRegs_time, loseDomain_time]) _ _

@[simp] theorem vioChange_time (m h up hiV) : (vioChange m h up hiV).time = m.time := by simp [vioChange]

/-! ## The operations of RegRead.lean -/

@[simp] theorem readEffect_time (m a i) : (readEffect m a i).time = m.time := by unfold readEffect; split <;> simp

@[simp] theorem captureWords_time (m key a n) : (captureWords m key a n).time = m.time := by
  unfold captureWords
  exact time_foldl _ (fun m k => by simp) _ _

@[simp] theorem readReg_time (m key ctx a) : (readReg m key ctx a).1.time = m.time := by
  unfold readReg; split
  · rfl
  · split
    · simp
    · split
      · rfl
      · split <;> simp

@[simp] theorem readWord_time (m key ctx a) : (readWord m key ctx a).1.time = m.time := by
  unfold readWord; split
  · split <;> simp
  · split <;> simp
  · rfl
  · split <;> simp
  · split <;> simp
  · simp

@[simp] theorem busRead_time (m key ctx a n) : (busRead m key ctx a n).1.time = m.time := by
  unfold busRead; split
  · simp
  · simp

@[simp] theorem pathRead_time (m p a n) : (pathRead m p a n).time = m.time := by unfold pathRead; split <;> simp

/-! ## The operations of Bus.lean -/

@[simp] theorem setMasked_time (m r a v) : (setMasked m r a v).time = m.time := (rfl)

@[simp] theorem writeMsixCtrl_time (m v w) : (writeMsixCtrl m v w).time = m.time := by simp [writeMsixCtrl]

@[simp] theorem writeHeat_time (m a v) : (writeHeat m a v).time = m.time := by simp [writeHeat]

@[simp] theorem writePortCfg_time (m p v) : (writePortCfg m p v).time = m.time := by simp [writePortCfg]

@[simp] theorem writeEfTail_time (m head tail size v) : (writeEfTail m head tail size v).time = m.time := by simp [writeEfTail]

@[simp] theorem writeHS_time (m r i a v) : (writeHS m r i a v).time = m.time := by simp [writeHS]

@[simp] theorem writeCore_time (m r ctx i j a v) : (writeCore m r ctx i j a v).time = m.time := by simp [writeCore]

@[simp] theorem writeAudio_time (m r i a v) : (writeAudio m r i a v).time = m.time := by simp [writeAudio]

@[simp] theorem writeStreams_time (m r ctx i a v) : (writeStreams m r ctx i a v).time = m.time := by simp [writeStreams]

@[simp] theorem writeLate_time (f m r i a v) : (writeLate f m r i a v).time = m.time := by simp [writeLate]

@[simp] theorem writePort_time (m a v) : (writePort m a v).time = m.time := by unfold writePort; split <;> simp

@[simp] theorem writeHash_time (m r a v) : (writeHash m r a v).time = m.time := by simp [writeHash]

@[simp] theorem applyReg_time (f m r ctx i j a v) : (applyReg f m r ctx i j a v).time = m.time := by
  unfold applyReg; split
  · simp
  · split <;> simp

@[simp] theorem applyWide_time (m key a n v) : (applyWide m key a n v).time = m.time := by
  unfold applyWide; dsimp only
  rw [time_ite, time_ite]
  simp

@[simp] theorem writeReg_time (f m key ctx a v) : (writeReg f m key ctx a v).time = m.time := by unfold writeReg; split <;> simp

@[simp] theorem writeWord_time (f m key ctx a v) : (writeWord f m key ctx a v).time = m.time := by unfold writeWord; split <;> simp

@[simp] theorem busWrite_time (f m key ctx a bs) : (busWrite f m key ctx a bs).time = m.time := by simp [busWrite]

@[simp] theorem pathWrite_time (f m p a bs) : (pathWrite f m p a bs).time = m.time := by unfold pathWrite; split <;> simp

@[simp] theorem pathWord_time (f m p a v) : (pathWord f m p a v).time = m.time := by simp [pathWord]

@[simp] theorem qspiBad_time (m) : (qspiBad m).time = m.time := (rfl)

@[simp] theorem qspiWord_time (f m a v) : (qspiWord f m a v).time = m.time := by simp [qspiWord]

@[simp] theorem qspiDrain_time (f m) : (qspiDrain f m).time = m.time := by simp [qspiDrain]

@[simp] theorem qspiWrite_time (f m a ws cut) : (qspiWrite f m a ws cut).time = m.time := by simp [qspiWrite]

@[simp] theorem qspiRead_time (m a n cut) : (qspiRead m a n cut).time = m.time := by
  have h : ∀ (p : Mach × List Byte) i, (if a + 4 * i < bar0 then
      let (y, b) := busRead p.1 (pathKey .host) (p.1.fldOf rHM_HOST_CTX 0 6) (a + 4 * i) 4
      (y, p.2 ++ b) else (p.1, p.2 ++ [0, 0, 0, 0])).1.time = p.1.time := fun p i => by split <;> simp
  unfold qspiRead; repeat' split
  · rfl
  · simp
  · simp
  · dsimp only; rw [time_ite, qspiBad_time, ite_self, Mach.emit_time]; exact time_foldl_fst _ h _ _

@[simp] theorem qspiStatus_time (m inst) : (qspiStatus m inst).time = m.time := by simp [qspiStatus]

@[simp] theorem trained_time (m src full) : (trained m src full).time = m.time := by simp [trained]

/-! ## The operations of Rows.lean -/

@[simp] theorem i3cCfgWrite_time (m p k found v) : (i3cCfgWrite m p k found v).time = m.time := by unfold i3cCfgWrite; split <;> simp

@[simp] theorem regRead_time (m cmd a) : (regRead m cmd a).time = m.time :=
  beginCmd_time _ _ _ _ _ _ fun m => by simp

@[simp] theorem regWrite_time (f m cmd a v) : (regWrite f m cmd a v).time = m.time :=
  beginCmd_time _ _ _ _ _ _ fun m => by simp

end Sys2Proof.Machine
end

section
/-!
PROOFS. The operations that let time go on: none takes device time back, and the tick counter stays a number of 48 bits (R17, R403).
-/
namespace Sys2Proof.Machine

/-- Device time has not gone back, and the tick counter is still a number of 48 bits where it was one. -/
structure Later (a b : Mach) : Prop where
  now : a.clk.now ≤ b.clk.now
  tick : a.clk.tick < 2 ^ 48 → b.clk.tick < 2 ^ 48

theorem Later.refl (m : Mach) : Later m m := ⟨le_rfl, id⟩

theorem Later.trans {a b c : Mach} (h : Later a b) (k : Later b c) : Later a c := ⟨h.now.trans k.now, k.tick ∘ h.tick⟩

theorem Later.of_time {a b : Mach} (h : b.time = a.time) : Later a b := by
  obtain ⟨hn, ht⟩ := Prod.mk.inj h
  exact ⟨hn.ge, fun h => ht ▸ h⟩

/-- What keeps the time may follow. -/
theorem Later.then {a b c : Mach} (h : Later a b) (k : c.time = b.time) : Later a c := h.trans (.of_time k)

/-- What keeps the time may go before. -/
theorem Later.after {a b c : Mach} (k : b.time = a.time) (h : Later b c) : Later a c := (Later.of_time k).trans h

theorem later_foldl {α : Type} (f : Mach → α → Mach) (hf : ∀ m x, Later m (f m x)) (l : List α) (m : Mach) : Later m (l.foldl f m) := by
  induction l generalizing m with
  | nil => exact .refl m
  | cons x l ih => exact (hf m x).trans (ih _)

theorem Later.ite {m a b : Mach} {c : Prop} [Decidable c] (ha : Later m a) (hb : Later m b) : Later m (if c then a else b) := by
  split <;> assumption

@[simp] theorem advanceTo_tick (m : Mach) (t : Nat) : (advanceTo m t).clk.tick = m.clk.tick := rfl
@[simp] theorem advanceTo_time (m : Mach) (t : Nat) : (advanceTo m t).time = (max m.clk.now t, m.clk.tick) := (rfl)

theorem advanceTo_later (m : Mach) (t : Nat) : Later m (advanceTo m t) := ⟨le_max_left _ _, id⟩

/-- What keeps the time after device time went forward. -/
theorem Later.of_max {a b : Mach} (h : ∃ t, b.time = (advanceTo a t).time) : Later a b := by
  obtain ⟨t, h⟩ := h
  exact (advanceTo_later a t).then h

theorem slotEnd_later (m n) : Later m (slotEnd m n) := by
  unfold slotEnd; split
  · exact .refl m
  · next r _ => exact (advanceTo_later m (quayTime m r.endCycle)).then (by simp)

theorem endSlots_later (m) : Later m (endSlots m) := later_foldl _ slotEnd_later _ _

theorem scrubSeam_later (m) : Later m (scrubSeam m).1 := by
  unfold scrubSeam
  extract_lets ss bonds due x
  have hx : Later m x := .of_time (time_foldl _ scrubRes_time _ _)
  exact .ite (hx.trans (advanceTo_later ..)) hx

theorem perfSeam_later (m b) : Later m (perfSeam m b) := by
  unfold perfSeam
  extract_lets pmin x y z pl sl take pl1 pl2 sl' change u v
  have hz : Later m z := .of_time (by simp [x, y, z])
  have hu : Later m u := hz.then (by simp [u])
  have hv : Later m v := .ite (hu.trans (advanceTo_later ..)) hu
  exact .ite (hz.then (by simp)) (.ite (hv.then (by simp)) hv)

theorem seam_later (m) : Later m (seam m) := by
  unfold seam; split
  · exact .refl m
  · extract_lets a b c clk e h
    have ha : Later m a := endSlots_later m
    have hc : Later m c := (ha.then (beginFlips_time ..)).trans (advanceTo_later ..)
    have hh : Later m h := hc.then (by simp [h, e, clk])
    have hs : Later m (scrubSeam h).1 := hh.trans (scrubSeam_later h)
    exact (hs.then (by simp)).trans (perfSeam_later (powerSeam (memorySeam (fabricSeam (unloadSeam (activateTable
      (recordOutcomes (scrubSeam h).1)))))) (scrubSeam h).2)

/-- The tick counter counts modulo 2⁴⁸ (R17). -/
theorem tickBoundary_later (m) : Later m (tickBoundary m) := by
  unfold tickBoundary
  extract_lets a b c _ d k clk _ _ e g
  have hc : Later m c := ((seam_later m).trans (advanceTo_later ..)).then (takeTiming_time _)
  have hd : Later m d := ⟨hc.now, fun _ => Nat.mod_lt _ (by decide)⟩
  exact hd.then (by simp [e, g, clk])

theorem slotStart_later (m n) : Later m (slotStart m n) := by
  unfold slotStart; dsimp only; split
  · exact .refl m
  · refine (advanceTo_later m (quayTime m (entryOf m.tk.active n).start)).then ?_
    simp only [time_ite, failRun_time, countChoice_time, ite_self]
    split
    · split <;> simp
    · simp

theorem resultLand_later (m n) : Later m (resultLand m n) := by
  unfold resultLand; repeat' split
  · exact .refl m
  · exact .refl m
  · exact .refl m
  · exact .of_max ⟨_, by simp; rfl⟩
  · exact .of_max ⟨_, by simp; rfl⟩

theorem issueCtx_later {m iss p} (h : issueCtx m iss = some p) : Later m p.1 := by
  unfold issueCtx at h
  split at h
  · cases h
  split at h
  · cases h
  split at h
  · cases h
  next r _ _ st _ _ =>
    cases h
    have hc : (catchUp m r st.cyc).1.time = m.time := catchUp_time ..
    exact .ite (.after hc (advanceTo_later ..)) (.after hc (advanceTo_later ..))

theorem issue_later (m iss unit) {f} (hf : ∀ m c, (f m c).2.time = m.time) : Later m (issue m iss unit f) := by
  unfold issue; split
  · exact .refl m
  · next x c h =>
    have hm : ∀ (codes : List Nat) (i : Ins) (p : Mach × SlotRun), (codes.foldl (fun (p : Mach × SlotRun) code =>
        if code = 0x0210 then raiseRange p.1 p.2 i else if code = 0x0211 then raisePort p.1 p.2 i else (raiseIns p.1 code p.2 i, p.2)) p).1.time =
          p.1.time := fun codes i p => time_foldl_fst _ (fun p code => by split <;> [simp; split <;> simp]) codes p
    exact (issueCtx_later h).then (by simp [hm, hf])

theorem flipEnd_later (m t j) : Later m (flipEnd m t j) := by
  unfold flipEnd; split
  · exact .refl m
  · next b _ =>
    extract_lets a c d
    have ha : Later m a := by
      unfold a; split
      · exact advanceTo_later ..
      · exact .refl m
    split
    · exact ha
    · have hd : Later m d := by
        unfold d; split
        · exact (ha.then (beginFlip_time ..)).trans (advanceTo_later ..)
        · exact ha.then (beginFlip_time ..)
      exact hd.then (by simp)

theorem vadPublish_later (m) : Later m (vadPublish m) := by
  unfold vadPublish; split
  · exact .refl m
  · exact .of_max ⟨_, by simp; rfl⟩

theorem endShare_later (m n) : Later m (endShare m n) := by
  unfold endShare; split
  · exact .refl m
  · exact .of_max ⟨_, by simp; rfl⟩

theorem endShares_later (m) : Later m (endShares m) := later_foldl _ endShare_later _ _

theorem settleFrame_later (m) : Later m (settleFrame m) := by
  refine ((endShares_later m).trans (vadPublish_later _)).then ?_
  simp [settleFrame]

theorem audioFrame_later (m f) : Later m (audioFrame m f) :=
  (settleFrame_later m).trans (.of_max ⟨_, by simp [audioFrame]; rfl⟩)

theorem ringWrite_later (m n b) {f} (hf : ∀ m, (f m).time = m.time) : Later m (ringWrite m n b f) := by
  unfold ringWrite; split
  · exact .refl m
  · next r _ =>
    refine .then (.ite ?_ ?_) (ringDone_time ..)
    · exact .of_time (by simp)
    · exact .then (.after (by simp) (advanceTo_later ..)) (hf _)

theorem touchEnd_later (m c) : Later m (touchEnd m c) := by
  unfold touchEnd; dsimp only; split
  · exact .refl m
  · exact .of_max ⟨_, by simp; rfl⟩

theorem buttonDebounced_later (m b) : Later m (buttonDebounced m b) := by
  unfold buttonDebounced; dsimp only; split
  · exact .refl m
  · exact .of_max ⟨_, by simp; rfl⟩

theorem gridPoint_later (m) : Later m (gridPoint m) := by
  unfold gridPoint; split
  · exact .refl m
  · exact .of_max ⟨_, by simp; rfl⟩

theorem endTrans_later (m t b) : Later m (endTrans m t b) := (advanceTo_later m t.due).then (by simp [endTrans])

theorem transitionEnd_later (f m d a b) : Later m (transitionEnd f m d a b) := by
  unfold transitionEnd; split
  · exact .refl m
  · extract_lets x
    have hx : Later m x := endTrans_later ..
    exact hx.then (by simp)

theorem startClocks_later (f x k m) : Later m (startClocks f x k m) := by
  unfold startClocks
  extract_lets _ a b c _ d e g h i j
  exact .after (b := j) (by simp [a, b, c, d, e, g, h, i, j]) (advanceTo_later ..)

/-- The ticks that the start took are counted modulo 2⁴⁸ (R17, R757). -/
theorem passTime_later (m) : Later m (passTime m) := by
  unfold passTime
  extract_lets n fr _ _ a b
  have ha : Later m a := ⟨le_rfl, fun _ => Nat.mod_lt _ (by decide)⟩
  exact ha.then (by simp only [b, Mach.time_mk, Mach.time_pair, time_foldl _ (fun m _ => runRtc_time m), Mach.setRegN_time])

theorem startMount_later (x m) : Later m (startMount x m) := by
  unfold startMount
  extract_lets _ a b c d
  have ha : a.time = m.time := by simp [a]
  have hb : Later m b := .after ha (advanceTo_later ..)
  exact hb.then (by simp [d, c])

theorem bootFirmware_later (f x i k t r m) : Later m (bootFirmware f x i k t r m) := by
  unfold bootFirmware
  extract_lets a _ b c d e g h j
  have ha : Later m a := advanceTo_later ..
  have he : Later m e := ha.then (by simp [e, d, c, b])
  have hg : Later m g := he.trans (advanceTo_later ..)
  exact hg.then (by simp [j, h])

theorem startBoot_later (f x k t m) : Later m (startBoot f x k t m) := by
  rw [startBoot_eq]
  have hw := (advanceTo_later m (m.clk.now + ((bootTry f x.damaged (bootOrder m.fl)).1.map imageTime).foldl (· + ·) 0)).then
    (Mach.setFldOf_time _ rEF_START 8 4 (min (bootTry f x.damaged (bootOrder m.fl)).1.length 15))
  cases (bootTry f x.damaged (bootOrder m.fl)).2 with
  | some i => exact hw.trans (bootFirmware_later ..)
  | none => exact hw.then (by simp [Option.elim])

theorem startTrained_later (f x k m) : Later m (startTrained f x k m) := by
  unfold startTrained
  extract_lets c _ d
  have hd : Later m d := (startClocks_later f x k m).then (by simp [d, c])
  exact (hd.trans (advanceTo_later ..)).then (Mach.setFlagOf_time ..)

theorem startUp_later (f x m) : Later m (startUp f x m) := by
  cases hs : m.pm.start with
  | none => rw [startUp_none f x hs]; exact .refl m
  | some k =>
    have hx := startTrained_later f x k m
    cases ht : (trainOutcome x.train).2.2 with
    | true =>
      rw [startUp_trained f x hs ht]
      extract_lets a b
      have hb : Later m b := ((hx.then (by simp [a])).trans (startMount_later x _)).trans (startBoot_later ..)
      exact .ite hb (hb.trans (passTime_later b))
    | false =>
      rw [startUp_untrained f x hs ht]
      extract_lets b
      have hb : Later m b := hx.then (by simp [b])
      exact .ite hb (hb.trans (passTime_later b))

theorem coalesceTimer_later (m t) : Later m (coalesceTimer m t) := by
  unfold coalesceTimer; dsimp only; split
  · exact .refl m
  · exact .of_max ⟨_, by simp; rfl⟩

end Sys2Proof.Machine
end

section
/-!
PROOFS. Every command lets time go on, but a brown-out reset and the exit of EXTEST.
-/
namespace Sys2Proof.Machine

/-- After the command device time has not gone back, the tick counter is within its 48 bits where it was, and no fault waits. -/
def Ahead (i : Instr) : Prop := ∀ s, ∃ t, exec i s = .next t ∧ Later s.mach t.mach ∧ t.mach.ef.raised = []

theorem runEffect_time (f : Mach → Mach) (m : Mach) :
    (runEffect f m).time = (f { m with out := [] }).time := SameParts.time (sameParts_runEffect f m)

theorem later_runEffect {f : Mach → Mach} (hf : ∀ m, Later m (f m)) (m : Mach) : Later m (runEffect f m) :=
  .after (b := { m with out := [] }) rfl ((hf _).then (runEffect_time f m))

theorem Ahead.effect {i : Instr} {f : Mach → Mach} (hi : ∀ s, exec i s = s.effect f) (hf : ∀ m, Later m (f m)) : Ahead i :=
  fun s => ⟨_, hi s, later_runEffect hf s.mach, runEffect_raised ..⟩

theorem Ahead.effectF {i : Instr} {f : Fuses → Mach → Mach} (hi : ∀ s, exec i s = s.effectF f) (hf : ∀ fu m, Later m (f fu m)) : Ahead i :=
  fun s => ⟨_, hi s, later_runEffect (hf s.fuses) s.mach, runEffect_raised ..⟩

/-- A command that keeps the time. -/
theorem Ahead.still {i : Instr} {f : Mach → Mach} (hi : ∀ s, exec i s = s.effect f) (hf : ∀ m, (f m).time = m.time) : Ahead i :=
  .effect hi fun m => .of_time (hf m)

theorem Ahead.stillF {i : Instr} {f : Fuses → Mach → Mach} (hi : ∀ s, exec i s = s.effectF f) (hf : ∀ fu m, (f fu m).time = m.time) :
    Ahead i :=
  .effectF hi fun fu m => .of_time (hf fu m)

/-- A command of a queue that keeps the time. -/
theorem Ahead.command {i : Instr} {cmd op flt w} {f : Mach → Mach} (hi : ∀ s, exec i s = s.effect (fun m => beginCmd m cmd op flt w f))
    (hf : ∀ m, (f m).time = m.time) : Ahead i := .still hi fun m => beginCmd_time _ _ _ _ _ _ hf

/-- A message of the chain that keeps the time when it is taken. -/
theorem Ahead.message {i : Instr} {p} {g : Msg → Mach → Mach}
    (hi : ∀ s, exec i s = s.effect (fun m => match takeMsg m p with | none => m | some (x, m) => g x m))
    (hg : ∀ x m, (g x m).time = m.time) : Ahead i := .still hi fun m => by
  split
  · rfl
  · next h => exact (hg _ _).trans (takeMsg_time h)

theorem ahead_bondExpiry {t j} : Ahead (.bondExpiry t j) := .effect (fun _ => rfl) fun m => by
  dsimp only; repeat' split
  · exact .refl m
  · exact .refl m
  · exact .refl m
  · exact .of_max ⟨_, by simp; rfl⟩

theorem ahead_selftestComplete {fail} : Ahead (.selftestComplete fail) := .effect (fun _ => rfl) fun m => by
  dsimp only; repeat' split
  · exact .refl m
  · exact .refl m
  · exact (advanceTo_later ..).then rfl

theorem ahead_maskHoldExpiry {n} : Ahead (.maskHoldExpiry n) := .effect (fun _ => rfl) fun m => by
  split
  · exact .ite (.of_max ⟨_, by simp; rfl⟩) (.refl m)
  · exact .refl m

theorem ahead_transitionTimeout {d} : Ahead (.transitionTimeout d) := .effect (fun _ => rfl) fun m => by
  dsimp only; split
  · exact .refl m
  · exact .ite (.refl m) (.of_max ⟨_, by simp; rfl⟩)

theorem ahead_droopStretch {v c} : Ahead (.droopStretch v c) := .effect (fun _ => rfl) fun m => by
  dsimp only; repeat' split
  · exact .refl m
  · exact advanceTo_later ..
  · exact .of_max ⟨_, by simp; rfl⟩

theorem ahead_cutoffExpiry : Ahead (.cutoffExpiry) := .effect (fun _ => rfl) fun m => by
  split
  · exact .refl m
  · exact .of_max ⟨_, by simp; rfl⟩

theorem ahead_sendTransfer : Ahead (.sendTransfer) := .still (fun _ => rfl) fun m => by
  split
  · rfl
  · next h => split <;> simp [takeMsg_time h]

theorem ahead_redUp : Ahead (.redUp) := .message (fun _ => rfl) fun x m => by
  split
  · split <;> simp
  · rfl

theorem ahead_manifestLoad {cmd r} : Ahead (.manifestLoad cmd r) := .command (fun _ => rfl) fun m => withRef_time _ _ _ _ _ _ fun d => by
  dsimp only; split <;> simp

theorem Ahead.read {i p a} (hi : ∀ s, exec i s = readRow p a s) :
    Ahead i := .still (f := fun m => pathRead m p a 4) hi fun m => pathRead_time ..

theorem Ahead.write {i p a v} (hi : ∀ s, exec i s = writeRow p a v s) :
    Ahead i := .stillF (f := fun fu m => pathWord fu m p a v) hi fun _ m => by simp

/-- An instruction word that only contributes to its run. -/
theorem Ahead.pure {i iss unit f} (hi : ∀ s, exec i s = s.effect (fun m => issuePure m iss unit f)) : Ahead i :=
  .effect hi fun m => issue_later m iss unit fun _ _ => rfl

/-- An instruction word whose own effect keeps the time. -/
theorem Ahead.ins {i iss unit f} (hi : ∀ s, exec i s = s.effect (fun m => issue m iss unit f)) (hf : ∀ m c, (f m c).2.time = m.time) :
    Ahead i :=
  .effect hi fun m => issue_later m iss unit hf

theorem ahead_nop {src} : Ahead (.nop src) := by
  cases src with
  | word iss => exact .pure (fun _ => rfl)
  | command cmd => exact .still (f := fun m => nopCommand m cmd) (fun _ => rfl) fun m => by simp

theorem ahead_ownerEnroll {cmd r} : Ahead (.ownerEnroll cmd r) := fun s =>
  ⟨_, rfl, later_runEffect (fun m => .of_time (harbourCmd_time _ _ _ _ _ fun m => by
    split
    · simp
    · exact withRef_time _ _ _ _ _ _ fun d => by split <;> simp)) s.mach, runEffect_raised ..⟩

theorem ahead_svnCommit {cmd} : Ahead (.svnCommit cmd) := fun s =>
  ⟨_, rfl, later_runEffect (fun m => .of_time (harbourCmd_time _ _ _ _ _ fun m => by simp)) s.mach, runEffect_raised ..⟩

theorem ahead_commandComplete {q cid lost} : Ahead (.commandComplete q cid lost) :=
  .stillF (f := fun f m => if closedForBoot f m q cid
      then { endCmd m q cid lost with pm := { (endCmd m q cid lost).pm with start := some 2 } } else endCmd m q cid lost) (fun _ => rfl) fun f m => by split <;> simp

/-- Every command but a brown-out reset and EXTEST's exit. -/
theorem ahead (i : Instr) (h1 : i ≠ .brownOutReset) (h2 : i ≠ .extestExit) : Ahead i := by
  cases i
  case brownOutReset => exact absurd rfl h1
  case extestExit => exact absurd rfl h2
  case dmCeCount | lhCapMissed | auPbUnderrun | cmRxErr | snStreamOvr | snStreamMissed | fuOutMissed | fuSnsLate | chDiscard | chPortErr |
    hsAccessErr | hsQCount | efLost | efDevLost | pdDroopMin | pdStretchCount | lhEvtPopLo => exact .read (fun _ => rfl)
  case efTail | tkCommit | qySelftest | crRes | lhPartOwner | lhVadCfg | lhCapCfg | lhMicMute | auCommit | hapticGo | hapticStop | lhRtcLo
    | snBindCommit | cmCommit | arm | disarm | trig | fuCtrl | fuSnsCtrl | hmLockSet | newChallenge | unlock | relock | sendWake | hsQCfg =>
    exact .write (fun _ => rfl)
  case add | sub | mul | and | or | xor | shl | shr | sar | min | max | minu | maxu | movi | movhi | rdspec | cmpeq | cmpne | cmplt |
    cmpltu | cmple | cmpleu | plogic | loop | b | wait | endStream | pilot | ldS | stS | ldV | stV | ldD | movb | dset | dget | dadd | fsend |
    frecv | freduce => exact .pure (fun _ => rfl)
  case conf | wake | bondOpen | bondCommit | bondDrop | mma | conv | pool | vadd | vsub | vmul | vfma | vmin | vmax | vabs | vneg | vcmpeq
    | vcmplt | vcmple | vsel | vand | vor | vxor | vshl | vshr | vsar | vcvt | vbcast | vext | vrcp | vrsqrt | vsqrt | vdiv | vexp2 | vlog2 |
    vsin | vcos | vtanh | vredsum | vredmax | vredmin | vgather | vscatter | vmov => exact .ins (fun _ => rfl) fun m c => by simp
  case bondExpiry => exact ahead_bondExpiry
  case selftestComplete => exact ahead_selftestComplete
  case manifestLoad => exact ahead_manifestLoad
  case maskHoldExpiry => exact ahead_maskHoldExpiry
  case transitionTimeout => exact ahead_transitionTimeout
  case droopStretch => exact ahead_droopStretch
  case sendTransfer => exact ahead_sendTransfer
  case redUp => exact ahead_redUp
  case cutoffExpiry => exact ahead_cutoffExpiry
  case digest | verdict => exact .message (fun _ => rfl) fun _ _ => rfl
  case hello | cert | syncReq | peerTransfer => exact .message (fun _ => rfl) fun x m => by simp
  case seam => exact .effect (fun _ => rfl) fun m => seam_later m
  case tickBoundary => exact .effect (fun _ => rfl) fun m => tickBoundary_later m
  case mirrorCopy | ringRecordWrite => exact .effect (fun _ => rfl) fun m => ringWrite_later _ _ _ (by simp)
  case microArrayStart | stage1Publish => exact .effect (fun _ => rfl) fun m => .ite (resultLand_later ..) (.refl m)
  case timerTrigger | wheelReport | replayTimeout | railUndervolt | assignTimer | trainingTimeout =>
    exact .effect (fun _ => rfl) fun m => .ite (.refl m) (.of_max ⟨_, by simp; rfl⟩)
  case zeroOnFreeDone | pageCopyDone | frameRecord | ibi | sequenceRunStart | wheelEdge | burstEnergyExhausted | ruleFence =>
    refine .still (fun _ => rfl) fun m => ?_
    dsimp only; repeat' split
    all_goals simp
  case progLoad | progUnload | free | manifestUnload | imgData | imgClose | imgDelete | imgLoad | streamOpen | hostWrite | hostRead |
    hostmemUnreg | attest =>
    refine .command (fun _ => rfl) fun m => ?_
    dsimp only; repeat' split
    all_goals simp
  case assign | topo | cascade | syncResp | redDown =>
    refine .message (fun _ => rfl) fun x m => ?_
    dsimp only; repeat' split
    all_goals simp
  case crystalStartTimeout | routeTableRelease | sequenceDelayEnd =>
    refine .effect (fun _ => rfl) fun m => ?_
    dsimp only; split
    · exact .refl m
    · exact .of_max ⟨_, by simp; rfl⟩
  case nop => exact ahead_nop
  case ownerEnroll => exact ahead_ownerEnroll
  case svnCommit => exact ahead_svnCommit
  case slotStart => exact .effect (fun _ => rfl) fun m => slotStart_later ..
  case slotEnd => exact .effect (fun _ => rfl) fun m => slotEnd_later ..
  case resultLand => exact .effect (fun _ => rfl) fun m => resultLand_later ..
  case commitFlipEnd => exact .effect (fun _ => rfl) fun m => flipEnd_later ..
  case audioFrame => exact .effect (fun _ => rfl) fun m => audioFrame_later ..
  case taskShareEnd => exact .effect (fun _ => rfl) fun m => endShare_later ..
  case vadPublish => exact .effect (fun _ => rfl) fun m => vadPublish_later ..
  case touchMeasurementEnd => exact .effect (fun _ => rfl) fun m => touchEnd_later ..
  case buttonDebounced => exact .effect (fun _ => rfl) fun m => buttonDebounced_later ..
  case gridPoint => exact .effect (fun _ => rfl) fun m => gridPoint_later ..
  case irqCoalesceTimer => exact .effect (fun _ => rfl) fun m => coalesceTimer_later ..
  case registerWrite p a bs => exact .stillF (f := fun f m => pathWrite f m p a bs) (fun _ => rfl) fun _ m => by simp
  case scan p => exact .stillF (f := fun f m => pathWord f m p rLH_TOUCH_CFG (m.reg rLH_TOUCH_CFG ||| 0x4000#32)) (fun _ => rfl) fun _ m => by simp
  case lhRhTenants p v =>
    exact .stillF (f := fun f m => pathWord f (pathWord f m p (rLH_RH_TENANTS_LO + 4) (v.extractLsb' 32 32)) p rLH_RH_TENANTS_LO (v.extractLsb' 0 32))
      (fun _ => rfl) fun _ m => by simp
  case domainTransitionComplete d ok full =>
    exact .effectF (f := fun f m => transitionEnd f m d.val ok full) (fun _ => rfl) fun _ m => transitionEnd_later ..
  case brownOutRelease x => exact .effectF (f := fun f m => startUp f x m) (fun _ => rfl) fun _ m => startUp_later ..
  case commandComplete => exact ahead_commandComplete
  case qspiWrite a ws cut => exact .stillF (f := fun f m => qspiWrite f m a ws cut) (fun _ => rfl) fun _ m => by simp
  case regWrite cmd off v => exact .stillF (f := fun f m => regWrite f m cmd off v) (fun _ => rfl) fun _ m => by simp
  case wideValueCaptureRead | referenceStop | referenceRestart | tableValidationDone | programValidationDone | alloc | transferIssue |
    transferComplete | writeDurable | relocationDone | imgOpen | imgList | bootSelect | flashFormat | casCreate | casArm | casDisarm |
    casDestroy | xtal32Loss | xtal32Relock | xtal32StartTimeout | partitionClearDone | touchScanTimer | buttonInput | hapticStepEnd | rtcAlarm |
    rtcPeriod | residentHostSwitch | streamClose | streamInject | frameStart | frameEnd | longPacket | snI3cCfg | hotJoin | busTransactionDone |
    pwrSet | perfSet | standingOrder | loweringStart | squelchBreak | wakePattern | clkreqAssert | perstDeassert | qspiCsAssert | ilimUpdate |
    stepAssist | releaseShunt | thermalShutdownComparator | vWarnAssert | vWarnDeassert | vNvwAssert | vNvwDeassert | vRetAssert | vRetDeassert
    | tenantCreate | tenantDestroy | rulesUpdate | rmaConsent | entropyHealthTest | extestEntry | flit | ack | train | sleep | blockLockLoss |
    topoTimer | jobOpen | jobClose | sqTailDoorbell | cqHeadDoorbell | commandFetch | linkReset | linkTrained | d3hotEntry | d0Return | qspiRead
    | qspiStatus | regRead | hostmemReg | lhMemWrite | lhMemRead | runNotify | droopRecorderMinimum | reservoirVResMin | dphyLaneStateChange |
    vioBankSupplyChange | keepAliveLoss => exact .still (fun _ => rfl) fun m => by simp

/-- A brown-out reset starts the tick counter again (R757), and EXTEST's exit is one. -/
theorem brownOutReset_tick (m : Mach) : (brownOutReset m).clk.tick = 0 := rfl

theorem extestExit_tick {m : Mach} (h : m.clk.tick < 2 ^ 48) : (if m.hm.extest then brownOutReset m else m).clk.tick < 2 ^ 48 := by
  split
  · rw [brownOutReset_tick]; decide
  · exact h

/-- Whatever the command, the tick counter stays within its 48 bits and the faults become records. -/
theorem exec_keeps (i : Instr) {s t : State} (hs : s.mach.clk.tick < 2 ^ 48) (h : exec i s = .next t) : Kept t := by
  by_cases h1 : i = .brownOutReset
  · subst h1
    cases h
    exact ⟨(runEffect_tick ..).trans_lt (by rw [brownOutReset_tick]; decide), runEffect_raised ..⟩
  · by_cases h2 : i = .extestExit
    · subst h2
      cases h
      exact ⟨(runEffect_tick ..).trans_lt (extestExit_tick hs), runEffect_raised ..⟩
    · obtain ⟨u, hu, hl, hr⟩ := ahead i h1 h2 s
      cases hu.symm.trans h
      exact ⟨hl.tick hs, hr⟩

theorem idleTick_now (m : Mach) : m.clk.now ≤ (idleTick m).clk.now := by
  unfold idleTick; split <;> simp

theorem idleTick_tick (m : Mach) : (idleTick m).clk.tick = m.clk.tick := by
  unfold idleTick; split <;> rfl

theorem idleTick_raised (m : Mach) : (idleTick m).ef.raised = m.ef.raised := by
  unfold idleTick; split <;> rfl

/-- Settles O59: every command but the two that start the block again only lets time go on; the idle step is a clock edge. -/
theorem everyStepKeepsTheClocks : Obligations.EveryStepKeepsTheClocks := by
  unfold Obligations.EveryStepKeepsTheClocks
  rintro s t ⟨hs, hr⟩ h
  unfold step at h
  cases hp : s.pending with
  | nil =>
    rw [hp] at h
    cases h
    exact ⟨⟨(idleTick_tick _).trans_lt hs, (idleTick_raised _).trans hr⟩, fun _ _ => idleTick_now _⟩
  | cons c rest =>
    rw [hp] at h
    refine ⟨exec_keeps c (s := { s with pending := rest }) hs h, fun h1 h2 => ?_⟩
    obtain ⟨u, hu, hl, _⟩ := ahead c (fun e => h1 (e ▸ rfl)) (fun e => h2 (e ▸ rfl)) { s with pending := rest }
    cases hu.symm.trans h
    exact hl.now

end Sys2Proof.Machine
end

section
/-!
PROOFS. The fields of a register word: what a field reads after it, or another one, was written.
-/
namespace Sys2Proof.Machine

/-- A field was put between the bits above and below it. -/
theorem setFld_toNat (w : Word) {lo n : Nat} (v : Nat) (h : lo + n ≤ 32) :
    (setFld w lo n v).toNat = 2 ^ lo * (2 ^ n * (w.toNat / 2 ^ (lo + n)) + v % 2 ^ n) + w.toNat % 2 ^ lo := by
  have hw : w.toNat / 2 ^ lo = 2 ^ n * (w.toNat / 2 ^ (lo + n)) + w.toNat / 2 ^ lo % 2 ^ n := by
    rw [pow_add, ← Nat.div_div_eq_div_mul, Nat.div_add_mod]
  have hlow := Nat.div_add_mod w.toNat (2 ^ lo)
  have hv : v % 2 ^ n < 2 ^ n := Nat.mod_lt _ (by positivity)
  have hl : w.toNat % 2 ^ lo < 2 ^ lo := Nat.mod_lt _ (by positivity)
  have hh : w.toNat / 2 ^ (lo + n) + 1 ≤ 2 ^ (32 - (lo + n)) := by
    rw [Nat.succ_le_iff, Nat.div_lt_iff_lt_mul (by positivity), ← pow_add, Nat.sub_add_cancel h]
    exact w.isLt
  have hlt : 2 ^ lo * (2 ^ n * (w.toNat / 2 ^ (lo + n)) + v % 2 ^ n) + w.toNat % 2 ^ lo < 2 ^ 32 := calc
    _ < 2 ^ lo * (2 ^ n * (w.toNat / 2 ^ (lo + n)) + v % 2 ^ n + 1) := by rw [Nat.mul_add _ _ 1]; omega
    _ ≤ 2 ^ lo * (2 ^ n * (w.toNat / 2 ^ (lo + n) + 1)) := Nat.mul_le_mul_left _ (by rw [Nat.mul_add (2 ^ n)]; omega)
    _ ≤ 2 ^ lo * (2 ^ n * 2 ^ (32 - (lo + n))) := Nat.mul_le_mul_left _ (Nat.mul_le_mul_left _ hh)
    _ = 2 ^ 32 := by rw [← pow_add, ← pow_add]; congr 1; omega
  rw [setFld, BitVec.toNat_ofNat, bits_eq, Nat.mod_eq_of_lt]
  all_goals
    have e : w.toNat - w.toNat / 2 ^ lo % 2 ^ n * 2 ^ lo + v % 2 ^ n * 2 ^ lo =
        2 ^ lo * (2 ^ n * (w.toNat / 2 ^ (lo + n)) + v % 2 ^ n) + w.toNat % 2 ^ lo := by
      rw [hw, Nat.mul_add] at hlow
      rw [Nat.mul_add, Nat.mul_comm (2 ^ lo) (v % 2 ^ n), Nat.mul_comm _ (2 ^ lo)]
      omega
    rw [e]
  exact hlt

/-- Each bit of a word after a field was written. -/
theorem testBit_setFld (w : Word) {lo n : Nat} (v i : Nat) (h : lo + n ≤ 32) :
    (setFld w lo n v).toNat.testBit i = if lo ≤ i ∧ i < lo + n then v.testBit (i - lo) else w.toNat.testBit i := by
  rw [setFld_toNat w v h, Nat.testBit_two_pow_mul_add _ (Nat.mod_lt _ (by positivity))]
  by_cases h1 : i < lo
  · rw [if_pos h1, if_neg (by omega), Nat.testBit_mod_two_pow]; simp [h1]
  · rw [if_neg h1, Nat.testBit_two_pow_mul_add _ (Nat.mod_lt _ (by positivity))]
    by_cases h2 : i < lo + n
    · rw [if_pos (by omega), if_pos (by omega), Nat.testBit_mod_two_pow]; simp [show i - lo < n by omega]
    · rw [if_neg (by omega), if_neg (by omega), Nat.testBit_div_two_pow]; congr 1; omega

theorem flag_setFlag (w : Word) {i : Nat} (b : Bool) (j : Nat) (h : i < 32) : flag (setFlag w i b) j = if j = i then b else flag w j := by
  rw [flag, setFlag, testBit_setFld w _ j (by omega)]
  by_cases hj : j = i
  · subst hj; rw [if_pos ⟨le_rfl, Nat.lt_succ_self _⟩, if_pos rfl, Nat.sub_self]; cases b <;> rfl
  · rw [if_neg (by omega), if_neg hj, flag]

theorem testBit_fld (w : Word) (lo n i : Nat) : (fld w lo n).testBit i = (decide (i < n) && w.toNat.testBit (lo + i)) := by
  rw [fld, bits, Nat.testBit_mod_two_pow, Nat.testBit_shiftRight]

/-- A field that was written. -/
theorem fld_setFld_same (w : Word) {lo n : Nat} (v : Nat) (h : lo + n ≤ 32) : fld (setFld w lo n v) lo n = v % 2 ^ n := by
  refine Nat.eq_of_testBit_eq fun i => ?_
  rw [testBit_fld, testBit_setFld w _ _ h, Nat.testBit_mod_two_pow]
  by_cases hi : i < n
  · rw [if_pos (by omega)]; simp [hi]
  · simp [hi]

/-- A field beside the one that was written. -/
theorem fld_setFld_ne (w : Word) {lo n lo' n' : Nat} (v : Nat) (h : lo + n ≤ 32) (hd : lo' + n' ≤ lo ∨ lo + n ≤ lo') :
    fld (setFld w lo n v) lo' n' = fld w lo' n' := by
  refine Nat.eq_of_testBit_eq fun i => ?_
  rw [testBit_fld, testBit_fld, testBit_setFld w _ _ h]
  by_cases hi : i < n'
  · rw [if_neg (by omega)]
  · simp [hi]

/-! ## Registers -/

section
variable (m : Mach) (a : Nat)

@[simp] theorem flagOf_setFlagOf_same {i : Nat} (b : Bool) (h : i < 32) : (m.setFlagOf a i b).flagOf a i = b := by
  rw [Mach.flagOf, Mach.setFlagOf, Mach.reg_setReg_same, flag_setFlag _ _ _ h, if_pos rfl]

theorem flagOf_setFlagOf_ne {i j : Nat} (b : Bool) (h : i < 32) (hj : j ≠ i) : (m.setFlagOf a i b).flagOf a j = m.flagOf a j := by
  rw [Mach.flagOf, Mach.setFlagOf, Mach.reg_setReg_same, flag_setFlag _ _ _ h, if_neg hj, Mach.flagOf]

theorem fldOf_setFldOf_same {lo n : Nat} (v : Nat) (h : lo + n ≤ 32) : (m.setFldOf a lo n v).fldOf a lo n = v % 2 ^ n := by
  rw [Mach.fldOf, Mach.setFldOf, Mach.reg_setReg_same, fld_setFld_same _ _ h]

theorem fldOf_setFlagOf_ne {i lo n : Nat} (b : Bool) (h : i < 32) (hd : lo + n ≤ i ∨ i < lo) :
    (m.setFlagOf a i b).fldOf a lo n = m.fldOf a lo n := by
  rw [Mach.fldOf, Mach.setFlagOf, Mach.reg_setReg_same, setFlag, fld_setFld_ne _ _ (by omega) (by omega), Mach.fldOf]

/-- Two flags that are clear are a field of zero. -/
theorem fldOf_two {i : Nat} (h0 : m.flagOf a i = false) (h1 : m.flagOf a (i + 1) = false) : m.fldOf a i 2 = 0 := by
  refine Nat.eq_of_testBit_eq fun k => ?_
  rw [Mach.fldOf, testBit_fld, Nat.zero_testBit]
  match k with
  | 0 => simpa [Mach.flagOf, flag] using h0
  | 1 => simpa [Mach.flagOf, flag] using h1
  | k + 2 => simp
end

/-! ## Masks -/

/-- The bits of a mask. -/
theorem bit_maskOf (l : List Nat) (d : Nat) : bit (maskOf l) d = decide (d ∈ l) := by
  have hk : ∀ k, bit (l.foldl (fun m i => m ||| 2 ^ i) k) d = (bit k d || decide (d ∈ l)) := by
    induction l with
    | nil => simp
    | cons x l ih =>
      intro k
      rw [List.foldl_cons, ih, bit, bit, Nat.testBit_or, Nat.testBit_two_pow, Bool.or_assoc]
      congr 1
      rw [Bool.eq_iff_iff]
      simp only [Bool.or_eq_true, decide_eq_true_eq, List.mem_cons, @eq_comm _ x d]
  rw [maskOf, hk]
  simp [bit]

end Sys2Proof.Machine
end

section
/-!
PROOFS. The reference's stop and restart, the crystal's timeout, the self-test's end and the end of a validation (R18, R28–R30, R177, R494).
-/
namespace Sys2Proof.Machine

/-! ## The reference -/

/-- Giving slots an outcome changes the outcomes alone. -/
theorem foldl_setOutcome (v : Nat) (ns : List Nat) (m : Mach) : ns.foldl (fun m n => setOutcome m n v) m =
    { m with tk := { m.tk with outcomes := ns.foldl (fun t n => tabPut t n v) m.tk.outcomes } } := by
  induction ns generalizing m with
  | nil => rfl
  | cons n ns ih => rw [List.foldl_cons, ih]; rfl

/-- The outcome of each slot that was given one. -/
theorem tabFind_foldl_tabPut {β : Type} (v : β) (ns : List Nat) (t : Tab β) (k : Nat) :
    tabFind (ns.foldl (fun t n => tabPut t n v) t) k = if k ∈ ns then some v else tabFind t k := by
  induction ns generalizing t with
  | nil => simp
  | cons n ns ih =>
    rw [List.foldl_cons, ih, tabFind_tabPut]
    by_cases hn : k = n <;> by_cases hk : k ∈ ns <;> simp [hn, hk]

/-- The runs of slots stop with outcome IDLE. -/
theorem idleRuns_eq (m : Mach) : idleRuns m = { m with
    tk := { m.tk with outcomes := ((m.st.runs.filter (fun r => !r.isTask)).map (·.id)).foldl (fun t n => tabPut t n 1) m.tk.outcomes },
    st := { m.st with runs := mapIf (fun r => !r.isTask) SlotRun.stopped m.st.runs } } := by
  unfold idleRuns
  rw [foldl_setOutcome]

theorem referenceStop_stopped {m : Mach} (h : m.clk.refStopped = true) : referenceStop m = m := if_pos h

theorem referenceRestart_running {m : Mach} (h : m.clk.refStopped = false) : referenceRestart m = m := if_pos (by simp [h])

/-- REFERENCE_STOP before TICK_COARSE is raised (R18, R63). -/
def stopReference (m : Mach) : Mach :=
  ({ idleRuns m with clk := { m.clk with refStopped := true, stopAt := m.clk.now, coarseTick := true } } : Mach).setFlagOf rTK_STATUS 2 true

theorem referenceStop_running {m : Mach} (h : m.clk.refStopped = false) :
    referenceStop m = if m.flagOf rTK_CTRL 0 then raiseD (stopReference m) 0x0105 0 else stopReference m := by
  have hreg : (stopReference m).flagOf rTK_CTRL 0 = m.flagOf rTK_CTRL 0 := by
    rw [Mach.flagOf, stopReference, reg_setFlagOf_ne _ (by decide), idleRuns_eq]; rfl
  rw [← hreg]
  unfold stopReference
  rw [idleRuns_eq, referenceStop, if_neg (by simp [h]), idleRuns_eq]

theorem stopReference_parts (m : Mach) :
    (stopReference m).clk = { m.clk with refStopped := true, stopAt := m.clk.now, coarseTick := true } ∧
    (stopReference m).st = { m.st with runs := mapIf (fun r => !r.isTask) SlotRun.stopped m.st.runs } ∧
    (∀ k ∈ (m.st.runs.filter (fun r => !r.isTask)).map (·.id), tabFind (stopReference m).tk.outcomes k = some 1) ∧
    (stopReference m).flagOf rTK_STATUS 2 = true ∧ (stopReference m).ef = m.ef ∧ (stopReference m).mem = m.mem ∧ (stopReference m).lh = m.lh := by
  unfold stopReference
  rw [idleRuns_eq]
  exact ⟨rfl, rfl, fun k hk => (tabFind_foldl_tabPut ..).trans (if_pos hk), flagOf_setFlagOf_same _ _ _ (by decide), rfl, rfl, rfl⟩

/-! ## The end of a self-test -/

section
variable {s : State} {fail : BitVec 16}

theorem leaves_selftestComplete_none
    (h : s.taken.tk.testLeft = none ∨ s.taken.tk.testFail.isSome = true ∨ s.taken.clk.inSeam = true ∨ s.taken.clk.coarseTick = true) :
    Leaves (.selftestComplete fail) s s.taken := by
  refine leaves_effect rfl ?_
  dsimp only
  split
  · rfl
  · next k hk =>
    obtain h | h | h | h := h
    · rw [hk] at h; cases h
    · exact if_pos (.inl h)
    · exact if_pos (.inr (.inl h))
    · exact if_pos (.inr (.inr (.inl h)))

theorem leaves_selftestComplete {n : Nat} (h : s.taken.tk.testLeft = some n) (hf : s.taken.tk.testFail = none) (hs : s.taken.clk.inSeam = false)
    (hc : s.taken.clk.coarseTick = false) (hn : n ≤ testRegion s.taken) :
    Leaves (.selftestComplete fail) s { advanceTo s.taken (quayTime s.taken (s.taken.tk.testAt + n)) with
      tk := { s.taken.tk with testLeft := some 0, testFail := some (fail.toNat &&& s.taken.tk.testNamed) } } := by
  refine leaves_effect rfl ?_
  dsimp only
  rw [h]
  exact if_neg (by simp [hf, hs, hc, hn])
end

/-! ## The lists that a submission releases -/

/-- The tick, the strict domain, the flash, the tenants and the cascades. -/
def Mach.plans (m : Mach) : Tick × Strict × Flash × Harbour × List Casc := (m.tk, m.st, m.fl, m.hm, m.cas)

theorem SameParts.plans {m m' : Mach} (h : SameParts m m') : m'.plans = m.plans := by
  simp only [Mach.plans, h.tk, h.st, h.fl, h.hm, h.cas]

theorem plans_foldl {α : Type} (f : Mach → α → Mach) (hf : ∀ m x, (f m x).plans = m.plans) (l : List α) (m : Mach) :
    (l.foldl f m).plans = m.plans := by
  induction l generalizing m with
  | nil => rfl
  | cons x l ih => exact (ih _).trans (hf m x)

theorem runNotice_plans (m : Mach) (slot tenant tick status cls : Nat) : (runNotice m slot tenant tick status cls).plans = m.plans := by
  unfold runNotice; split
  · rfl
  · exact (sameParts_notice ..).plans

theorem listEnd_plans (m : Mach) (id : Nat) : (listEnd m id).plans = m.plans := by
  unfold listEnd; dsimp only; repeat' split
  · rfl
  · rfl
  · rfl
  · rfl
  · rfl
  · exact runNotice_plans ..
  · rfl

theorem abandonFeed_plans (m : Mach) (slot : Nat) : (abandonFeed m slot).plans = m.plans := by
  unfold abandonFeed; split
  · rfl
  · exact listEnd_plans ..

theorem releaseInputs_plans (m : Mach) (slot tenant : Nat) (x : Manifest) (spec : Bool) (fabric : Nat) :
    (releaseInputs m slot tenant x spec fabric).plans = m.plans :=
  (listEnd_plans ..).trans (abandonFeed_plans m slot)

/-- Feeding an entry releases lists and nothing else (R247). -/
theorem feedEntry_plans (m : Mach) (n : Nat) (e : Entry) (bound fabric : Nat) : (feedEntry m n e bound fabric).1.plans = m.plans := by
  unfold feedEntry; split
  · rfl
  · split
    · rfl
    · exact releaseInputs_plans ..

/-! ## The end of a validation -/

theorem validateTable_none {m : Mach} (h : m.tk.validating = none) : validateTable m = m := by
  unfold validateTable; rw [h]

section
variable {m : Mach} {sub : Submission} (h : m.tk.validating = some sub)
include h

theorem validateTable_rejected {e r : Nat} (hf : submissionFault { m with tk := { m.tk with validating := none } } sub = some (e, r)) :
    validateTable m = raiseT (showPending ((({ m with tk := { m.tk with validating := none } } : Mach).setRegN rTK_REJECT
      (e + 256 * r + 65536 * fld (tabGet sub.table 0 0) 16 16)).setFlagOf rTK_STATUS 1 true)) 0x0102 0
      (e + 256 * r + 65536 * fld (tabGet sub.table 0 0) 16 16) := by
  unfold validateTable; rw [h]; dsimp only; rw [hf]

/-- An accepted submission waits for its seam with its bindings (R28, R755). -/
theorem validateTable_accepted (hf : submissionFault { m with tk := { m.tk with validating := none } } sub = none) :
    (validateTable m).plans =
      ({ m.tk with validating := none, accepted := some { sub with bound := bindings m sub.table } }, m.st, m.fl, m.hm, m.cas) := by
  unfold validateTable; rw [h]; dsimp only; rw [hf]
  refine (plans_foldl _ (fun m e => ?_) _ _).trans rfl
  split
  · rfl
  · exact feedEntry_plans ..
end

/-! ## The obligation -/

/-- Settles O39: an event that finds nothing to do changes nothing; the others are the model's operations, one lemma each. -/
theorem tickEvents : Obligations.TickEvents := by
  unfold Obligations.TickEvents
  intro s fail n e r sub m slots count again held first failed tested cleared v
  refine ⟨fun h => leaves_effect rfl (referenceStop_stopped h), fun h => ⟨_, leaves_effect rfl (referenceStop_running h), ?_⟩,
    fun h => leaves_effect rfl (referenceRestart_running h), fun h => leaves_effect rfl (if_neg (by simpa using h)),
    fun h => leaves_effect rfl (if_pos (by simpa using h)), fun h => leaves_effect rfl (if_neg (by simpa using h)),
    leaves_selftestComplete_none, leaves_selftestComplete,
    fun h => leaves_effect rfl (validateTable_none h), fun h hf => leaves_effect rfl (validateTable_rejected h hf),
    fun h hf => ⟨_, leaves_effect rfl rfl, ?_⟩⟩
  · obtain ⟨hc, hst, ho, hflag, hef, hmem, hlh⟩ := stopReference_parts m
    cases hw : m.flagOf rTK_CTRL 0
    · exact ⟨hc, hst, ho, hflag, fun _ => hef, fun h => absurd h Bool.false_ne_true, hmem, hlh⟩
    · exact ⟨hc, hst, ho, hflag, fun h => absurd h.symm Bool.false_ne_true,
        fun _ => ⟨_, congrArg (· ++ _) (congrArg FaultLog.raised hef), rfl, rfl⟩, hmem, hlh⟩
  · have hx := validateTable_accepted h hf
    simp only [Mach.plans, Prod.mk.injEq] at hx
    obtain ⟨htk, -, hrest⟩ := hx
    exact ⟨htk, hrest⟩

end Sys2Proof.Machine
end

section
/-!
PROOFS. A slot from its START to its end cycle (R37–R46, R247).
-/
namespace Sys2Proof.Machine

/-! ## What an overtaken transfer leaves of the slots -/

/-- The runs under way and the outcomes of the tick. -/
def Mach.slots (m : Mach) : List SlotRun × Tab Nat := (m.st.runs, m.tk.outcomes)

theorem slots_of_plans {m m' : Mach} (h : m'.plans = m.plans) : m'.slots = m.slots := by
  simp only [Mach.plans, Prod.mk.injEq] at h
  obtain ⟨htk, hst, -⟩ := h
  rw [Mach.slots, htk, hst, Mach.slots]

theorem slots_foldl {α : Type} (f : Mach → α → Mach) (hf : ∀ m x, (f m x).slots = m.slots) (l : List α) (m : Mach) :
    (l.foldl f m).slots = m.slots := by
  induction l generalizing m with
  | nil => rfl
  | cons x l ih => exact (ih _).trans (hf m x)

theorem failRun_slots (m : Mach) (code tenant slot : Nat) : (failRun m code tenant slot).slots = m.slots := by
  unfold failRun; dsimp only; split <;> rfl

theorem failList_slots (m : Mach) (id code : Nat) : (failList m id code).slots = m.slots := by
  unfold failList; split <;> rfl

theorem dropXfer_slots (m : Mach) (x : Xfer) : (dropXfer m x).slots = m.slots := slots_of_plans (listEnd_plans ..)

theorem storeAlloc_slots (m : Mach) (h gen off : Nat) (bs : List Byte) : (storeAlloc m h gen off bs).slots = m.slots := by
  unfold storeAlloc; split
  · rfl
  · unfold touchPage; split <;> rfl

theorem moveBytes_slots (m : Mach) (x : Xfer) (n : Nat) : (moveBytes m x n).slots = m.slots := by
  unfold moveBytes; repeat' split
  · rfl
  · rfl
  · rfl
  · rfl
  · exact storeAlloc_slots ..

theorem abortOne_slots (st : Nat) (m : Mach) (x : Xfer) : (abortOne st m x).slots = m.slots := moveBytes_slots ..

theorem abortXfers_slots (m : Mach) (p : Xfer → Bool) (st : Nat) : (abortXfers m p st).slots = m.slots := by
  refine (slots_foldl _ dropXfer_slots _ _).trans ((slots_foldl _ (abortOne_slots st) _ _).trans (slots_foldl _ (fun m x => ?_) _ _))
  split
  · exact failList_slots ..
  · rfl

theorem overtake_slots (m : Mach) (berths : Nat) : (overtake m berths).slots = m.slots :=
  slots_foldl _ (fun _ _ => (abortXfers_slots ..).trans (failRun_slots ..)) _ _

/-! ## The start -/

/-- Every key that was given a value holds it. -/
theorem tabGet_foldl_tabSet {β : Type} [DecidableEq β] (v d : β) (is : List Nat) (t : Tab β) (k : Nat) :
    tabGet (is.foldl (fun t i => tabSet t i v d) t) k d = if k ∈ is then v else tabGet t k d := by
  induction is generalizing t with
  | nil => simp
  | cons i is ih =>
    rw [List.foldl_cons, ih, tabGet_tabSet]
    by_cases hi : k = i <;> by_cases hk : k ∈ is <;> simp [hi, hk]

section
variable (m b : Mach) (n : Nat) (e : Entry)

theorem manCheck_lt : manCheck b n e < 2 ^ 4 := by
  unfold manCheck; repeat' split
  all_goals decide

theorem startOutcome_idle (h : idleAt b n e = true) : startOutcome b n e = (1, 0) := if_pos h

theorem idleAt_off (h : b.tk.strict = false ∨ bit b.tk.halted e.tenant = true ∨ (entryRes e).all (resOn b) = false) :
    idleAt b n e = true := by
  unfold idleAt
  obtain h | h | h := h <;> simp [h]

theorem showCheck_last (h : idleAt b n e = false) : (showCheck m b n e).fldOf (rCR_MAN_STATE n) 4 4 = manCheck b n e := by
  have h4 : (m.setFldOf (rCR_MAN_STATE n) 4 4 (manCheck b n e)).fldOf (rCR_MAN_STATE n) 4 4 = manCheck b n e := by
    rw [fldOf_setFldOf_same _ _ _ (by decide), Nat.mod_eq_of_lt (manCheck_lt ..)]
  rw [showCheck, if_neg (by simp [h])]
  dsimp only
  split
  · exact h4
  · rw [fldOf_setFlagOf_ne _ _ _ (by decide) (by decide), fldOf_setFlagOf_ne _ _ _ (by decide) (by decide), h4]

theorem showCheck_taken (h : idleAt b n e = false) (hm : e.manifest ≠ 0xFFFF) : (showCheck m b n e).fldOf (rCR_MAN_STATE n) 0 2 = 0 := by
  rw [showCheck, if_neg (by simp [h])]
  dsimp only
  rw [if_neg hm]
  refine fldOf_two _ _ ?_ (flagOf_setFlagOf_same _ _ _ (by decide))
  rw [flagOf_setFlagOf_ne _ _ _ (by decide) (by decide), flagOf_setFlagOf_same _ _ _ (by decide)]

theorem showCheck_slots : (showCheck m b n e).slots = m.slots := by
  unfold showCheck; split
  · rfl
  · dsimp only; split <;> rfl

theorem showCheck_tk : (showCheck m b n e).tk = m.tk := by
  unfold showCheck; split
  · rfl
  · dsimp only; split <;> rfl

/-- The streams that a slot runs, where it runs (R64–R66). -/
def startStreams : List Stream :=
  if (startOutcome b n e).1 = 0 then ((slotProgOf b e.tenant e.program).map (bindStreams e)).getD [] else []

/-- The slot holds its resources and is their last owner. -/
def holdSlot : Mach :=
  let m := overtake (setOutcome b n (startOutcome b n e).1) e.berths
  { m with st := { m.st with runs := m.st.runs ++ [slotRun b n e (startStreams b n e) (startOutcome b n e).2] },
           tk := { m.tk with owner := (entryRes e).foldl (fun t i => tabSet t i e.tenant 64) m.tk.owner } }

/-- The list that fed a run that starts is used up. -/
def useList : Mach :=
  match feedList m n with
  | some l => { m with mem := { m.mem with lists := m.mem.lists.filter (·.id != l.id) } }
  | none => m

/-- A slot at its START, before a skip is noticed. -/
def slotTaken : Mach :=
  let m := showCheck (holdSlot b n e) b n e
  if (startOutcome b n e).1 = 0 then useList m n else m

theorem holdSlot_slots : (holdSlot b n e).slots =
    (b.st.runs ++ [slotRun b n e (startStreams b n e) (startOutcome b n e).2], tabPut b.tk.outcomes n (startOutcome b n e).1) := by
  have h := overtake_slots (setOutcome b n (startOutcome b n e).1) e.berths
  simp only [Mach.slots, Prod.mk.injEq] at h
  obtain ⟨hr, ho⟩ := h
  exact Prod.ext (congrArg (· ++ _) hr) ho

theorem slotTaken_slots : (slotTaken b n e).slots = (holdSlot b n e).slots := by
  unfold slotTaken useList; dsimp only
  repeat' split
  all_goals exact showCheck_slots ..

theorem slotTaken_fldOf (a lo k : Nat) : (slotTaken b n e).fldOf a lo k = (showCheck (holdSlot b n e) b n e).fldOf a lo k := by
  unfold slotTaken useList; dsimp only
  repeat' split
  all_goals rfl

theorem slotTaken_owner {i : Nat} (hi : i ∈ entryRes e) : tabGet (slotTaken b n e).tk.owner i 64 = e.tenant := by
  have ht : (slotTaken b n e).tk = (holdSlot b n e).tk := by
    rw [← showCheck_tk (holdSlot b n e) b n e]
    unfold slotTaken useList; dsimp only
    repeat' split
    all_goals rfl
  rw [ht]
  exact (tabGet_foldl_tabSet ..).trans (if_pos hi)
end

section
variable {m : Mach} {n : Nat}

theorem slotStart_waits (h : mayStart m n (entryOf m.tk.active n) = false) : slotStart m n = m := if_pos (by simp [h])

theorem slotStart_starts {e : Entry} {b : Mach} (he : e = entryOf m.tk.active n) (hb : b = beginFlips (advanceTo m (quayTime m e.start)) e.start)
    (h : mayStart m n e = true) : slotStart m n =
      if (startOutcome b n e).1 ≠ 2 then slotTaken b n e
      else if (startOutcome b n e).2 = 0xFFFF then countChoice (slotTaken b n e) e.tenant 0
      else failRun (slotTaken b n e) (startOutcome b n e).2 e.tenant n := by
  subst he hb
  unfold slotStart
  dsimp only
  rw [if_neg (by simp [h])]
  rfl

/-! ## The end -/

theorem slotEnd_none (h : findRun m n = none) : slotEnd m n = m := by
  unfold slotEnd; rw [h]

/-- What becomes of a run by the outcome that its slot has (R38–R40, R46). -/
theorem slotEnd_some {r r' : SlotRun} {c : Mach} (h : findRun m n = some r)
    (hc : closeRun (beginFlips (advanceTo m (quayTime m r.endCycle)) r.endCycle) r = (c, r')) :
    slotEnd m n =
      let o := tabGet c.tk.outcomes n 1
      let ran := decide (o = 0) && !r'.cut && r'.reachedEnd
      gapScrub (feedNext (if o = 0 then (if ran then ranEnd c r' else truncEnd c r')
        else if o = 2 then (if r'.skip = 0xFFFF then noteRun c r' 0 2 else noteRun c r' r'.skip 1) else c) n r'.tenant (waiting r' ran)) r' := by
  unfold slotEnd; rw [h]; dsimp only; rw [hc]
end

/-- Settles O40: a START takes its resources whatever its outcome, and an end cycle goes by the outcome. -/
theorem slotsStartAndEnd : Obligations.SlotsStartAndEnd := by
  unfold Obligations.SlotsStartAndEnd
  intro s n r m e b o streams g c res through ends
  have hend : ∀ h : findRun m n.val = some r, slotEnd m n.val = _ := fun h => slotEnd_some h (c := c.1) (r' := c.2) rfl
  refine ⟨fun h => leaves_effect rfl (slotStart_waits h), fun h => ⟨fun hoff => ?_, slotTaken b n.val e, ?_, ?_, fun i hi => slotTaken_owner b _ e hi,
    fun hi => ⟨?_, fun hm => ?_⟩, fun ho => ?_, fun ho hs => ?_, fun ho hs => ?_⟩,
    fun h => leaves_effect rfl (slotEnd_none h), fun h => ⟨fun ho ht => ?_, fun ho ht => ?_, fun ho => ?_, fun h0 h2 => ?_⟩⟩
  · exact congrArg Prod.fst (startOutcome_idle b n.val e (idleAt_off b n.val e hoff))
  · exact congrArg Prod.fst ((slotTaken_slots b n.val e).trans (holdSlot_slots b n.val e))
  · exact congrArg Prod.snd ((slotTaken_slots b n.val e).trans (holdSlot_slots b n.val e))
  · exact (slotTaken_fldOf b n.val e _ _ _).trans (showCheck_last _ b n.val e hi)
  · exact (slotTaken_fldOf b n.val e _ _ _).trans (showCheck_taken _ b n.val e hi hm)
  · exact leaves_effect rfl ((slotStart_starts rfl rfl h).trans (if_pos ho))
  · exact leaves_effect rfl ((slotStart_starts rfl rfl h).trans ((if_neg (not_not.2 ho)).trans (if_pos hs)))
  · exact leaves_effect rfl ((slotStart_starts rfl rfl h).trans ((if_neg (not_not.2 ho)).trans (if_neg hs)))
  · exact leaves_effect rfl ((hend h).trans (by simp [ends, show tabGet c.1.tk.outcomes n.val 1 = 0 from ho, ht.1, ht.2]))
  · refine leaves_effect rfl ((hend h).trans ?_)
    have hran : (!c.2.cut && c.2.reachedEnd) = false := by
      cases hcut : c.2.cut
      · cases hr : c.2.reachedEnd
        · rfl
        · exact absurd ⟨hcut, hr⟩ ht
      · rfl
    simp [ends, show tabGet c.1.tk.outcomes n.val 1 = 0 from ho, hran]
  · exact leaves_effect rfl ((hend h).trans (by simp [ends, show tabGet c.1.tk.outcomes n.val 1 = 2 from ho]))
  · exact leaves_effect rfl ((hend h).trans
      (by simp [ends, show tabGet c.1.tk.outcomes n.val 1 ≠ 0 from h0, show tabGet c.1.tk.outcomes n.val 1 ≠ 2 from h2]))

end Sys2Proof.Machine
end

section
/-!
PROOFS. The seam's parts and the tick boundary (R17–R20, R28, R35, R42, R46, R55).
-/
namespace Sys2Proof.Machine

/-! ## The outcomes of a tick in its registers -/

/-- A number below four for each place spells a number in base four, and each place reads back. -/
theorem digit_sum_four {d : Nat → Nat} (hd : ∀ j, d j < 4) (N : Nat) :
    ∑ j ∈ Finset.range N, 4 ^ j * d j < 4 ^ N ∧ ∀ i < N, (∑ j ∈ Finset.range N, 4 ^ j * d j) / 4 ^ i % 4 = d i := by
  induction N with
  | zero => exact ⟨by simp, fun i hi => absurd hi (Nat.not_lt_zero _)⟩
  | succ N ih =>
    obtain ⟨hlt, hdig⟩ := ih
    rw [Finset.sum_range_succ]
    refine ⟨?_, fun i hi => ?_⟩
    · have := Nat.mul_le_mul_left (4 ^ N) (Nat.le_sub_one_of_lt (hd N))
      rw [pow_succ]; omega
    · rcases Nat.lt_succ_iff_lt_or_eq.1 hi with h | rfl
      · obtain ⟨k, rfl⟩ := Nat.exists_eq_add_of_lt h
        have e : 4 ^ (i + k + 1) * d (i + k + 1) = 4 ^ i * (4 * (4 ^ k * d (i + k + 1))) := by ring
        rw [e, Nat.add_mul_div_left _ _ (by positivity), Nat.add_mul_mod_self_left, hdig i h]
      · rw [Nat.add_mul_div_left _ _ (by positivity), Nat.div_eq_of_lt hlt, Nat.zero_add, Nat.mod_eq_of_lt (hd i)]

theorem foldl_add_range (d : Nat → Nat) (N : Nat) : ((List.range N).map d).foldl (· + ·) 0 = ∑ j ∈ Finset.range N, d j := by
  rw [← List.sum_eq_foldl]; rfl

/-- What word `k` of TK_SLOT_STATE shows of its slot `j` (R46): slot number 255 is none. -/
def slotDigit (m : Mach) (k j : Nat) : Nat := if 16 * k + j = 255 then 0 else tabGet m.tk.outcomes (16 * k + j) 1

theorem slotStateWord_eq (m : Mach) (k : Nat) : slotStateWord m k = ∑ j ∈ Finset.range 16, 4 ^ j * slotDigit m k j := by
  rw [← foldl_add_range, slotStateWord]
  congr 2
  funext j
  unfold slotDigit
  split <;> simp

/-- The words of TK_SLOT_STATE after some were written. -/
theorem reg_foldl_slotState (l : List Nat) (m : Mach) (k : Nat) :
    (l.foldl (fun m k => m.setRegN (rTK_SLOT_STATE k) (slotStateWord m k)) m).reg (rTK_SLOT_STATE k) =
      if k ∈ l then BitVec.ofNat 32 (slotStateWord m k) else m.reg (rTK_SLOT_STATE k) := by
  induction l generalizing m with
  | nil => rfl
  | cons a l ih =>
    rw [List.foldl_cons, ih, Mach.setRegN]
    have hw : slotStateWord (m.setReg (rTK_SLOT_STATE a) (BitVec.ofNat 32 (slotStateWord m a))) k = slotStateWord m k := rfl
    rw [hw, Mach.reg_setReg]
    by_cases hk : k ∈ l
    · simp [hk]
    · by_cases ha : k = a
      · simp [ha]
      · simp [hk, ha]

section
variable {m : Mach} (hm : ∀ k, tabGet m.tk.outcomes k 1 < 4)
include hm

theorem slotDigit_lt (k j : Nat) : slotDigit m k j < 4 := by
  unfold slotDigit; split
  · decide
  · exact hm _

/-- Each slot's outcome in its word. -/
theorem bits_slotStateWord {n : Nat} (hn : n < 255) :
    slotStateWord m (n / 16) < 2 ^ 32 ∧ bits (slotStateWord m (n / 16)) (2 * (n % 16)) 2 = tabGet m.tk.outcomes n 1 := by
  obtain ⟨hlt, hdig⟩ := digit_sum_four (slotDigit_lt hm (n / 16)) 16
  rw [slotStateWord_eq, bits_eq, pow_mul]
  refine ⟨hlt, (hdig _ (Nat.mod_lt _ (by decide))).trans ?_⟩
  rw [slotDigit, Nat.div_add_mod, if_neg (by omega)]

theorem fldOf_recordOutcomes {n : Nat} (hn : n < 255) :
    (recordOutcomes m).fldOf (rTK_SLOT_STATE (n / 16)) (2 * (n % 16)) 2 = tabGet m.tk.outcomes n 1 := by
  obtain ⟨hlt, hbits⟩ := bits_slotStateWord hm hn
  rw [← hbits, Mach.fldOf, recordOutcomes, reg_foldl_slotState, if_pos (List.mem_range.2 (by omega)), fld, BitVec.toNat_ofNat, Nat.mod_eq_of_lt hlt]
end

/-! ## The seam and the boundary -/

theorem seam_inSeam {m : Mach} (h : m.clk.inSeam = true) : seam m = m := if_pos h

/-- The seam's parts in their order (R35). -/
theorem seam_eq {m : Mach} (h : m.clk.inSeam = false) {a f g : Mach} (ha : a = endSlots m) (hf : f = beginFlips a (quayNow (advanceTo a (seamStart a))))
    (hg : g = advanceTo f (seamStart f)) {p : Mach × Bool}
    (hp : p = scrubSeam (haltSeam (deliverySeam (seamBonds { g with clk := { g.clk with inSeam := true } })))) :
    seam m = perfSeam (powerSeam (memorySeam (fabricSeam (unloadSeam (activateTable (recordOutcomes p.1)))))) p.2 := by
  subst ha hf hg
  unfold seam
  rw [if_neg (by simp [h])]
  dsimp only
  rw [← hp]

theorem activateTable_none {m : Mach} (h : m.tk.accepted = none) : activateTable m = m := by
  unfold activateTable; rw [h]

theorem activateTable_some {m : Mach} {s : Submission} (h : m.tk.accepted = some s) : (activateTable m).tk = { m.tk with
    active := s.table, shadow := m.tk.active, bound := s.bound, accepted := none, timing := some (s.period, s.seam),
    halted := m.tk.halted &&& (2 ^ 64 - 1 - (s.resume &&& maskOf ((validEntries s.table).map (·.2.tenant)))) } := by
  unfold activateTable; rw [h]; rfl

/-- The next tick begins at `t`, before its enable boundaries: `b` is the machine at the seam's end. -/
def nextTick (b : Mach) (t : Nat) : Mach :=
  let m := { b with clk := { b.clk with tick := (b.clk.tick + 1) % 2 ^ 48, tickStart := t, inSeam := false } }
  let c := stillCoarse m
  let m := { m with clk := { m.clk with coarseTick := c },
                    tk := { m.tk with strict := m.flagOf rTK_CTRL 0, outcomes := [], stretched := 0, lastStretch := none },
                    pm := { m.pm with onTick := maskOf ((List.range 96).filter (isOn m)) } }
  if c then m else m.setFlagOf rTK_STATUS 2 false

theorem tickBoundary_eq (m : Mach) :
    tickBoundary m = fabricBoundary (enableStages (nextTick (takeTiming (advanceTo (seam m) (tickEnd (seam m)))) (tickEnd (seam m)))) := rfl

section
variable (b : Mach) (t : Nat)

theorem nextTick_clk : (nextTick b t).clk = { b.clk with
    tick := (b.clk.tick + 1) % 2 ^ 48, tickStart := t, inSeam := false, coarseTick := stillCoarse { b with clk := { b.clk with tickStart := t } } } := by
  unfold nextTick; dsimp only; split <;> rfl

theorem nextTick_tk :
    (nextTick b t).tk = { b.tk with strict := b.flagOf rTK_CTRL 0, outcomes := [], stretched := 0, lastStretch := none } := by
  unfold nextTick; dsimp only; split <;> rfl

/-- The domains that are on at the boundary (R481). -/
theorem bit_nextTick_onTick {d : Nat} (hd : d < 96) : bit (nextTick b t).pm.onTick d = isOn b d := by
  have hpm : (nextTick b t).pm.onTick = maskOf ((List.range 96).filter (isOn b)) := by
    unfold nextTick; dsimp only; split <;> rfl
  rw [hpm, bit_maskOf]
  simp [hd]
end

/-- Settles O41: the seam and the boundary are their parts in order, and each part is known by its lemmas. -/
theorem seamsAndBoundaries : Obligations.SeamsAndBoundaries := by
  unfold Obligations.SeamsAndBoundaries
  intro s x sub n m a f g h b
  refine ⟨fun hs => leaves_effect rfl (seam_inSeam hs), fun hs => leaves_effect rfl (seam_eq hs rfl rfl rfl rfl), rfl,
    fun hx hn => fldOf_recordOutcomes hx hn, activateTable_none, fun hx => ?_, nextTick b (tickEnd (seam m)), leaves_effect rfl (tickBoundary_eq m), ?_⟩
  · rw [activateTable_some hx]
    exact ⟨rfl, rfl, rfl, rfl, rfl⟩
  · rw [nextTick_clk, nextTick_tk]
    exact ⟨rfl, rfl, rfl, rfl, rfl, rfl, rfl, rfl, fun d hd => bit_nextTick_onTick b _ hd⟩

end Sys2Proof.Machine
end

section
/-!
PROOFS. Words that only count (R92, R93, R113): their guard does not hold, or their unit is within an earlier instruction's occupancy.
-/
namespace Sys2Proof.Machine

section
variable {m0 m : Mach} {iss : Issue} {c : Ctx} (unit : Nat) (f : Mach → Ctx → Issued × Mach)

/-- A word whose guard does not hold is counted and does nothing else (R93). -/
theorem issue_guardOff (hc : issueCtx m0 iss = some (m, c)) (hg : guardOk m c.bank iss = false) :
    issue m0 iss unit f = putRun m (wordDone c.run c.i c.st iss.last) := by
  simp [issue, hc, hg]

/-- A word for a busy unit is counted, and SQ_UNIT_BUSY is raised (R92, R113). -/
theorem issue_busy (hc : issueCtx m0 iss = some (m, c)) (hg : guardOk m c.bank iss = true) (hb : c.cyc < c.st.busy unit) :
    issue m0 iss unit f =
      putRun (raiseIns m 0x0212 c.run { c.ins with unit := unit }) (wordDone c.run c.i c.st iss.last) := by
  simp [issue, hc, hg, hb]
end

/-- A run-time fault of an instruction is recorded, with its place and cycle, and changes no part (R105). -/
theorem sameParts_raiseIns (m : Mach) (code : Nat) (r : SlotRun) (i : Ins) : SameParts m (raiseIns m code r i) := by constructor <;> rfl

/-- It adds one record, of its code and of the run's tenant (R112). -/
theorem raised_raiseIns (m : Mach) (code : Nat) (r : SlotRun) (i : Ins) :
    ∃ rec : FaultRec, rec.code = code ∧ rec.tenant = r.tenant ∧ (raiseIns m code r i).ef.raised = m.ef.raised ++ [rec] := ⟨_, rfl, rfl, rfl⟩

/-- Settles O4: the issue of either word only counts it, beside the fault of a busy unit; the end of the command adds nothing to a part. -/
theorem squashedWordsOnlyCount : Obligations.SquashedWordsOnlyCount := by
  unfold Obligations.SquashedWordsOnlyCount
  constructor
  · intro s i iss unit m c hi hc hg
    obtain ⟨f, he⟩ := exec_ins hi s
    have hsame := sameParts_runEffect (fun m => issue m iss unit f) s.mach
    have hword := issue_guardOff unit f hc hg
    rw [hword] at hsame
    refine ⟨_, he, rfl, rfl, hsame, fun hr hh => ?_⟩
    have hquiet := runEffect_quiet (fun m => issue m iss unit f) s.mach
    rw [hword] at hquiet
    exact hquiet hr hh
  · intro s i iss unit m c hi hc hg hb
    obtain ⟨f, he⟩ := exec_ins hi s
    have hsame := sameParts_runEffect (fun m => issue m iss unit f) s.mach
    have hword := issue_busy unit f hc hg hb
    rw [hword] at hsame
    obtain ⟨rec, hcode, htenant, hraised⟩ := raised_raiseIns m 0x0212 c.run { c.ins with unit := unit }
    refine ⟨_, he, rfl, rfl, (sameParts_putRun (sameParts_raiseIns ..) _).trans hsame, _, rec, hcode, htenant, ?_,
      congrArg (fun m => flushFaults (wakeHost m)) hword⟩
    exact hraised

end Sys2Proof.Machine
end

section
/-!
PROOFS. What the instructions land (R66, R75, R94–R98, R115–R118, R135–R137): vector arithmetic, moves and compares, and the control of a stream.
-/
namespace Sys2Proof.Machine

/-! ## Vector arithmetic -/

/-- The latency of the arithmetic group (R137). -/
theorem vtiming_arith (ty : VType) : (vtiming .arith ty).1 = if ty = .i32 ∨ ty = .u32 then 2 else if ty = .f64 then 8 else 4 := by
  cases ty <;> rfl

/-- The latency of division, the square root and the functions (R137). -/
theorem vtiming_trans (ty : VType) : (vtiming .trans ty).1 = if ty = .f64 then 32 else 12 := by
  cases ty <;> rfl

/-- Settles O6: each instruction is an element's function of one, two or three sources, in a group of known latency. -/
theorem vectorArithmeticLands : Obligations.VectorArithmeticLands := by
  unfold Obligations.VectorArithmeticLands
  intro s iss m c ty d a b x h A B X lat slow lands
  have one : ∀ {i f g l}, (vtiming g ty).1 = l → exec i s = s.effect (fun m => issue m iss 2 (v1 iss.par g f ty d.val a.val)) →
      lands l (fun cl i => f ty (A cl i)) i := fun hl hi => landsI h hi (v1_eq _ _ _ _ _ _ _ _ _ hl)
  have two : ∀ {i f g l}, (vtiming g ty).1 = l → exec i s = s.effect (fun m => issue m iss 2 (v2 iss.par g f ty d.val a.val b.val)) →
      lands l (fun cl i => f ty (A cl i) (B cl i)) i := fun hl hi => landsI h hi (v2_eq _ _ _ _ _ _ _ _ _ _ hl)
  have ar := vtiming_arith ty
  have tr := vtiming_trans ty
  exact ⟨two ar rfl, two ar rfl, two ar rfl, landsI h rfl (v3_eq _ _ _ _ _ _ _ _ _ _ _ ar), two ar rfl, two ar rfl, one ar rfl, one ar rfl,
    two ar rfl, two ar rfl, two ar rfl, two tr rfl, one tr rfl⟩

/-! ## Moves and compares -/

/-- MOVHI puts the immediate above the low half of its source (R115). -/
theorem movhi_eq (imm : BitVec 32) (x : BitVec 64) :
    (imm.zeroExtend 64 <<< 32) ||| (x &&& 0xFFFFFFFF#64) = BitVec.ofNat 64 (imm.toNat * 2 ^ 32 + x.toNat % 2 ^ 32) := by
  have hlow : x.toNat % 2 ^ 32 < 2 ^ 32 := Nat.mod_lt _ (by decide)
  have himm : imm.toNat < 2 ^ 32 := imm.isLt
  have hhigh : imm.toNat * 2 ^ 32 % 2 ^ 64 = imm.toNat * 2 ^ 32 := Nat.mod_eq_of_lt (by omega)
  have hsame : imm.toNat % 2 ^ 64 = imm.toNat := Nat.mod_eq_of_lt (by omega)
  have hsum : imm.toNat * 2 ^ 32 + x.toNat % 2 ^ 32 < 2 ^ 64 := by omega
  have hmask : x.toNat &&& 0xFFFFFFFF = x.toNat % 2 ^ 32 := Nat.and_two_pow_sub_one_eq_mod _ 32
  apply BitVec.eq_of_toNat_eq
  simp only [BitVec.toNat_or, BitVec.toNat_shiftLeft, BitVec.truncate_eq_setWidth, BitVec.toNat_setWidth, BitVec.toNat_and, BitVec.toNat_ofNat,
    Nat.shiftLeft_eq, hsame, hhigh, Nat.mod_eq_of_lt hsum]
  rw [show 4294967295 % 2 ^ 64 = 0xFFFFFFFF from rfl, hmask, ← Nat.shiftLeft_eq, ← Nat.shiftLeft_add_eq_or_of_lt hlow]

/-- PLOGIC reads a bit of its truth table (R115). -/
theorem plogic_eq (t : Fin 16) (a b : Bool) : plogic t a b = t.val.testBit (2 * (if a then 1 else 0) + (if b then 1 else 0)) := by
  cases a <;> cases b <;> rfl

/-- Equal registers are equal numbers. -/
theorem beq_eq_decide_toNat (x y : BitVec 64) : (x == y) = decide (x.toNat = y.toNat) := by
  rw [Bool.eq_iff_iff, beq_iff_eq, decide_eq_true_iff, BitVec.toNat_inj]

theorem bne_eq_decide_toNat (x y : BitVec 64) : (x != y) = decide (x.toNat ≠ y.toNat) := by
  rw [Bool.eq_iff_iff, bne_iff_ne, decide_eq_true_iff, ne_eq, ne_eq, BitVec.toNat_inj]

/-- Settles O2: each instruction contributes one landing, whose value is the statement's. -/
theorem movesAndComparesLand : Obligations.MovesAndComparesLand := by
  unfold Obligations.MovesAndComparesLand
  constructor
  · intro s iss m c d a imm h lands
    have at' : ∀ {i v f}, exec i s = s.effect (fun m => issuePure m iss 0 f) → f m c = { lands := [(1, .s c.bank d.val v)] } → lands v i :=
      fun hi hf => landsS h hi hf
    refine ⟨at' rfl rfl, at' rfl ?_, at' rfl rfl, at' rfl rfl, at' rfl rfl, at' rfl rfl⟩
    rw [movhi_eq]
  · intro s iss m c d a o e g table h x y lands
    have at' : ∀ {i b f}, exec i s = s.effect (fun m => issuePure m iss 0 f) → f m c = { lands := [(1, .p c.bank d.val b)] } → lands b i :=
      fun hi hf => landsS h hi hf
    refine ⟨at' rfl ?_, at' rfl ?_, at' rfl rfl, at' rfl rfl, at' rfl rfl, at' rfl rfl, at' rfl ?_⟩
    · rw [cmpIns, beq_eq_decide_toNat]
    · rw [cmpIns, bne_eq_decide_toNat]
    · rw [plogic_eq]

/-! ## Control -/

section
variable {st : Stream} (n : Nat)

/-- A bundle without control goes on to the next one, or to the start of a loop's body that ends there (R94, R95). -/
theorem endBundle_none (hc : st.ctl = .none) (hd : st.delay = none) : endBundle st n =
    { st with pc := (loopBack st.loops (st.pc + n)).1, loops := (loopBack st.loops (st.pc + n)).2, cyc := st.cyc + 1, done := 0, ctl := .none } := by
  simp [endBundle, hc, hd]

/-- A LOOP of a count other than 0 enters its body (R94). -/
theorem endBundle_loop {body k : Nat} (hc : st.ctl = .loop body k) (hk : k ≠ 0) : endBundle st n =
    { st with pc := st.pc + n, loops := ⟨st.pc + n, bundleAfter st.code (st.pc + n) body, k - 1⟩ :: st.loops, cyc := st.cyc + 1, done := 0,
              ctl := .none } := by
  simp [endBundle, hc, hk]

/-- A LOOP of count 0 skips its body (R94). -/
theorem endBundle_skip {body : Nat} (hc : st.ctl = .loop body 0) : endBundle st n =
    { st with pc := (loopBack st.loops (bundleAfter st.code (st.pc + n) body)).1,
              loops := (loopBack st.loops (bundleAfter st.code (st.pc + n) body)).2, cyc := st.cyc + 1, done := 0, ctl := .none } := by
  simp [endBundle, hc]

/-- A branch leaves two delay bundles (R96). -/
theorem endBundle_branch {off : Int} (hc : st.ctl = .branch off) : endBundle st n =
    { st with pc := st.pc + n, delay := some (2, ((st.pc : Int) + off).toNat), cyc := st.cyc + 1, done := 0, ctl := .none } := by
  simp [endBundle, hc]

/-- WAIT holds the next bundle back (R118). -/
theorem endBundle_wait {w : Nat} (hc : st.ctl = .wait w) : endBundle st n =
    { st with pc := (loopBack st.loops (st.pc + n)).1, loops := (loopBack st.loops (st.pc + n)).2, cyc := st.cyc + w + 1, done := 0,
              ctl := .none } := by
  simp [endBundle, hc]

/-- END ends the stream (R98). -/
theorem endBundle_stop (hc : st.ctl = .stop) : endBundle st n = { st with ended := true, cyc := st.cyc + 1, done := 0, ctl := .none } := by
  simp [endBundle, hc]
end

/-- A word of the S unit that asks for a control and no more, the last of its bundle, ends the bundle with that control. -/
theorem runGets_ctl {i : Instr} {s : State} {iss : Issue} {m : Mach} {c : Ctx} (h : Executes s iss 0 m c) (hl : iss.last = true)
    (hc : c.st.ctl = .none) (hn : c.i < c.run.streams.length) (ctl : Ctl) {f : Mach → Ctx → Issued}
    (hi : exec i s = s.effect (fun m => issuePure m iss 0 f)) (hf : f m c = { ctl := ctl }) {st : Stream}
    (he : endBundle { c.st with ctl := ctl, done := c.st.done + 1 } (c.st.done + 1) = st) :
    RunGets i s m c (fun r => LandsOnly c [] r ∧ r.streams[c.i]? = some st) := by
  have hafter : c.after 0 { ctl := ctl } = { c.st with ctl := ctl } := by
    by_cases hctl : ctl = .none
    · simp [Ctx.after, Stream.setBusy, hctl, hc]
    · simp [Ctx.after, Stream.setBusy, hctl]
  refine runGets_pure h f hi (by rw [hf]) (by rw [hf]) ?_
  rw [hf, hafter, hl]
  exact ⟨landsOnly_contribute c _ _ _ _ rfl rfl rfl rfl, bundleEnd_getElem c { c.st with ctl := ctl } _ hn st he⟩

/-- Settles O3: each word asks for one control, and the end of its bundle carries it out. -/
theorem controlMovesTheStream : Obligations.ControlMovesTheStream := by
  unfold Obligations.ControlMovesTheStream
  intro s iss m c body o off h hl hc hd hn after stop n moves
  have ends : ∀ {i st f} (ctl : Ctl), exec i s = s.effect (fun m => issuePure m iss 0 f) → f m c = { ctl := ctl } →
      endBundle { c.st with ctl := ctl, done := c.st.done + 1 } (c.st.done + 1) = { st with done := 0, ctl := .none } → st.ctl = .none →
      moves st i := by
    intro i st f ctl hi hf he hst
    refine runGets_ctl h hl hc hn ctl hi hf (he.trans ?_)
    rw [← hst]
  refine ⟨?_, fun h0 => ?_, fun h0 => ?_, ?_, ?_, ?_⟩
  · exact ends .none rfl rfl (endBundle_none _ rfl hd) hc
  · exact ends (.loop body n) rfl rfl (endBundle_loop _ rfl h0) hc
  · exact ends (.loop body 0) rfl (by rw [← h0]) (endBundle_skip _ rfl) hc
  · exact ends (.branch off.toInt) rfl rfl (endBundle_branch _ rfl) hc
  · exact ends (.wait n) rfl rfl (endBundle_wait _ rfl) hc
  · exact ends .stop rfl rfl (endBundle_stop _ rfl) hc

end Sys2Proof.Machine
end

section
/-!
PROOFS. What lands at a pending cycle (R81, R87, R90, R139): one landing, one store or one load that is alone there.
-/
namespace Sys2Proof.Machine

/-- The registers and the bytes of berth space of two machines are the same. -/
structure SameCells (a b : Mach) : Prop where
  s : a.st.s = b.st.s
  p : a.st.p = b.st.p
  d : a.st.d = b.st.d
  v : a.st.v = b.st.v
  berth : a.st.berth = b.st.berth

theorem SameCells.of_st {a b : Mach} (h : a.st = b.st) : SameCells a b := by constructor <;> rw [h]

/-- A run that is put changes no register and no byte. -/
theorem SameCells.of_putRun {a b : Mach} {r : SlotRun} (h : a.st = (putRun b r).st) : SameCells a b := by constructor <;> rw [h] <;> rfl

section
variable {a b c : Mach}

theorem SameCells.trans (h : SameCells a b) (k : SameCells b c) : SameCells a c :=
  ⟨h.s.trans k.s, h.p.trans k.p, h.d.trans k.d, h.v.trans k.v, h.berth.trans k.berth⟩

theorem SameCells.readS (h : SameCells a b) (k r : Nat) : readS a k r = readS b k r := by rw [Machine.readS, Machine.readS, h.s]
theorem SameCells.readP (h : SameCells a b) (k r : Nat) : readP a k r = readP b k r := by rw [Machine.readP, Machine.readP, h.p]
theorem SameCells.readD (h : SameCells a b) (k r : Nat) : readD a k r = readD b k r := by rw [Machine.readD, Machine.readD, h.d]
theorem SameCells.readV (h : SameCells a b) (k r : Nat) : readV a k r = readV b k r := by rw [Machine.readV, Machine.readV, h.v]
theorem SameCells.berthByte (h : SameCells a b) (k : Nat) : berthByte a k = berthByte b k := by
  rw [Machine.berthByte, Machine.berthByte, h.berth]
end

/-! ## Landings -/

section
variable {t x m : Mach} {b r : Nat}

theorem landed_s {v : BitVec 64} (ht : SameCells t (writeS x b r v)) (hx : SameCells x m) :
    (∀ a, berthByte t a = berthByte m a) ∧ readS t b r = v ∧ (∀ b' r', 64 * b' + r' ≠ 64 * b + r → readS t b' r' = readS m b' r') ∧
      t.st.p = m.st.p ∧ t.st.d = m.st.d ∧ t.st.v = m.st.v := by
  refine ⟨fun a => (ht.berthByte a).trans (hx.berthByte a), ?_, fun b' r' hne => ?_, ht.p.trans hx.p, ht.d.trans hx.d, ht.v.trans hx.v⟩
  · rw [ht.readS, readS_writeS, if_pos rfl]
  · rw [ht.readS, readS_writeS, if_neg hne, hx.readS]

/-- A predicate that is set reads its value, and p0 reads 1 (R74). -/
theorem landed_p {v : Bool} (ht : SameCells t (writeP x b r v)) (hx : SameCells x m) :
    (∀ a, berthByte t a = berthByte m a) ∧ readP t b r = (v || r == 0) ∧
      (∀ b' r', 8 * b' + r' ≠ 8 * b + r → readP t b' r' = readP m b' r') ∧ t.st.s = m.st.s ∧ t.st.d = m.st.d ∧ t.st.v = m.st.v := by
  have hw : SameCells (writeP x b r v) { x with st := { x.st with p := (writeP x b r v).st.p } } := by
    unfold writeP; split <;> constructor <;> rfl
  refine ⟨fun a => ((ht.trans hw).berthByte a).trans (hx.berthByte a), ?_, fun b' r' hne => ?_, (ht.trans hw).s.trans hx.s,
    (ht.trans hw).d.trans hx.d, (ht.trans hw).v.trans hx.v⟩
  · rw [ht.readP, readP_writeP]
    by_cases h0 : r = 0
    · simp [h0, readP]
    · rw [if_pos ⟨h0, h0, rfl⟩]; simp [h0]
  · rw [ht.readP, readP_writeP, if_neg (fun h => hne h.2.2), hx.readP]

theorem landed_d {v : BitVec 512} (ht : SameCells t (writeD x b r v)) (hx : SameCells x m) :
    (∀ a, berthByte t a = berthByte m a) ∧ readD t b r = v ∧ (∀ b' r', 16 * b' + r' ≠ 16 * b + r → readD t b' r' = readD m b' r') ∧
      t.st.s = m.st.s ∧ t.st.p = m.st.p ∧ t.st.v = m.st.v := by
  refine ⟨fun a => (ht.berthByte a).trans (hx.berthByte a), ?_, fun b' r' hne => ?_, ht.s.trans hx.s, ht.p.trans hx.p, ht.v.trans hx.v⟩
  · rw [ht.readD, readD_writeD, if_pos rfl]
  · rw [ht.readD, readD_writeD, if_neg hne, hx.readD]

theorem landed_v {v : BitVec 2048} (ht : SameCells t (writeV x b r v)) (hx : SameCells x m) :
    (∀ a, berthByte t a = berthByte m a) ∧ readV t b r = v ∧ (∀ b' r', 32 * b' + r' ≠ 32 * b + r → readV t b' r' = readV m b' r') ∧
      t.st.s = m.st.s ∧ t.st.p = m.st.p ∧ t.st.d = m.st.d := by
  refine ⟨fun a => (ht.berthByte a).trans (hx.berthByte a), ?_, fun b' r' hne => ?_, ht.s.trans hx.s, ht.p.trans hx.p, ht.d.trans hx.d⟩
  · rw [ht.readV, readV_writeV, if_pos rfl]
  · rw [ht.readV, readV_writeV, if_neg hne, hx.readV]
end

/-! ## Accesses -/

/-- What a run may touch does not depend on what is pending in it. -/
theorem byteOk_pending {x m : Mach} (hc : x.cas = m.cas) (r : SlotRun) (ls : List Land) (as : List BAcc) (lim : Nat) (w : Bool) (a : Int) :
    byteOk x { r with lands := ls, accs := as } lim w a = byteOk m r lim w a := by
  simp only [byteOk, mayTouch, hc]

/-- A range whose bytes are permitted reads as it stands (R81). -/
theorem readBytes_ok {m : Mach} {r : SlotRun} {lim n : Nat} {a : Int} (h : ∀ j < n, byteOk m r lim false (a + (j : Int)) = true) :
    readBytes m r lim 0 a n = (List.range n).map (fun (j : Nat) => berthByte m (a + (j : Int)).toNat) := by
  refine List.map_congr_left fun j hj => if_pos ?_
  simp [served, h j (List.mem_range.1 hj), bit]

section
variable {x : Mach} {r : SlotRun} {k rk lim : Nat} {ins : Ins} {a : Int}

/-- The run at a cycle, without what is pending there. -/
def SlotRun.without (r : SlotRun) (k : Nat) : SlotRun := { r with lands := r.lands.filter (·.cyc != k), accs := r.accs.filter (·.cyc != k) }

variable (ht : r.isTask = false) (hh : r.holds = []) (h1 : r.lands.filter (·.cyc == k) = [])
include ht hh h1

/-- A store that is alone at its cycle writes its bytes (R90). -/
theorem runCycle_store {bs : List Byte} (h2 : r.accs.filter (·.cyc == k) = [⟨k, ins, rk, .store a bs lim⟩]) :
    (runCycle x r k).1.st = (writeBytes (r.without k) lim 0 x a bs).st := by
  have hlost := lostBerths_self x { r with lands := r.lands.filter (·.cyc != k) } k _ hh h2
  have ht' : (r.without k).isTask = false := ht
  rw [runCycle_access x r k _ hh h1 h2]
  dsimp only at hlost ⊢
  rw [show ∀ cs m r, serveRead cs k m r ⟨k, ins, rk, .store a bs lim⟩ = (m, r) from fun _ _ _ => rfl]
  show (serveWrite _ k x (r.without k) _).1.st = _
  simp only [serveWrite, ht', hlost, Bool.false_eq_true, if_false]
  exact raiseMet_st ..

/-- A load that is alone at its cycle lands two cycles later, and changes no register and no byte at its own (R90, R139). -/
theorem runCycle_load {dest : LoadDest} {n : Nat} (h2 : r.accs.filter (·.cyc == k) = [⟨k, ins, rk, .load dest a n lim⟩]) :
    (runCycle x r k).1.st = x.st ∧ (runCycle x r k).2.id = r.id ∧ (runCycle x r k).2.lands =
      r.lands.filter (·.cyc != k) ++ [⟨k + 2, ins, loadLand dest (readBytes x (r.without k) lim 0 a n)⟩] := by
  have hlost := lostBerths_self x { r with lands := r.lands.filter (·.cyc != k) } k _ hh h2
  have ht' : (r.without k).isTask = false := ht
  rw [runCycle_access x r k _ hh h1 h2]
  dsimp only at hlost ⊢
  rw [show ∀ cs m r, serveWrite cs k m r ⟨k, ins, rk, .load dest a n lim⟩ = (m, r) from fun _ _ _ => rfl]
  show (serveRead _ k x (r.without k) _).1.st = _ ∧ (serveRead _ k x (r.without k) _).2.id = _ ∧ (serveRead _ k x (r.without k) _).2.lands = _
  simp only [serveRead, ht', hlost, Bool.false_eq_true, if_false]
  exact ⟨raiseMet_st .., (raiseMet_run ..).1, (raiseMet_run ..).2⟩
end

/-- A run that is found by the number of a slot is a slot's run. -/
theorem isTask_of_findRun {m : Mach} {n : Fin 255} {r : SlotRun} (h : findRun m n.val = some r) : r.isTask = false := by
  rw [SlotRun.isTask, findRun_id h, decide_eq_false_iff_not]
  have := n.isLt
  omega

/-- Settles O15: the cycle of a slot run is known for one landing, one store and one load, and RESULT_LAND runs it. -/
theorem resultsLand : Obligations.ResultsLand := by
  unfold Obligations.ResultsLand
  intro s n r k hf hk hl hh lands accs ends sameBerth
  have ht := isTask_of_findRun hf
  have landing : ∀ {l : Land} {Q : State → Prop}, lands = [l] → accs = [] →
      (∀ (t : State) (x : Mach), SameCells x s.mach →
        SameCells t.mach (applyLand x { r with lands := r.lands.filter (·.cyc != k) } l.act) → Q t) → ends Q := by
    intro l Q h1 h2 hQ
    refine ends_of hf hk hl fun t x hx _ h => hQ t x (.of_st hx) ?_
    rw [runCycle_land x r k _ hh h1 h2] at h
    exact .of_putRun h
  refine ⟨fun _ _ _ _ h1 h2 => landing h1 h2 fun _ _ hy h => landed_s h hy, fun _ _ _ _ h1 h2 => landing h1 h2 fun _ _ hy h => landed_p h hy,
    fun _ _ _ _ h1 h2 => landing h1 h2 fun _ _ hy h => landed_d h hy, fun _ _ _ _ h1 h2 => landing h1 h2 fun _ _ hy h => landed_v h hy, ?_, ?_⟩
  · intro ins rk x bs lim h1 h2 hok
    refine ends_of hf hk hl fun t y hy hc h => ?_
    have hcells : SameCells t.mach (writeBytes (r.without k) lim 0 y x bs) :=
      (SameCells.of_putRun h).trans (.of_st (runCycle_store ht hh h1 h2))
    have hm : SameCells y s.mach := .of_st hy
    have hok' : ∀ j < bs.length, byteOk y (r.without k) lim true (x + (j : Int)) = true :=
      fun j hj => (byteOk_pending hc r _ _ lim true _).trans (hok j hj)
    obtain ⟨-, hs, hp, hd, hv, hin, hout⟩ := writeBytes_spec (r.without k) lim bs y x hok'
    exact ⟨fun j hj => (hcells.berthByte _).trans (hin j hj), fun a ha => (hcells.berthByte a).trans ((hout a ha).trans (hm.berthByte a)),
      hcells.s.trans (hs.trans hm.s), hcells.p.trans (hp.trans hm.p), hcells.d.trans (hd.trans hm.d), hcells.v.trans (hv.trans hm.v)⟩
  · intro ins rk dest x len lim h1 h2 hok
    refine ends_of hf hk hl fun t y hy hc h => ?_
    obtain ⟨hst, hid, hlands⟩ := runCycle_load (x := y) ht hh h1 h2
    have hm : SameCells y s.mach := .of_st hy
    have hrun : findRun t.mach n.val = some (runCycle y r k).2 := by
      have hfind : findRun (runCycle y r k).1 n.val = some r := by rw [findRun, hst, hy]; exact hf
      rw [findRun, h]
      exact findRun_putRun _ _ _ _ hfind (hid.trans (findRun_id hf))
    refine ⟨fun a => (((SameCells.of_putRun h).trans (.of_st hst)).berthByte a).trans (hm.berthByte a), _, hrun, ?_⟩
    have hok' : ∀ j < len, byteOk y (r.without k) lim false (x + (j : Int)) = true :=
      fun j hj => (byteOk_pending hc r _ _ lim false _).trans (hok j hj)
    simp only [hlands, readBytes_ok hok', hm.berthByte]

end Sys2Proof.Machine
end

section
/-!
PROOFS. The loading and unloading of programs (R68, R100–R103, R356, R572).
-/
namespace Sys2Proof.Machine

/-! ## The operations of the program store -/

/-- A command that takes time changes the list of commands alone. -/
theorem running_eq (m : Mach) (q cid op w : Nat) (c : Option Cpl) (objs : List Nat) (lo hi : Nat) :
    ∃ hs, running m q cid op w c objs lo hi = { m with hs } := by
  unfold running; dsimp only; split <;> exact ⟨_, rfl⟩

/-- The sequencer block shows the store and changes no part. -/
theorem sameParts_showStore (m : Mach) : SameParts m (showStore m) :=
  ((sameParts_setRegN ..).trans (sameParts_setRegN ..)).trans (sameParts_foldl _ (fun m _ => sameParts_setRegN m _ _) _ _)

/-- The words of an unloaded program leave the store (R103). -/
theorem unloadProg_parts (m : Mach) (p : TickProg) :
    (unloadProg m p).sto = { m.sto with progs := m.sto.progs.filter (·.h != p.h) } ∧ (unloadProg m p).st = m.st ∧ (unloadProg m p).lh = m.lh := by
  unfold unloadProg
  rw [(sameParts_showStore _).sto, (sameParts_showStore _).st, (sameParts_showStore _).lh]
  exact ⟨rfl, rfl, rfl⟩

/-- A program is logged for its tenant (R572). -/
theorem logProgram_parts (m : Mach) (t k h : Nat) (digest : List Byte) : (logProgram m t k h digest).sto = m.sto ∧
    (logProgram m t k h digest).lh = m.lh ∧ (logProgram m t k h digest).st = m.st := ⟨rfl, rfl, rfl⟩

/-- A program with room, within its tenant's quota and with free handles is placed under the lowest of them (R71, R101). -/
theorem placeProg_ok {m : Mach} {l : Loading} {ps : List SlotProg} {h : Nat} (hroom : progWords ps ≤ m.regN rSQ_STORE_FREE)
    (hquota : m.regN (rSQ_USED l.tenant) + progWords ps ≤ m.fldOf (rSQ_QUOTA l.tenant) 0 20) (hh : freeHandles m.sto ps.length = some h) :
    ∃ x, placeProg m l ps = .ok (x, h) ∧
      x.sto = { m.sto with progs := m.sto.progs ++ [⟨h, l.tenant, ps, progWords ps, sha384 l.image⟩] } ∧ x.lh = m.lh ∧ x.st = m.st := by
  have hfits : ¬(m.regN rSQ_STORE_FREE < progWords ps ∨
      m.fldOf (rSQ_QUOTA l.tenant) 0 20 < m.regN (rSQ_USED l.tenant) + progWords ps) := by omega
  unfold placeProg
  rw [if_neg hfits, hh]
  have hs := sameParts_showStore { m with sto := { m.sto with progs := m.sto.progs ++ [⟨h, l.tenant, ps, progWords ps, sha384 l.image⟩] } }
  refine ⟨_, rfl, ?_⟩
  obtain ⟨hsto, hlh, hst⟩ := logProgram_parts (showStore { m with sto := { m.sto with
    progs := m.sto.progs ++ [⟨h, l.tenant, ps, progWords ps, sha384 l.image⟩] } }) l.tenant 1 h (sha384 l.image)
  rw [hsto, hlh, hst, hs.sto, hs.lh, hs.st]
  exact ⟨rfl, rfl, rfl⟩

/-! ## The end of a validation -/

/-- The machine once a load's validation has ended: the load is no longer under way (R105). -/
def loadEnded (m : Mach) (q cid : Nat) : Mach :=
  let others := m.sto.loading.filter (fun l => !(l.q == q && l.cid == cid))
  ({ m with sto := { m.sto with loading := others } } : Mach).setFlagOf rSQ_LOAD_STATUS 24 (!others.isEmpty)

section
variable {m : Mach} {q cid : Nat} {l : Loading}

/-- The end of a load changes the word of SQ_LOAD_STATUS alone among the registers. -/
theorem loadEnded_reg {a : Nat} (ha : a ≠ rSQ_LOAD_STATUS) : (loadEnded m q cid).reg a = m.reg a := Mach.reg_setReg_ne _ _ ha

variable (hf : m.sto.loading.find? (fun l => l.q == q && l.cid == cid) = some l) (hon : isOn m 12 = true)
include hf hon

/-- A load whose validation fails is refused, and SQ_LOAD_STATUS and SQ_LOAD_WHERE say why and where (R101, R105). -/
theorem validationDone_error {c w : Nat} (hv : validateLoad (loadEnded m q cid) l = .error (c, w)) : validationDone m q cid =
    refuse (((loadEnded m q cid).setFldOf rSQ_LOAD_STATUS 16 8 c).setRegN rSQ_LOAD_WHERE w) q cid 0x20 c w := by
  unfold validationDone
  simp only [hf, hon, Bool.not_true, Bool.false_eq_true, and_false, if_false]
  unfold loadEnded at hv
  rw [hv]
  rfl

/-- A valid load completes with its handle, which SQ_LOAD_STATUS shows (R101, R102). -/
theorem validationDone_ok {x : Mach} {h : Nat} (hv : validateLoad (loadEnded m q cid) l = .ok (x, h)) : validationDone m q cid =
    complete ((x.setFldOf rSQ_LOAD_STATUS 16 8 0).setFldOf rSQ_LOAD_STATUS 0 16 h) q cid 0x20 0 h 0 := by
  unfold validationDone
  simp only [hf, hon, Bool.not_true, Bool.false_eq_true, and_false, if_false]
  unfold loadEnded at hv
  rw [hv]
end

section
variable {m : Mach} {l : Loading} (hd : l.dest = 0)
include hd

/-- An invalid image fails where its validation says (R101). -/
theorem validateLoad_error {c w : Nat} (hv : validateImage false l.image = .error (c, w)) : validateLoad m l = .error (c, w) := by
  have hseq : (l.dest == 1) = false := by rw [hd]; rfl
  unfold validateLoad
  rw [hseq, hv]

/-- A valid image for the sequencers is placed in the store (R101). -/
theorem validateLoad_ok {ps : List SlotProg} (hv : validateImage false l.image = .ok ps) {p : Mach × Nat} (hp : placeProg m l ps = .ok p) :
    validateLoad m l = .ok p := by
  have hseq : (l.dest == 1) = false := by rw [hd]; rfl
  unfold validateLoad
  rw [hseq, hv]
  dsimp only
  rw [if_pos hd, hp]
end

/-! ## The commands -/

/-- A command of a queue that begins leaves what its own effect leaves. -/
theorem leaves_command {i : Instr} {s : State} {cmd : CmdCtx} {op rf : Nat} {waits : RunCmd → Bool} {f : Mach → Mach} {M : Mach}
    (hi : exec i s = s.effect (fun m => beginCmd m cmd op rf waits f)) (h : Begins s.taken cmd op waits) (hM : f (begun s.taken cmd) = M) :
    Leaves i s M :=
  leaves_effect hi (by rw [beginCmd_begins h, hM])

/-- The unloading of a program that its tenant holds, by the tenant or by tenant 0: refused while the program is in use (R103). -/
theorem leaves_progUnload {s : State} {cmd : CmdCtx} {h tenant : Nat} {p : TickProg} (hb : Begins s.taken cmd 0x21 (naming (objKey 4 h)))
    (ht : tenant ≤ 63) (hown : cmd.q.val = 0 ∨ tenant = cmd.q.val)
    (hp : s.taken.sto.progs.find? (fun p => p.h == h && p.tenant == tenant) = some p) :
    Leaves (.progUnload cmd h 0 tenant) s (if progInUse s.taken p = true then refuse (begun s.taken cmd) cmd.q.val cmd.cid 0x21 0x0209 0
      else complete (unloadProg (begun s.taken cmd) p) cmd.q.val cmd.cid 0x21 0 0 0) := by
  refine leaves_command rfl hb ?_
  dsimp only
  rw [if_neg (by omega), if_neg (by omega), if_pos rfl, show (begun s.taken cmd).sto = s.taken.sto from rfl, hp]
  rfl

/-- Settles O29: each command's checks pass or fail as the statement says, and the store's operations say what is left. -/
theorem programCommands : Obligations.ProgramCommands := by
  unfold Obligations.ProgramCommands
  intro s cmd r dest role tenant src image h corrupt bs l ps p q cid c w m b others left found
  refine ⟨fun hb hd hr ht hsrc hown hex hload => ?_, fun hb hd hr ht hsrc h0 hne => ?_, fun hf hd hon hv hroom hquota hh => ?_,
    fun hf hd hon hv => ?_, fun hb ht hown hp => ⟨fun huse => ?_, fun huse => ?_⟩⟩
  · have hparams : ¬(1 < dest ∨ 1 < role ∨ 63 < tenant ∨ 1 < src) := by omega
    have hexists : tenantExists b tenant = true := hex
    obtain ⟨hs, hrun⟩ := running_eq b cmd.q.val cmd.cid 0x20 waitLoad none (objKey 8 tenant :: (if src = 1 then [objKey 5 image] else [])) 0 0
    refine ⟨({ b with hs, sto := { b.sto with loading := b.sto.loading ++ [⟨cmd.q.val, cmd.cid, tenant, dest, role, bs⟩] } } : Mach).setFlagOf
      rSQ_LOAD_STATUS 24 true, leaves_command rfl hb ?_, rfl, rfl, flagOf_setFlagOf_same _ _ _ (by decide), rfl, rfl⟩
    dsimp only
    rw [if_neg hparams, if_neg (by omega), hexists, hload]
    dsimp only
    rw [hrun]
    rfl
  · refine leaves_command rfl hb ?_
    dsimp only
    rw [if_neg (by omega), if_pos ⟨h0, hne⟩]
  · have hfree : (loadEnded m q.val cid).regN rSQ_STORE_FREE = m.regN rSQ_STORE_FREE := congrArg BitVec.toNat (loadEnded_reg (by decide))
    have hused : (loadEnded m q.val cid).regN (rSQ_USED l.tenant) = m.regN (rSQ_USED l.tenant) :=
      congrArg BitVec.toNat (loadEnded_reg (by unfold rSQ_USED rSQ_LOAD_STATUS; omega))
    have hlimit : (loadEnded m q.val cid).fldOf (rSQ_QUOTA l.tenant) 0 20 = m.fldOf (rSQ_QUOTA l.tenant) 0 20 :=
      congrArg (fld · 0 20) (loadEnded_reg (by unfold rSQ_QUOTA rSQ_LOAD_STATUS; omega))
    obtain ⟨x, hx, hsto, hlh, hst⟩ := placeProg_ok (m := loadEnded m q.val cid) (l := l) (hfree ▸ hroom) (by rw [hused, hlimit]; exact hquota) hh
    exact ⟨_, leaves_effect rfl (validationDone_ok hf hon (validateLoad_ok hd hv hx)), congrArg Store.progs hsto,
      congrArg Store.loading hsto, hlh, hst⟩
  · exact leaves_effect rfl (validationDone_error hf hon (validateLoad_error hd hv))
  · have hleaves := leaves_progUnload hb ht hown hp
    rwa [if_pos huse] at hleaves
  · obtain ⟨hsto, hst, hlh⟩ := unloadProg_parts b p
    have hleaves := leaves_progUnload hb ht hown hp
    rw [if_neg (by rw [huse]; decide)] at hleaves
    exact ⟨unloadProg b p, hleaves, congrArg Store.progs hsto, hst, hlh⟩

end Sys2Proof.Machine
end

section
/-!
PROOFS. The M unit (R139–R145, R210): loads and stores, descriptor words, berth-to-berth moves and fabric records.
-/
namespace Sys2Proof.Machine

/-! ## Loads and stores -/

/-- An instruction that contributes accesses and no more, whatever faults they raise, gives its run these accesses. -/
theorem accsPure {i : Instr} {s : State} {iss : Issue} {unit : Nat} {m : Mach} {c : Ctx} (h : Executes s iss unit m c) {f : Mach → Ctx → Issued}
    (hi : exec i s = s.effect (fun m => issuePure m iss unit f)) {as : List (Nat × Nat × AccAct)} (hf : f m c = { accs := as }) :
    RunGets i s m c (fun r => r.lands = c.run.lands ∧ r.holds = c.run.holds ∧
      r.accs = c.run.accs ++ as.map (fun p => ⟨c.cyc + p.1, c.ins, p.2.1, p.2.2⟩)) := by
  refine getsPure h f hi (by rw [hf]) fun a b => ?_
  rw [hf]
  exact ⟨List.append_nil _, List.append_nil _, rfl⟩

/-- The scalar address of R139 as the remainder of an integer sum. -/
theorem mAddr_eq (m : Mach) (c : Ctx) (src : Nat) (imm : BitVec 32) : (mAddr m c src imm : Int) =
    ((readS m c.bank src).toInt + imm.toInt) % (2 ^ 64 : Int) % ((2 ^ (if c.run.isTask then 32 else 25) : Nat) : Int) := by
  rw [mAddr, addr_eq, Nat.cast_pow, Nat.cast_ofNat]

section
variable {n a : Nat}

theorem loadIns_aligned (d : LoadDest) (h : a % n = 0) : loadIns d n a = { accs := [(1, 0, .load d (a : Int) n spaceTop)] } := if_pos h

theorem loadIns_misaligned (d : LoadDest) (h : a % n ≠ 0) : loadIns d n a = { lands := [(3, loadLand d [])], faults := [0x0216] } := if_neg h

theorem storeIns_aligned (bs : List Byte) (h : a % n = 0) : storeIns n a bs = { accs := [(1, 0, .store (a : Int) bs spaceTop)] } := if_pos h

theorem storeIns_misaligned (bs : List Byte) (h : a % n ≠ 0) : storeIns n a bs = { faults := [0x0216] } := if_neg h
end

section
variable {m : Mach} {c : Ctx} {src : Nat} {imm : BitVec 32} {t : TDesc} (ha : ∀ p ∈ c.st.clusters.zipIdx, vAddr t p.2 imm % 64 = 0)
include ha

/-- Where every cluster's address is aligned, all clusters access and none is left out. -/
theorem filter_aligned : c.st.clusters.zipIdx.filter (fun p => vAddr t p.2 imm % 64 == 0) = c.st.clusters.zipIdx :=
  List.filter_eq_self.2 fun p hp => beq_iff_eq.2 (ha p hp)

theorem filter_misaligned : c.st.clusters.zipIdx.filter (fun p => vAddr t p.2 imm % 64 != 0) = [] :=
  List.filter_eq_nil_iff.2 fun p hp => by simp [ha p hp]

variable (ht : tdesc (readD m c.bank src) = t) (hv : tdescValid (readD m c.bank src) = true)
include ht hv

theorem ldv_aligned (dst : Nat) : ldv dst src imm m c =
    { accs := c.st.clusters.zipIdx.map (fun p => (1, p.2, .load (.v p.1 dst) (vAddr t p.2 imm) 256 t.limit)) } := by
  simp [ldv, ht, hv, filter_aligned ha, filter_misaligned ha]

theorem stv_aligned (data : Nat) : stv data src imm m c =
    { accs := c.st.clusters.zipIdx.map (fun p => (1, p.2, .store (vAddr t p.2 imm) (leBytes 256 (readV m p.1 data).toNat) t.limit)) } := by
  simp [stv, ht, hv, filter_aligned ha, filter_misaligned ha]
end

/-- Settles O12: each instruction contributes its accesses, or, misaligned, a fault and at most a zero landing. -/
theorem loadsAndStoresAccess : Obligations.LoadsAndStoresAccess := by
  unfold Obligations.LoadsAndStoresAccess
  intro s iss m c d a v x y imm h space addr t vaddr adds
  have hcast : (mAddr m c a.val imm : Int) = addr := mAddr_eq m c a.val imm
  have hmod : ∀ n : Nat, addr % (n : Int) = 0 ↔ mAddr m c a.val imm % n = 0 := fun n => by rw [← hcast]; omega
  have accesses : ∀ {i f} {act : AccAct}, exec i s = s.effect (fun m => issuePure m iss 3 f) → f m c = { accs := [(1, 0, act)] } →
      RunGets i s m c (adds [⟨c.cyc + 1, c.ins, 0, act⟩]) := fun hi hf => accsPure h hi hf
  refine ⟨fun hal => ?_, fun hmis => ?_, fun hal => ?_, fun hmis => ?_, fun hal => ?_, fun hmis => ?_, fun hv ha => ⟨?_, ?_⟩⟩
  · rw [← hcast]; exact accesses rfl (loadIns_aligned _ ((hmod 8).1 hal))
  · exact landsPure h rfl (loadIns_misaligned _ (mt (hmod 8).2 hmis))
  · rw [← hcast]; exact accesses rfl (storeIns_aligned _ ((hmod 8).1 hal))
  · exact landsPure h rfl (storeIns_misaligned _ (mt (hmod 8).2 hmis))
  · rw [← hcast]; exact accesses rfl (loadIns_aligned _ ((hmod 64).1 hal))
  · exact landsPure h rfl (loadIns_misaligned _ (mt (hmod 64).2 hmis))
  · have hruns := accsPure (i := .ldV iss v y imm) h rfl (ldv_aligned ha rfl hv v.val)
    rwa [List.map_map] at hruns
  · have hruns := accsPure (i := .stV iss v y imm) h rfl (stv_aligned ha rfl hv v.val)
    rwa [List.map_map] at hruns

/-! ## Descriptor words and moves -/

/-- What a move of R142 needs: two valid descriptors of one format and one shape, in whole blocks of an MX format (R160). -/
structure Movable (src dst : BitVec 512) : Prop where
  source : tdescValid src = true
  dest : tdescValid dst = true
  fmt : (tdesc src).fmt = (tdesc dst).fmt
  rank : (tdesc src).rank = (tdesc dst).rank
  size : (tdesc src).size = (tdesc dst).size
  blocks : isMX (tdesc src).fmt = true → (tdesc src).sz 0 % 32 = 0

/-- The beats of a move of bytes, row by row (R143). -/
def moveBeats (s d : TDesc) : List Beat :=
  (moveRows s d).1.flatMap (fun r => (beatsOf (((moveRows s d).2.2 * (moveRows s d).2.1 + 7) / 8)).map (fun b =>
    ⟨r.1, r.2, (moveRows s d).2.1, (moveRows s d).2.2, b.1, b.2, s.limit, d.limit⟩))

/-- The cycles between two beats: two where source and destination share a berth (R143). -/
def beatStep (s d : TDesc) : Nat := if s.berths 0 &&& d.berths 0 = 0 then 1 else 2

/-- A move of bytes reads and writes its beats at the statement's cycles. -/
theorem setBeatCycles_movePlain (cyc : Nat) (s d : TDesc) :
    setBeatCycles cyc ((s.berths 0 &&& d.berths 0) != 0) (movePlain s d) =
      { accs := (moveBeats s d).zipIdx.map (fun p => (1 + beatStep s d * p.2, 0, .beatR p.1 (cyc + (4 + beatStep s d + beatStep s d * p.2)))),
        occ := beatStep s d * (moveBeats s d).length } := by
  have hplain : movePlain s d =
      { accs := (moveBeats s d).zipIdx.map (fun p =>
          if (s.berths 0 &&& d.berths 0) != 0 then (1 + 2 * p.2, 0, .beatR p.1 0) else (1 + p.2, 0, .beatR p.1 0)),
        occ := if (s.berths 0 &&& d.berths 0) != 0 then 2 * (moveBeats s d).zipIdx.length else (moveBeats s d).zipIdx.length } := rfl
  rw [hplain, setBeatCycles, zipIdx_map', zipIdx_zipIdx, List.map_map, List.map_map, beatStep]
  by_cases hshared : s.berths 0 &&& d.berths 0 = 0
  · simp [hshared, Function.comp_def]
  · simp [hshared, Function.comp_def]

section
variable {m : Mach} {c : Ctx} {src dst : Nat} {ds dd : BitVec 512} {s d : TDesc} (hm : Movable ds dd) (hsrc : readD m c.bank src = ds)
  (hdst : readD m c.bank dst = dd) (hs : tdesc ds = s) (hd : tdesc dd = d)
include hm hsrc hdst hs hd

/-- A MOVB whose descriptors pass its checks moves by how the two sides are compressed (R142, R210). -/
theorem movb_movable : movb dst src m c =
    let shared := (s.berths 0 &&& d.berths 0) != 0
    if s.cmp = d.cmp then setBeatCycles c.cyc shared (movePlain s d)
    else if (s.cmp ≠ 0 ∧ d.cmp ≠ 0) ∨ shared then { squash := 0x0214 }
    else
      let moved := if s.cmp = 0 then moveCompress s d c.run.nextHold else moveDecompress c s d c.run.nextHold
      { accs := moved.1, holds := [⟨c.run.nextHold, c.ins, 0, c.cyc + 1, c.cyc + moved.2 + 4,
          reachable m c.run ((if s.cmp = 0 then d else s).berths 0), true, false, []⟩], occ := moved.2 } := by
  subst hs hd
  have hvalid : ¬((!(tdescValid ds && tdescValid dd)) = true) := by simp [hm.source, hm.dest]
  have hshape : ¬((tdesc ds).fmt ≠ (tdesc dd).fmt ∨ (tdesc ds).rank ≠ (tdesc dd).rank ∨ (tdesc ds).size ≠ (tdesc dd).size ∨
      (isMX (tdesc ds).fmt = true ∧ (tdesc ds).sz 0 % 32 ≠ 0)) := by
    rintro (h | h | h | ⟨hx, h⟩)
    · exact h hm.fmt
    · exact h hm.rank
    · exact h hm.size
    · exact h (hm.blocks hx)
  unfold movb
  dsimp only
  rw [hsrc, hdst, if_neg hvalid, if_neg hshape]

theorem movb_alike (hc : s.cmp = d.cmp) : movb dst src m c = setBeatCycles c.cyc ((s.berths 0 &&& d.berths 0) != 0) (movePlain s d) :=
  (movb_movable hm hsrc hdst hs hd).trans (if_pos hc)

/-- A move that compresses or decompresses holds the berths of its compressed side (R210). -/
theorem movb_converts (hc : s.cmp ≠ d.cmp) (h0 : s.cmp = 0 ∨ d.cmp = 0) (hapart : s.berths 0 &&& d.berths 0 = 0) :
    ∃ as n, movb dst src m c = { accs := as, occ := n, holds := [⟨c.run.nextHold, c.ins, 0, c.cyc + 1, c.cyc + n + 4,
      reachable m c.run ((if s.cmp = 0 then d else s).berths 0), true, false, []⟩] } := by
  refine ⟨_, _, (movb_movable hm hsrc hdst hs hd).trans ((if_neg hc).trans (if_neg ?_))⟩
  rw [hapart]
  rintro (⟨hnes, hned⟩ | h)
  · exact h0.elim hnes hned
  · cases h
end

/-- Settles O13: each descriptor word is one landing, and a MOVB contributes its beats or its hold. -/
theorem descriptorsAndMovb : Obligations.DescriptorsAndMovb := by
  unfold Obligations.DescriptorsAndMovb
  constructor
  · intro s iss m c x y a w o h src
    have hset := setDWord_word (readD m c.bank x.val) w.val w.isLt (readS m c.bank a.val)
    have hget : BitVec.ofNat 64 (bits src (64 * w.val) 64) = BitVec.ofNat 64 (src / 2 ^ (64 * w.val)) := by
      rw [bits_eq]; exact BitVec.eq_of_toNat_eq (by simp)
    refine ⟨⟨_, landsS h rfl rfl, ?_, fun k _ hk => ?_⟩, ?_, _, landsS h rfl rfl, addBase_spec _ _⟩
    · rw [hset, if_pos rfl]
    · rw [hset, if_neg hk]
    · rw [← hget]; exact landsS h rfl rfl
  · intro s iss m c x y h S D hS hD hfmt hrank hsize hmx shared beats k
    have hm : Movable (readD m c.bank y.val) (readD m c.bank x.val) := ⟨hS, hD, hfmt, hrank, hsize, hmx⟩
    refine ⟨fun hc => ?_, fun hc h0 hs => ?_⟩
    · have hmovb := (movb_alike hm rfl rfl rfl rfl hc).trans (setBeatCycles_movePlain c.cyc S D)
      refine getsPure h (movb x.val y.val) rfl (by rw [hmovb]) fun ra rb => ?_
      rw [hmovb]
      refine ⟨List.append_nil _, List.append_nil _, ?_, fun st hst => busyM_after c _ _ _ _ hst⟩
      exact congrArg (c.run.accs ++ ·) List.map_map
    · obtain ⟨as, n, hmovb⟩ := movb_converts hm rfl rfl rfl rfl hc h0 hs
      refine getsPure h (movb x.val y.val) rfl (by rw [hmovb]) fun ra rb => ?_
      rw [hmovb]
      exact ⟨List.append_nil _, _, rfl, rfl, rfl, rfl⟩

/-! ## Fabric records -/

/-- A record that is not refused is posted (R144, R145). -/
theorem recordIns_posts {m : Mach} {c : Ctx} {rec : FabRec} {ds : List (BitVec 512)} (hd : ∀ d ∈ ds, tdescValid d = true)
    (hroom : c.run.records.length < 16) (hman : rec.kind ≠ 0 → c.run.manifest ≠ 0xFFFF)
    (hnode : rec.kind ≠ 2 → rec.node < m.fldOf rCH_NODE 16 7) : recordIns m c rec ds = { records := [rec] } := by
  have hvalid : ¬((!ds.all tdescValid) = true) := by simpa using hd
  have hpost : ¬(16 ≤ c.run.records.length ∨ (rec.kind ≠ 0 ∧ c.run.manifest = 0xFFFF) ∨ (rec.kind ≠ 2 ∧ (!nodeExists m rec.node) = true)) := by
    rintro (hfull | ⟨hk, hnone⟩ | ⟨hk, hmissing⟩)
    · omega
    · exact hman hk hnone
    · simp [nodeExists, hnode hk] at hmissing
  rw [recordIns, if_neg hvalid, if_neg hpost]

/-- Settles O14: none of the three is refused, and a record is all that each contributes. -/
theorem fabricRecordsPosted : Obligations.FabricRecordsPosted := by
  unfold Obligations.FabricRecordsPosted
  intro s iss m c x y node chan grp op h X Y posts hroom
  have post : ∀ {i f} {rec : FabRec}, exec i s = s.effect (fun m => issuePure m iss 3 f) → f m c = { records := [rec] } →
      RunGets i s m c (posts rec) := by
    intro i f rec hi hf
    refine runGets_pure h f hi (by rw [hf]) (by rw [hf]) ?_
    rw [hf]
    exact ⟨rfl, List.append_nil _, List.append_nil _⟩
  refine ⟨fun hX hn => post rfl (recordIns_posts ?_ hroom ?_ fun _ => hn), fun hX hn hman => post rfl (recordIns_posts ?_ hroom ?_ fun _ => hn),
    fun hX hY hman => post rfl (recordIns_posts ?_ hroom (fun _ => hman) ?_)⟩
  · exact List.forall_mem_singleton.2 hX
  · exact fun hk => absurd rfl hk
  · exact List.forall_mem_singleton.2 hX
  · exact fun _ => hman
  · exact List.forall_mem_cons.2 ⟨hY, List.forall_mem_singleton.2 hX⟩
  · exact fun hk => absurd rfl hk

end Sys2Proof.Machine
end

section
/-!
PROOFS. What the scalar arithmetic and the vector bit operations, conversions, functions and reductions land (R115, R135–R137, R147, R173, R174).
-/
namespace Sys2Proof.Machine

/-! ## Scalar arithmetic -/

section
variable (x y : BitVec 64)

theorem add_eq_ofNat : x + y = BitVec.ofNat 64 (x.toNat + y.toNat) := BitVec.eq_of_toNat_eq (by simp)

theorem sub_eq_ofInt : x - y = BitVec.ofInt 64 (x.toInt - y.toInt) := BitVec.eq_of_toInt_eq (by simp)

theorem mul_eq_ofNat : x * y = BitVec.ofNat 64 (x.toNat * y.toNat) := BitVec.eq_of_toNat_eq (by simp)

/-- A shift to the left multiplies (R115). -/
theorem shiftLeft_eq_ofNat (n : Nat) : x <<< n = BitVec.ofNat 64 (x.toNat * 2 ^ n) := BitVec.eq_of_toNat_eq (by simp [Nat.shiftLeft_eq])

/-- A logical shift to the right divides, and an arithmetic one divides with its sign, rounding down (R115). -/
theorem ushiftRight_eq_ofNat (n : Nat) : x >>> n = BitVec.ofNat 64 (x.toNat / 2 ^ n) := by
  rw [← Nat.shiftRight_eq_div_pow, ← BitVec.toNat_ushiftRight, BitVec.ofNat_toNat, BitVec.setWidth_eq]

theorem sshiftRight_eq_ofInt (n : Nat) : x.sshiftRight n = BitVec.ofInt 64 (x.toInt / 2 ^ n) := by
  rw [BitVec.sshiftRight, Int.shiftRight_eq_div_pow, Nat.cast_pow, Nat.cast_ofNat]

/-- The choices by the signed and the unsigned order are the minima and maxima (R115). -/
theorem slt_choose_min : (if x.slt y then x else y) = BitVec.ofInt 64 (min x.toInt y.toInt) := by
  simp [min_def_lt, apply_ite (BitVec.ofInt 64), BitVec.slt]

theorem slt_choose_max : (if x.slt y then y else x) = BitVec.ofInt 64 (max x.toInt y.toInt) := by
  simp [max_def_lt, apply_ite (BitVec.ofInt 64), BitVec.slt]

theorem ult_choose_min : (if x.ult y then x else y) = BitVec.ofNat 64 (min x.toNat y.toNat) := by
  simp [min_def_lt, apply_ite (BitVec.ofNat 64), BitVec.ult]

theorem ult_choose_max : (if x.ult y then y else x) = BitVec.ofNat 64 (max x.toNat y.toNat) := by
  simp [max_def_lt, apply_ite (BitVec.ofNat 64), BitVec.ult]
end

/-- Settles O1: each instruction lands a function of its two operands, and that function is the statement's. -/
theorem scalarArithmeticLands : Obligations.ScalarArithmeticLands := by
  unfold Obligations.ScalarArithmeticLands
  intro s iss m c d a o h x y lands
  have alu : ∀ {lat i v f}, exec i s = s.effect (fun m => issuePure m iss 0 (aluIns lat f d a o)) → f x y = v → lands lat v i :=
    fun hi hf => hf ▸ landsS h hi rfl
  exact ⟨alu rfl (add_eq_ofNat x y), alu rfl (sub_eq_ofInt x y), alu rfl (mul_eq_ofNat x y), alu rfl rfl, alu rfl rfl, alu rfl rfl,
    alu rfl (shiftLeft_eq_ofNat x _), alu rfl (ushiftRight_eq_ofNat x _), alu rfl (sshiftRight_eq_ofInt x _), alu rfl (slt_choose_min x y),
    alu rfl (slt_choose_max x y), alu rfl (ult_choose_min x y), alu rfl (ult_choose_max x y)⟩

/-! ## Vector bits -/

/-- The logical shifts of an element by bits [4:0] of the other (R135). -/
theorem eShift_left (a b : Nat) : eShift 0 a b = (a * 2 ^ (b % 32) % 2 ^ 32, 0) := by
  simp [eShift, Nat.shiftLeft_eq]

theorem eShift_right (a b : Nat) : eShift 1 a b = (a / 2 ^ (b % 32), 0) := by
  simp [eShift, Nat.shiftRight_eq_div_pow]

/-- An arithmetic shift of an element (R135). -/
theorem eShift_arith (a b : Nat) : eShift 2 a b = ((signedOf 32 a / (2 ^ (b % 32) : Int) % (2 ^ 32 : Int)).toNat, 0) := by
  simp [eShift, wrapInt]

/-- VBCAST puts one value into every element (R135). -/
theorem vbcast_eq (par : Nat) (ty : VType) (d r : Nat) (m : Mach) (c : Ctx) : vbcast par ty d r m c =
    ({ lands := vecLands c par 2 d (vbits ty) (vcount ty) (fun _ _ => ((readS m c.bank r).toNat % 2 ^ vbits ty, 0)), occ := 1 },
      vParityFx m c par) := by
  have hall : ∀ v : Nat × Nat, List.replicate (vcount ty) v = (List.range (vcount ty)).map (fun _ => v) := by simp
  exact vMap_eq par .light ty _ _ _ _ _ m c (fun _ => hall _) 2 rfl

/-- Settles O7: each instruction is an element's function of its sources, of the light group, or of that of the moves. -/
theorem vectorBitsLand : Obligations.VectorBitsLand := by
  unfold Obligations.VectorBitsLand
  intro s iss m c ty d a b x src h A B lands
  have two : ∀ {i} {f : Nat → Nat → Nat × Nat} (g : Nat → Nat → Nat),
      exec i s = s.effect (fun m => issue m iss 2 (v2 iss.par .light (fun _ => f) ty d.val a.val b.val)) → (∀ p q, f p q = (g p q, 0)) →
      lands 2 (fun cl i => g (A cl i) (B cl i)) i := by
    intro i f g hi hf
    obtain rfl : f = fun p q => (g p q, 0) := funext fun p => funext (hf p)
    exact landsI h hi (v2_eq _ _ _ _ _ _ _ _ _ _ rfl)
  refine ⟨two (· &&& ·) rfl fun _ _ => rfl, two (· ||| ·) rfl fun _ _ => rfl, two (· ^^^ ·) rfl fun _ _ => rfl,
    two (fun p q => p * 2 ^ (q % 32) % 2 ^ 32) rfl eShift_left, two (fun p q => p / 2 ^ (q % 32)) rfl eShift_right,
    two (fun p q => (signedOf 32 p / (2 ^ (q % 32) : Int) % (2 ^ 32 : Int)).toNat) rfl eShift_arith, ?_, ?_, ?_⟩
  · exact landsI h rfl (v3_eq _ _ _ _ _ _ _ _ _ _ _ rfl)
  · exact landsI h rfl (v1_eq _ _ _ _ _ _ _ _ _ rfl)
  · exact landsI h rfl (vbcast_eq _ _ _ _ _ _)

/-! ## Conversions, functions and reductions -/

/-- The latency of the conversions (R137). -/
theorem vtiming_cvt (ty ty2 : VType) : (vtiming (.cvt ty2) ty).1 = if ty = .f64 ∨ ty2 = .f64 then 8 else 4 := by
  unfold vtiming; dsimp only; split <;> rfl

/-- The latency of the reductions (R137). -/
theorem vtiming_reduce (ty : VType) : (vtiming .reduce ty).1 = if ty = .f64 then 12 else 8 := by
  cases ty <;> rfl

/-- Every TYPE has an element (R134). -/
theorem vcount_pos (ty : VType) : 0 < vcount ty := by cases ty <;> decide

/-- VCVT converts the elements that both TYPEs have (R136, R173). -/
theorem vcvt_eq (par : Nat) (ty ty2 : VType) (d a : Nat) (m : Mach) (c : Ctx) {lat : Nat} (hl : (vtiming (.cvt ty2) ty).1 = lat) :
    vcvt par ty ty2 d a m c =
      ({ lands := vecLands c par lat d (vbits ty2) (min (vcount ty) (vcount ty2)) (fun cl i => eCvt ty ty2 (elt m ty cl a i)),
         occ := (vtiming (.cvt ty2) ty).2 }, vParityFx m c par) := by
  refine vMap_eq _ _ _ _ _ _ _ _ _ _ (fun cl => ?_) _ hl
  rw [vsrc_eq, ← List.map_take, List.take_range, List.map_map, min_right_comm, min_self]
  rfl

/-- A list that is 0 after its first element, element by element. -/
theorem cons_replicate_eq_map_range {α : Type} (x z : α) {n : Nat} (hn : 0 < n) :
    x :: List.replicate (n - 1) z = (List.range n).map (fun i => if i = 0 then x else z) := by
  obtain ⟨k, rfl⟩ := Nat.exists_eq_succ_of_ne_zero hn.ne'
  simp [List.range_succ_eq_map, Function.comp_def]

/-- A reduction lands in element 0 (R136). -/
theorem vred_eq (par : Nat) (op : VType → Nat → Nat → Nat × Nat) (ty : VType) (d a : Nat) (m : Mach) (c : Ctx) {lat : Nat}
    (hl : (vtiming .reduce ty).1 = lat) :
    vred par op ty d a m c =
      ({ lands := vecLands c par lat d (vbits ty) (vcount ty)
           (fun cl i => if i = 0 then eReduce op ty ((List.range (vcount ty)).map (elt m ty cl a)) else (0, 0)),
         occ := (vtiming .reduce ty).2 }, vParityFx m c par) :=
  vMap_eq _ _ _ _ _ _ _ _ _ _ (fun _ => cons_replicate_eq_map_range _ _ (vcount_pos ty)) _ hl

/-- VEXT lands an element of the rank-0 cluster where it detects no parity error (R135, R136). -/
theorem vext_eq {par cl : Nat} {rest : List Nat} {m : Mach} {c : Ctx} (ty : VType) (d a lane : Nat) (hc : c.st.clusters = cl :: rest)
    (hp : bit par (cl + 4) = false) : vext par ty d a lane m c =
      ({ lands := [(2, .s c.bank d (BitVec.ofNat 64 (if lane < vcount ty then elt m ty cl a lane else 0)))], occ := 1 }, vParityFx m c par) := by
  have hlane : (vsrc m ty cl a).getD lane 0 = if lane < vcount ty then elt m ty cl a lane else 0 := by
    rw [vsrc_eq, List.getD_eq_getElem?_getD, List.getElem?_map]
    by_cases hl : lane < vcount ty
    · rw [if_pos hl, List.getElem?_range hl]; rfl
    · rw [if_neg hl, List.getElem?_eq_none (by simpa using hl)]; rfl
  unfold vext
  rw [hc, ← hlane]
  simp [vtiming, hp]

/-- Settles O8: conversions, functions and reductions are elements' functions in groups of known latency, and VEXT is one landing. -/
theorem vectorFunctionsLand : Obligations.VectorFunctionsLand := by
  unfold Obligations.VectorFunctionsLand
  intro s iss m c ty ty2 d a e lane h A wide lands fn red
  have func : ∀ {i g}, exec i s = s.effect (fun m => issue m iss 2 (v1 iss.par .trans (eFun g) ty d.val a.val)) → fn g i :=
    fun hi => landsI h hi (v1_eq _ _ _ _ _ _ _ _ _ (vtiming_trans ty))
  have reduction : ∀ {i op}, exec i s = s.effect (fun m => issue m iss 2 (vred iss.par op ty d.val a.val)) → red op i :=
    fun hi => landsI h hi (vred_eq _ _ _ _ _ _ _ (vtiming_reduce ty))
  exact ⟨landsI h rfl (vcvt_eq _ _ _ _ _ _ _ (vtiming_cvt ty ty2)), func rfl, func rfl, func rfl, func rfl, func rfl, func rfl, func rfl,
    reduction rfl, reduction rfl, reduction rfl, fun cl rest hc hp => landsI h rfl (vext_eq ty _ _ _ hc hp)⟩

end Sys2Proof.Machine
end

section
/-!
PROOFS. What an element of an integer TYPE is worth (R171, R172).
-/
namespace Sys2Proof.Machine

/-! ## Integer elements modulo 2³² -/

/-- A two's-complement integer is congruent to the bits it is read from. -/
theorem signedOf_modEq (n v : Nat) : signedOf n v ≡ v [ZMOD (2 ^ n : Nat)] := by
  have hbits : ((v % 2 ^ n : Nat) : Int) ≡ v [ZMOD (2 ^ n : Nat)] := by
    rw [Int.natCast_mod]
    exact Int.mod_modEq _ _
  unfold signedOf
  dsimp only
  split
  · exact hbits
  · exact Int.sub_modulus_modEq_iff.mpr hbits

/-- The signed and the unsigned reading of an element agree modulo 2³². -/
theorem vint_modEq (ty : VType) (a : Nat) : vint ty a ≡ a [ZMOD (2 ^ 32 : Nat)] := by
  unfold vint
  split
  · exact signedOf_modEq 32 a
  · rfl

/-- An integer result is the remainder of any number congruent to it. -/
theorem iwrap_of_modEq {v : Int} {k : Nat} (h : v ≡ k [ZMOD (2 ^ 32 : Nat)]) : iwrap v = (k % 2 ^ 32, 0) := by
  rw [iwrap, wrapInt, h.eq, ← Int.natCast_mod, Int.toNat_natCast]

section
variable {ty : VType} (a b c : Nat)

/-- Sums, products and their sum wrap, whatever the sign of the TYPE (R172). -/
theorem eAdd_integer (h : vfmt ty = none) : eAdd ty a b = ((a + b) % 2 ^ 32, 0) := by
  rw [eAdd, h]
  exact iwrap_of_modEq (mod_cast (vint_modEq ty a).add (vint_modEq ty b))

theorem eMul_integer (h : vfmt ty = none) : eMul ty a b = ((a * b) % 2 ^ 32, 0) := by
  rw [eMul, h]
  exact iwrap_of_modEq (mod_cast (vint_modEq ty a).mul (vint_modEq ty b))

theorem eFma_integer (h : vfmt ty = none) : eFma ty a b c = ((a * b + c) % 2 ^ 32, 0) := by
  rw [eFma, h]
  exact iwrap_of_modEq (mod_cast ((vint_modEq ty a).mul (vint_modEq ty b)).add (vint_modEq ty c))

/-- A difference and a negation wrap: 2³² more is a number that does not go below zero (R172). -/
theorem eSub_integer (h : vfmt ty = none) (hb : b ≤ 2 ^ 32) : eSub ty a b = ((a + 2 ^ 32 - b) % 2 ^ 32, 0) := by
  rw [eSub, h]
  refine iwrap_of_modEq (((vint_modEq ty a).sub (vint_modEq ty b)).trans ?_)
  rw [Nat.cast_sub (hb.trans (Nat.le_add_left _ a)), Nat.cast_add, add_sub_right_comm]
  exact Int.modEq_add_modulus_iff.mpr rfl

theorem eNeg_integer (h : vfmt ty = none) (ha : a ≤ 2 ^ 32) : eNeg ty a = ((2 ^ 32 - a) % 2 ^ 32, 0) := by
  rw [eNeg, h]
  refine iwrap_of_modEq ((vint_modEq ty a).neg.trans ?_)
  rw [Nat.cast_sub ha, sub_eq_neg_add]
  exact Int.modEq_add_modulus_iff.mpr rfl

/-! ## The order of integer elements -/

/-- The lesser and the greater element are chosen by the order of their readings (R172). -/
theorem eMinMax_lesser (h : vfmt ty = none) : eMinMax false ty a b = (if vint ty a < vint ty b then a else b, 0) := by
  by_cases hab : vint ty a < vint ty b <;> simp [eMinMax, h, hab]

theorem eMinMax_greater (h : vfmt ty = none) : eMinMax true ty a b = (if vint ty a < vint ty b then b else a, 0) := by
  by_cases hab : vint ty a < vint ty b <;> simp [eMinMax, h, hab]

/-- So the reading of the choice is the minimum or the maximum of the readings, in either integer TYPE. -/
theorem vint_eMinMax_min (h : vfmt ty = none) : vint ty (eMinMax false ty a b).1 = min (vint ty a) (vint ty b) := by
  rw [eMinMax_lesser a b h, apply_ite (vint ty), min_def_lt]

theorem vint_eMinMax_max (h : vfmt ty = none) : vint ty (eMinMax true ty a b).1 = max (vint ty a) (vint ty b) := by
  rw [eMinMax_greater a b h, apply_ite (vint ty), max_def_lt]

/-- An unsigned element is read as itself. -/
theorem vint_u32 : vint .u32 a = a := rfl

/-- So in U32 the choice is the minimum or the maximum of the elements themselves. -/
theorem eMinMax_u32_min : eMinMax false .u32 a b = (min a b, 0) := by
  simp [eMinMax_lesser (ty := .u32) a b rfl, vint_u32, min_def_lt]

theorem eMinMax_u32_max : eMinMax true .u32 a b = (max a b, 0) := by
  simp [eMinMax_greater (ty := .u32) a b rfl, vint_u32, max_def_lt]
end

/-- Settles O9: integer results wrap over readings congruent to the elements, and the order is that of the readings. -/
theorem elementArithmetic : Obligations.ElementArithmetic := by
  unfold Obligations.ElementArithmetic
  intro a b c ha hb _
  exact ⟨eAdd_integer a b rfl, eAdd_integer a b rfl, eSub_integer a b rfl hb.le, eSub_integer a b rfl hb.le, eMul_integer a b rfl,
    eMul_integer a b rfl, eFma_integer a b c rfl, eFma_integer a b c rfl, eNeg_integer a rfl ha.le, eMinMax_u32_min a b, eMinMax_u32_max a b,
    vint_eMinMax_min (ty := .i32) a b rfl, vint_eMinMax_max (ty := .i32) a b rfl⟩

end Sys2Proof.Machine
end

section
/-!
PROOFS. Transfers of the cranes and their completion (R246–R250, R262–R266, R563), flash writes and relocations (R273–R285), and the ends of
flips and bonds (R330, R332).
-/
namespace Sys2Proof.Machine

/-! ## The issue of a transfer -/

/-- The first element that passes a test which the change keeps is the first one of before, changed. -/
theorem find?_mapIf {α : Type} {p : α → Bool} {f : α → α} (hf : ∀ x, p (f x) = p x) (l : List α) :
    (mapIf p f l).find? p = (l.find? p).map f := by
  induction l with
  | nil => rfl
  | cons x l ih =>
    unfold mapIf at ih ⊢
    by_cases hx : p x = true <;> simp [hx, hf, ih]

theorem issueXfer_none {m : Mach} {id : Nat} (h : m.mem.xfers.find? (·.id == id) = none) : issueXfer m id = m := by
  unfold issueXfer; rw [h]

section
variable {m : Mach} {id : Nat} {x : Xfer} (h : m.mem.xfers.find? (·.id == id) = some x)
include h

theorem issueXfer_waits (hi : mayIssue m x = false) : issueXfer m id = m := by
  unfold issueXfer; rw [h]; dsimp only
  rw [if_pos (by simp [hi])]

variable (hi : mayIssue m x = true)
include hi

/-- A transfer that the rules in force do not grant leaves, and an input list's run is without its manifest (R262, R563). -/
theorem issueXfer_denied (hg : xferGranted m x = false) : issueXfer m id =
    dropXfer (if x.kind = 0 then failList (raiseSlot m 0x0D07 x.tenant x.slot 0) x.list 0x0507 else raiseSlot m 0x0D07 x.tenant x.slot 0) x := by
  unfold issueXfer; rw [h]; dsimp only
  rw [if_neg (by simp [hi]), if_pos (by simp [hg])]

variable (hg : xferGranted m x = true)
include hg

/-- A write-back that needs a flash program is refused in read-only mode (R281). -/
theorem issueXfer_readOnly (hf : x.kind = 1 ∧ m.flagOf rFL_STATUS 1 = true ∧ (findGen m x.h x.gen).any (fun a => inFlash a (x.off / pageSize)) = true) :
    issueXfer m id = dropXfer (failRun m 0x0601 x.tenant x.slot) x := by
  unfold issueXfer; rw [h]; dsimp only
  rw [if_neg (by simp [hi]), if_neg (by simp [hg]), if_pos hf]

theorem issueXfer_issues (hf : ¬(x.kind = 1 ∧ m.flagOf rFL_STATUS 1 = true ∧ (findGen m x.h x.gen).any (fun a => inFlash a (x.off / pageSize)) = true)) :
    issueXfer m id = { m with mem := { m.mem with
      xfers := mapIf (·.id == id) (fun x => { x with st := 1, epoch := m.fldOf rHM_RULE_EPOCH 0 16 }) m.mem.xfers } } := by
  unfold issueXfer; rw [h]; dsimp only
  rw [if_neg (by simp [hi]), if_neg (by simp [hg]), if_neg hf]
end

/-! ## The completion of a transfer -/

/-- The machine once the reads of a transfer are counted (R259, R283). -/
def readsCounted (m : Mach) (ce : Nat) (reads : List (Nat × Nat)) : Mach := addCorrected (addReads m reads) ce

/-- What every completion ends with: the transfer leaves its list, and the copy that it read is released (R240, R250). -/
def xferClosed (m : Mach) (x : Xfer) : Mach := releaseOld (dropXfer m x) x.h x.gen (x.off / pageSize)

/-- What a transfer that ends with a fault leaves of the page (R266, R282). -/
def pageHit (m : Mach) (a : Alloc) (p : Nat) (e : XferEnd) : Mach :=
  if e = .dramError then poisonPage m a p true else if e = .flashError then poisonPage m a p false else m

/-- The list of an input that has landed keeps the heat that START credits (R236); nothing is credited where the list has left. -/
def heatNoted (m : Mach) (x : Xfer) : Mach :=
  match findList m x.list with
  | some l => putList m { l with heat := l.heat ++ [(pageKey x.h x.gen (x.off / pageSize), x.len)] }
  | none => m

/-- What an issued transfer between berths and an allocation does (R230, R250, R262–R266): its fault, the bytes of an input, or those of a
write-back. -/
def xferResult (m : Mach) (a : Alloc) (x : Xfer) (e : XferEnd) : Mach :=
  if xferFault a x e ≠ 0 then
    if x.kind = 0 then failList (pageHit m a (x.off / pageSize) e) x.list (xferFault a x e)
    else failRun (pageHit m a (x.off / pageSize) e) (xferFault a x e) x.tenant x.slot
  else if x.kind = 0 then heatNoted (moveBytes m x x.len) x
  else writeAlloc m a x.off (readBerths m x.berth x.len) 64 0
    (some (x.id, x.list, x.tenant, x.berth / 524288 + 64 * ((x.berth + x.len - 1) / 524288)))

section
variable {m : Mach} {a : Alloc} {x : Xfer} {e : XferEnd}

theorem xferResult_input_failed (hk : xferFault a x e ≠ 0) (hx : x.kind = 0) :
    xferResult m a x e = failList (pageHit m a (x.off / pageSize) e) x.list (xferFault a x e) := by
  rw [xferResult, if_pos hk, if_pos hx]

theorem xferResult_writeBack_failed (hk : xferFault a x e ≠ 0) (hx : x.kind ≠ 0) :
    xferResult m a x e = failRun (pageHit m a (x.off / pageSize) e) (xferFault a x e) x.tenant x.slot := by
  rw [xferResult, if_pos hk, if_neg hx]

theorem xferResult_input (hk : xferFault a x e = 0) (hx : x.kind = 0) : xferResult m a x e = heatNoted (moveBytes m x x.len) x := by
  rw [xferResult, if_neg (not_not_intro hk), if_pos hx]

theorem xferResult_writeBack (hk : xferFault a x e = 0) (hx : x.kind ≠ 0) :
    xferResult m a x e = writeAlloc m a x.off (readBerths m x.berth x.len) 64 0
      (some (x.id, x.list, x.tenant, x.berth / 524288 + 64 * ((x.berth + x.len - 1) / 524288))) := by
  rw [xferResult, if_neg (not_not_intro hk), if_neg hx]

theorem heatNoted_none (h : findList m x.list = none) : heatNoted m x = m := by rw [heatNoted, h]

theorem heatNoted_some {l : CList} (h : findList m x.list = some l) :
    heatNoted m x = putList m { l with heat := l.heat ++ [(pageKey x.h x.gen (x.off / pageSize), x.len)] } := by rw [heatNoted, h]
end

theorem completeXfer_none {m : Mach} {id : Nat} (h : m.mem.xfers.find? (·.id == id) = none) (e : XferEnd) (ce : Nat) (reads : List (Nat × Nat)) :
    completeXfer m id e ce reads = m := by
  unfold completeXfer; rw [h]

section
variable {m : Mach} {id : Nat} {x : Xfer} (h : m.mem.xfers.find? (·.id == id) = some x) (e : XferEnd) (ce : Nat) (reads : List (Nat × Nat))
include h

/-- A transfer completes once it was issued and its berths are not held (R246). -/
theorem completeXfer_waits (hw : x.st = 0 ∨ (x.st = 1 ∧ heldBerths m &&& berthMask x.berth x.len ≠ 0)) : completeXfer m id e ce reads = m := by
  unfold completeXfer; rw [h]; dsimp only
  rw [if_pos hw]

/-- An aborted transfer moves nothing more; a write-back that was revoked raises its fault at its completion (R564). -/
theorem completeXfer_aborted (hst : 2 ≤ x.st) : completeXfer m id e ce reads =
    xferClosed (if x.st = 2 ∧ x.kind = 1 then raiseSlot (readsCounted m ce reads) 0x0D07 x.tenant x.slot 0 else readsCounted m ce reads) x := by
  unfold completeXfer; rw [h]; dsimp only
  rw [if_neg (by omega), if_pos hst]
  rfl

/-- A transfer that was issued ends with its result (R250). -/
theorem completeXfer_issued {a : Alloc} (hst : x.st = 1) (hb : heldBerths m &&& berthMask x.berth x.len = 0)
    (ha : findGen (readsCounted m ce reads) x.h x.gen = some a) :
    completeXfer m id e ce reads = xferClosed (xferResult (readsCounted m ce reads) a x e) x := by
  unfold readsCounted at ha
  unfold completeXfer; rw [h]; dsimp only
  rw [if_neg (by omega), if_neg (by omega), ha]
  rfl
end

/-! ## Flash writes -/

section
variable {m : Mach} {id : Nat} {w : FWrite} (h : m.fl.writes.find? (·.id == id) = some w) (r : FtlReport)
include h

theorem makeDurable_waits (hw : w.done = true ∨ w.held = true ∨ isOn m 16 = false) : makeDurable m id r = m := by
  unfold makeDurable; rw [h]; dsimp only
  rw [if_pos (by simpa using hw)]

/-- A command's flash write that nothing revoked acts and takes its place in order (R273, R276). -/
theorem makeDurable_acts (hd : w.done = false) (hh : w.held = false) (hon : isOn m 16 = true) (hu : w.unmapped = false) (hx : w.xf = none)
    (hq : w.q < 64) {f acted : Mach} (hf : f = applyFtl (addReads m r.reads) r)
    (hacted : acted = durableAct { f with fl := { f.fl with writes := mapIf (·.id == id) (fun w => { w with done := true }) f.fl.writes } } w.act) :
    makeDurable m id r = settleUnlock (wakeCmd (settle acted.fl.writes [] acted) w.q w.cid) := by
  have hgo : ¬(w.done = true ∨ w.held = true ∨ (!isOn m 16) = true) := by simp [hd, hh, hon]
  have hmapped : ¬w.unmapped = true := by simp [hu]
  subst hf hacted
  simp only [makeDurable, h, if_neg hgo, if_neg hmapped, hx, if_pos hq]
end

/-! ## The end of a flip -/

section
variable {m : Mach} {t j : Nat}

/-- The machine at the end of a flip, whose first cycle is known unless it begins with the seam (R330). -/
def flipTime (m : Mach) (d : Bond) : Mach := (d.flip.map (fun f => advanceTo m (quayTime m (f + 16)))).getD m

theorem flipEnd_none (h : (cascOf m t).bind (·.bond j) = none) : flipEnd m t j = m := by
  unfold flipEnd; rw [h]

/-- The machine at the first cycle of a flip's last period: a flip that waited for the seam runs its 16 quay cycles from there (R330). -/
def flipBegun (m : Mach) (t j : Nat) (d : Bond) : Mach :=
  if d.flip = none then advanceTo (beginFlip (flipTime m d) t j) ((beginFlip (flipTime m d) t j).clk.now + quayToRef (curPl (beginFlip (flipTime m d) t j)) 16)
  else beginFlip (flipTime m d) t j

/-- A flip that was not decided, or that waits for the seam, does not end; one that ends lets a disarm complete that waited for it (R315, R330). -/
theorem flipEnd_some {d : Bond} (h : (cascOf m t).bind (·.bond j) = some d) : flipEnd m t j =
    if d.st = 0 ∨ (d.st = 1 ∧ d.flip = none ∧ m.clk.inSeam = false) then flipTime m d
    else endDisarm (endFlip creditHeat (fun m n => runNotice m n.1 t n.2.1 n.2.2.1 n.2.2.2) (flipBegun m t j d) t j (flipBegun m t j d).clk.now) t := by
  rw [flipEnd, h]
  cases hf : d.flip with
  | none => simp [flipTime, flipBegun, hf]
  | some f => simp [flipTime, flipBegun, hf]
end

/-! ## Events -/

theorem leaves_pageCopyDone {s : State} {h p : Nat} {a : Alloc} (reads : List (Nat × Nat)) (ha : findAlloc s.taken h = some a) :
    Leaves (.pageCopyDone h p reads) s
      (if (a.page p).copy = 1 then putAlloc (addReads s.taken reads) (a.setPage p { a.page p with copy := 2 }) else s.taken) :=
  leaves_effect rfl (by dsimp only; rw [ha])

/-- The flash once a block's pages were copied and the block erased: its counter starts again (R283, R285). -/
def Flash.relocated (f : Flash) (block : Nat) : Flash :=
  { f with reads := tabSet f.reads block 0 0, backlog := f.backlog.filter (· != block), relocs := f.relocs + 1 }

theorem leaves_relocationDone {s : State} {block : Nat} (rep : FtlReport) (hl : s.taken.fl.limit ≤ tabGet s.taken.fl.reads block 0)
    (hi : inhibited s.taken = false) (hm : mounted s.taken = true) {g : Mach} (hg : g = addReads s.taken rep.reads) :
    Leaves (.relocationDone block rep) s
      (applyFtl (({ g with fl := g.fl.relocated block } : Mach).setRegN rFL_RD_RELOC_COUNT (g.fl.relocs + 1)) rep) := by
  subst hg
  exact leaves_effect rfl (if_neg (by simp [hl, hi, hm]))

theorem leaves_bondExpiry_none {s : State} {t : Fin 64} {j : Fin 8} (h : (cascOf s.taken t.val).bind (·.bond j.val) = none) :
    Leaves (.bondExpiry t j) s s.taken := by
  refine leaves_effect rfl ?_
  dsimp only
  cases hc : cascOf s.taken t.val with
  | none => rfl
  | some c =>
    rw [hc] at h
    dsimp only
    rw [show c.bond j.val = none from h]

theorem leaves_bondExpiry {s : State} {t : Fin 64} {j : Fin 8} {c : Casc} {d : Bond} (h : (cascOf s.taken t.val).bind (·.bond j.val) = some d)
    (hc : cascOf s.taken t.val = some c) : Leaves (.bondExpiry t j) s
      (if bondDue s.taken c d = false then s.taken
        else dropBond (beginFlips (advanceTo s.taken (seamStart s.taken)) (quayNow (advanceTo s.taken (seamStart s.taken)))) t.val j.val 0 true none) := by
  rw [hc] at h
  refine leaves_effect rfl ?_
  dsimp only
  rw [hc]; dsimp only
  rw [show c.bond j.val = some d from h]
  simp only [Bool.not_eq_true']

/-- Settles O42: each event finds nothing to do, or does what the model's operation says in that case. -/
theorem transfersAndFlips : Obligations.TransfersAndFlips := by
  unfold Obligations.TransfersAndFlips
  intro s id ce h p block e reads x a w rep t j c d m flashFull z k closes hit heldBack moved f marked acted g relocated y b q due
  refine ⟨fun hx => ⟨leaves_effect rfl (issueXfer_none hx), leaves_effect rfl (completeXfer_none hx ..)⟩, fun hx => ?_, fun ha hcopy => ?_,
    fun ha hcopy => ?_, fun hw hwait => leaves_effect rfl (makeDurable_waits hw _ hwait),
    fun hw hd hh hon hu hxf hq => leaves_effect rfl (makeDurable_acts hw _ hd hh hon hu hxf hq rfl rfl),
    fun hwait => leaves_effect rfl (if_pos (by simpa using hwait)), fun hl hi hm => leaves_relocationDone rep hl hi hm rfl,
    fun hd => ⟨leaves_effect rfl (flipEnd_none hd), leaves_bondExpiry_none hd⟩, fun hd => ⟨fun hw => ?_, fun h0 hw => ?_, fun hc hdue => ?_, fun hc hdue => ?_⟩⟩
  · refine ⟨fun hi => leaves_effect rfl (issueXfer_waits hx hi), fun hi hg => leaves_effect rfl (issueXfer_denied hx hi hg),
      fun hi hg hf => leaves_effect rfl (issueXfer_readOnly hx hi hg hf),
      fun hi hg hf => ⟨_, leaves_effect rfl (issueXfer_issues hx hi hg hf), ?_, List.length_map ..⟩,
      fun hw => leaves_effect rfl (completeXfer_waits hx _ _ _ hw), fun hst hwb => leaves_effect rfl ?_, fun hst hn => leaves_effect rfl ?_,
      fun hst hb ha => ?_⟩
    · rw [find?_mapIf (by exact fun _ => rfl), hx]
      rfl
    · exact (completeXfer_aborted hx _ _ _ hst.ge).trans (congrArg (xferClosed · x) (if_pos ⟨hst, hwb⟩))
    · exact (completeXfer_aborted hx _ _ _ hst).trans (congrArg (xferClosed · x) (if_neg hn))
    · have hends {Y : Mach} (hY : xferResult z a x e = Y) : Leaves (.transferComplete id e ce reads) s (closes Y) :=
        leaves_effect rfl ((completeXfer_issued hx _ _ _ hst hb ha).trans (congrArg (xferClosed · x) hY))
      exact ⟨fun hk hin => hends (xferResult_input_failed hk hin), fun hk hwb => hends (xferResult_writeBack_failed hk hwb),
        fun hk hin hl => hends ((xferResult_input hk hin).trans (heatNoted_none hl)),
        fun hk hin l hl => hends ((xferResult_input hk hin).trans (heatNoted_some hl)),
        fun hk hwb => hends (xferResult_writeBack hk hwb)⟩
  · have hl := leaves_pageCopyDone (p := p) reads ha
    rwa [if_pos hcopy] at hl
  · have hl := leaves_pageCopyDone (p := p) reads ha
    rwa [if_neg hcopy] at hl
  · exact leaves_effect rfl ((flipEnd_some hd).trans (if_pos hw))
  · exact leaves_effect rfl ((flipEnd_some hd).trans (if_neg (not_or.2 ⟨h0, hw⟩)))
  · have hl := leaves_bondExpiry hd hc
    rwa [if_pos hdue] at hl
  · have hl := leaves_bondExpiry hd hc
    rwa [if_neg (by rw [hdue]; decide)] at hl

end Sys2Proof.Machine
end

section
/-!
PROOFS. The commands of the memory tiers: allocations (R226–R232) and manifests (R244, R245).
-/
namespace Sys2Proof.Machine

/-! ## The lowest free number -/

/-- Among one more numbers than a list has elements, one is not in the list. -/
theorem exists_not_mem_range (l : List Nat) : ∃ k < l.length + 1, k ∉ l := by
  by_contra hall
  push Not at hall
  have hsub : Finset.range (l.length + 1) ⊆ l.toFinset := fun k hk => List.mem_toFinset.2 (hall k (Finset.mem_range.1 hk))
  have hcard := (Finset.card_le_card hsub).trans l.toFinset_card_le
  rw [Finset.card_range] at hcard
  omega

/-- The number is free, and every lower one is taken (R226). -/
theorem lowestFree_spec (l : List Nat) : lowestFree l ∉ l ∧ ∀ j < lowestFree l, j ∈ l := by
  obtain ⟨k, hk, hfree⟩ := exists_not_mem_range l
  cases hf : (List.range (l.length + 1)).find? (fun k => !l.contains k) with
  | none =>
    have hused := List.find?_eq_none.1 hf k (List.mem_range.2 hk)
    simp [hfree] at hused
  | some i =>
    obtain ⟨hi, -, hlow⟩ := List.find?_range_eq_some.1 hf
    rw [lowestFree, hf]
    exact ⟨by simpa using hi, fun j hj => by simpa using hlow j hj⟩

/-! ## Operands in a buffer -/

section
variable {m : Mach} {cmd : CmdCtx} {r : BufRef} {beat : Bool} (op : Nat) (f : List Byte → Mach)

/-- The beginning of a command changes no operand. -/
theorem refOk_begun (t : Nat) : refOk (begun m cmd) t r beat = refOk m t r beat := rfl
theorem readRef_begun (t : Nat) : readRef (begun m cmd) t r = readRef m t r := rfl

/-- A command whose reference R671 forbids is refused. -/
theorem withRef_forbidden (hr : refOk m cmd.q.val r beat = false) :
    withRef (begun m cmd) cmd op r beat f = refuse (begun m cmd) cmd.q.val cmd.cid op 0x0F03 0 := by
  rw [withRef, refOk_begun, hr]; rfl

/-- A command whose reference delivers bytes has its effect on them (R671). -/
theorem withRef_delivers {d : List Byte} (hr : refOk m cmd.q.val r beat = true) (hd : readRef m cmd.q.val r = .ok d) :
    withRef (begun m cmd) cmd op r beat f = f d := by
  rw [withRef, refOk_begun, readRef_begun, hr, hd]; rfl
end

/-! ## Allocations -/

/-- The tier that has room takes an allocation of every byte zero under the lowest free handle; only host memory takes host pages (R226, R679). -/
theorem createAlloc_parts (m : Mach) (t flags pages : Nat) : ∃ host,
    (createAlloc m t flags pages).1.mem.allocs = m.mem.allocs ++
      [⟨(createAlloc m t flags pages).2, t, tabGet m.mem.gens (createAlloc m t flags pages).2 0 + 1, flags, pages, [], [], host, none⟩] ∧
    (∀ z ∈ m.mem.allocs, z.h ≠ (createAlloc m t flags pages).2) ∧ (∀ j < (createAlloc m t flags pages).2, ∃ z ∈ m.mem.allocs, z.h = j) ∧
    (homeTier flags ≠ 2 → host = []) := by
  obtain ⟨hfree, hlow⟩ := lowestFree_spec (m.mem.allocs.map (·.h))
  exact ⟨_, rfl, fun z hz he => hfree (List.mem_map.2 ⟨z, hz, he⟩), fun j hj => List.mem_map.1 (hlow j hj), fun h2 => if_neg h2⟩

/-- No allocation of a dropped handle is left (R225). -/
theorem h_ne_of_mem_dropAlloc {m : Mach} {h : Nat} {z : Alloc} (hz : z ∈ (dropAlloc m h).mem.allocs) : z.h ≠ h := by
  unfold dropAlloc at hz
  split at hz
  · next hnone => simpa using List.find?_eq_none.1 hnone z hz
  · simpa using (List.mem_filter.1 hz).2

/-- A command that takes time changes no allocation. -/
theorem running_mem (m : Mach) (q cid op w : Nat) (c : Option Cpl) (objs : List Nat) (lo hi : Nat) :
    (running m q cid op w c objs lo hi).mem = m.mem := by
  obtain ⟨hs, h⟩ := running_eq m q cid op w c objs lo hi
  rw [h]

/-- A free that zeroes first keeps the allocation, empty, for its command (R232). -/
def zeroedFirst (m : Mach) (a : Alloc) (q cid : Nat) : Mach :=
  { m with mem := { m.mem with allocs := m.mem.allocs ++ [{ a with data := [], zeroing := some (q, cid) }] } }

/-- An allocation that is being zeroed is not found under its handle (R674). -/
theorem findAlloc_zeroing {m : Mach} {h : Nat} {l : List Alloc} {a : Alloc} (hm : m.mem.allocs = l ++ [a]) (hl : ∀ z ∈ l, z.h ≠ h)
    (ha : a.zeroing.isSome = true) : findAlloc m h = none := by
  rw [findAlloc, hm, List.find?_eq_none]
  intro z hz
  rcases List.mem_append.1 hz with hz | hz
  · simp [hl z hz]
  · obtain rfl := List.mem_singleton.1 hz
    simp [Option.isSome_iff_ne_none.1 ha]

/-- A free of a tenant's own allocation (R232, R245): refused while a manifest in use names it; at once, or after its zeroing. -/
theorem leaves_free {s : State} {cmd : CmdCtx} {h : Nat} {a : Alloc} (hb : Begins s.taken cmd 0x11 (naming (objKey 1 h)))
    (ha : ownAlloc s.taken cmd.q.val h = some a) {b d : Mach} (hbegun : b = begun s.taken cmd) (hd : d = dropAlloc b h) : Leaves (.free cmd h) s
      (if s.taken.mem.mans.any (fun x => (x.ins ++ x.wbs).any (·.h == h) && manInUse s.taken x) = true then refuse b cmd.q.val cmd.cid 0x11 0x0505 0
      else if a.zeroOnFree = true then
        running (zeroedFirst d a cmd.q.val cmd.cid) cmd.q.val cmd.cid 0x11 2 none [objKey 1 h] 0 0
      else complete d cmd.q.val cmd.cid 0x11 0 0 0) := by
  subst hd hbegun
  refine leaves_command rfl hb ?_
  dsimp only
  rw [show ownAlloc (begun s.taken cmd) cmd.q.val h = some a from ha]
  rfl

/-- A manifest that passes every step is stored (R244). -/
theorem leaves_manifestLoad {s : State} {cmd : CmdCtx} {r : BufRef} {d : List Byte} (hb : Begins s.taken cmd 0x18 noWait)
    (hr : refOk s.taken cmd.q.val r false = true) (hd : readRef s.taken cmd.q.val r = .ok d) (hstep : manifestStep s.taken cmd.q.val d = 0) :
    Completes (.manifestLoad cmd r) s cmd 0x18 (storeManifest (begun s.taken cmd) cmd.q.val d).1 (lowestFree (s.taken.mem.mans.map (·.h))) := by
  refine leaves_command rfl hb ?_
  dsimp only
  rw [withRef_delivers _ _ hr hd, show manifestStep (begun s.taken cmd) cmd.q.val d = 0 from hstep]
  rfl

/-- A manifest that its tenant unloads leaves unless a table names it (R245). -/
theorem leaves_manifestUnload {s : State} {cmd : CmdCtx} {h : Nat} {x : Manifest} (hb : Begins s.taken cmd 0x19 (naming (objKey 3 h)))
    (hx : s.taken.mem.mans.find? (fun z => z.h == h && z.tenant == cmd.q.val) = some x) {b : Mach} (hbegun : b = begun s.taken cmd) :
    Leaves (.manifestUnload cmd h) s (if manInUse s.taken x = true then refuse b cmd.q.val cmd.cid 0x19 0x0505 0
      else complete { b with mem := { b.mem with mans := b.mem.mans.filter (·.uid != x.uid) } } cmd.q.val cmd.cid 0x19 0 0 0) := by
  subst hbegun
  refine leaves_command rfl hb ?_
  dsimp only
  rw [show (begun s.taken cmd).mem.mans.find? (fun z => z.h == h && z.tenant == cmd.q.val) = some x from hx]
  rfl

/-- Settles O30: each command's checks pass or fail as the statement says; the lowest free handle is free, and what a free drops is gone. -/
theorem storeCommands : Obligations.StoreCommands := by
  unfold Obligations.StoreCommands
  intro s cmd size flags h r a x d m b q pages inUse entries
  refine ⟨fun hb => ⟨fun hbad => leaves_command rfl hb (if_pos hbad), fun hgood hsize hroom hquota => ?_⟩,
    fun hb ha => ⟨fun huse => ?_, fun huse hz => ?_, fun huse hz => ?_⟩, fun ha hz => ?_, fun hb hr hd hstep => ?_,
    fun hb hx => ⟨fun huse => ?_, fun huse => ?_⟩⟩
  · obtain ⟨host, hallocs, hfree, hlow, hhost⟩ := createAlloc_parts b q flags pages
    have hfits : ¬(homeTier flags = 0 ∧ m.fldOf (rTM_DRAM_QUOTA q) 0 18 < dramUsedBy m q + pages) := fun ⟨h0, hover⟩ => (hquota h0).not_gt hover
    exact ⟨_, _, host, leaves_command rfl hb ((if_neg (ne_true_of_eq_false hgood)).trans ((if_neg hsize).trans
      ((if_neg (ne_true_of_eq_false (congrArg (!·) hroom))).trans (if_neg hfits)))), hallocs, hfree, hlow, hhost, rfl, rfl, rfl, rfl⟩
  · have hl := leaves_free hb ha rfl rfl
    rwa [if_pos huse] at hl
  · have hl := leaves_free hb ha rfl rfl
    rwa [if_neg (ne_true_of_eq_false huse), if_neg (ne_true_of_eq_false hz)] at hl
  · have hl := leaves_free hb ha rfl rfl
    rw [if_neg (ne_true_of_eq_false huse), if_pos hz] at hl
    have hallocs := congrArg Mem.allocs (running_mem (zeroedFirst (dropAlloc b h) a q cmd.cid) q cmd.cid 0x11 2 none [objKey 1 h] 0 0)
    exact ⟨_, hl, findAlloc_zeroing hallocs (fun _ => h_ne_of_mem_dropAlloc) rfl, hallocs⟩
  · refine leaves_effect rfl ?_
    dsimp only
    rw [ha]; dsimp only
    rw [hz]
  · obtain ⟨hfree, -⟩ := lowestFree_spec (m.mem.mans.map (·.h))
    exact ⟨_, _, leaves_manifestLoad hb hr hd hstep, fun z hz he => hfree (List.mem_map.2 ⟨z, hz, he⟩), rfl, rfl⟩
  · have hl := leaves_manifestUnload hb hx rfl
    rwa [if_pos huse] at hl
  · have hl := leaves_manifestUnload hb hx rfl
    rwa [if_neg (ne_true_of_eq_false huse)] at hl

end Sys2Proof.Machine
end

section
/-!
PROOFS. The commands that move data between the host and the memories (R353, R674–R679).
-/
namespace Sys2Proof.Machine

/-! ## What the beginning of a command leaves -/

section
variable (m : Mach) (cmd : CmdCtx)

theorem isQspi_begun : isQspi (begun m cmd) = isQspi m := rfl
theorem regions_begun : (begun m cmd).hs.regions = m.hs.regions := rfl
theorem regionPages_begun : regionPages (begun m cmd) = regionPages m := rfl
theorem lhRangeOk_begun (t a n : Nat) : lhRangeOk (begun m cmd) t a n = lhRangeOk m t a n := rfl
theorem lhRead_begun (a n : Nat) : lhRead (begun m cmd) a n = lhRead m a n := rfl
end

/-! ## The commands -/

/-- The allocation of a host write is checked before its data (R676). -/
theorem leaves_hostWrite {s : State} {cmd : CmdCtx} {h off : Nat} {r : BufRef} {a : Alloc} (hb : Begins s.taken cmd 0x12 (overlapping h off (refLen r) true))
    (ha : ownAlloc s.taken cmd.q.val h = some a) {b : Mach} (hbegun : b = begun s.taken cmd) : Leaves (.hostWrite cmd h off r) s
      (if off % 64 ≠ 0 ∨ a.size < off + refLen r then refuse b cmd.q.val cmd.cid 0x12 0x0F02 0
      else withRef b cmd 0x12 r true (fun bs =>
        if b.fl.readOnly = true ∧ (cutPages (bs.length / pageSize + 2) off bs).any (fun p => inFlash a (p.1 / pageSize)) = true then
          refuse b cmd.q.val cmd.cid 0x12 0x0601 0
        else taking (writeAlloc b a off bs cmd.q.val cmd.cid none) cmd.q.val cmd.cid 0x12 0 [objKey 1 h] off (off + bs.length))) := by
  subst hbegun
  refine leaves_command rfl hb ?_
  dsimp only
  rw [show ownAlloc (begun s.taken cmd) cmd.q.val h = some a from ha]

/-- A read of whole pages of a tenant's own allocation fails where one of them is poisoned (R266). -/
theorem leaves_hostRead {s : State} {cmd : CmdCtx} {h off : Nat} {r : BufRef} {reads : List (Nat × Nat)} {a : Alloc}
    (hb : Begins s.taken cmd 0x13 (overlapping h off (refLen r) false)) (ha : ownAlloc s.taken cmd.q.val h = some a) (hoff : off % 64 = 0)
    (hsize : off + refLen r ≤ a.size) (hr : refOk s.taken cmd.q.val r true = true) {b : Mach} (hbegun : b = begun s.taken cmd) :
    Leaves (.hostRead cmd h off r reads) s
      (if poisoned a off (refLen r) = true then refuse b cmd.q.val cmd.cid 0x13 (poisonFault a (off / pageSize)) 0
      else taking (writeRef (addReads b reads) cmd.q.val cmd.cid r (readAlloc s.taken a off (refLen r))) cmd.q.val cmd.cid 0x13 0 [objKey 1 h]
        off (off + refLen r)) := by
  subst hbegun
  refine leaves_command rfl hb ?_
  dsimp only
  rw [show ownAlloc (begun s.taken cmd) cmd.q.val h = some a from ha]
  exact (if_neg (by omega)).trans (if_neg (ne_true_of_eq_false (congrArg (!·) hr)))

/-- A page list that its reference delivers is registered under the lowest free number, where there is room (R661, R679). -/
theorem leaves_hostmemReg {s : State} {cmd : CmdCtx} {r : BufRef} {d : List Byte} (hb : Begins s.taken cmd 0x14 noWait) (hq : isQspi s.taken = false)
    (hr : refOk s.taken cmd.q.val r false = true) (hd : readRef s.taken cmd.q.val r = .ok d) {b : Mach} (hbegun : b = begun s.taken cmd) :
    Leaves (.hostmemReg cmd r) s
      (if (!pageListOk d) = true then refuse b cmd.q.val cmd.cid 0x14 0x0F02 0
      else if 1048576 < regionPages s.taken + d.length / 8 ∨ 0xFFFF < lowestFree (s.taken.hs.regions.map (·.id)) then
        refuse b cmd.q.val cmd.cid 0x14 0x0502 0
      else complete { b with hs := { b.hs with regions := s.taken.hs.regions ++ [⟨lowestFree (s.taken.hs.regions.map (·.id)), cmd.q.val,
        (List.range (d.length / 8)).map (fun i => byteFld d (8 * i) 8)⟩] } } cmd.q.val cmd.cid 0x14 0 (lowestFree (s.taken.hs.regions.map (·.id))) 0) := by
  subst hbegun
  refine leaves_command rfl hb ?_
  dsimp only
  rw [isQspi_begun, hq, if_neg Bool.false_ne_true, withRef_delivers _ _ hr hd, regionPages_begun, regions_begun]

/-- The region of a number is its owner's alone, and stays while an allocation takes pages of it (R679). -/
theorem leaves_hostmemUnreg {s : State} {cmd : CmdCtx} {h : Nat} {g : HostRegion} (hb : Begins s.taken cmd 0x15 (naming (objKey 2 h)))
    (hg : s.taken.hs.regions.find? (fun g => g.id == h && g.owner == cmd.q.val) = some g) {b : Mach} (hbegun : b = begun s.taken cmd) :
    Leaves (.hostmemUnreg cmd h) s (if regionFree s.taken g ≠ g.pages.length then refuse b cmd.q.val cmd.cid 0x15 0x0F07 0
      else complete { b with hs := { b.hs with regions := s.taken.hs.regions.filter (·.id != h) } } cmd.q.val cmd.cid 0x15 0 0 0) := by
  subst hbegun
  refine leaves_command rfl hb ?_
  dsimp only
  rw [show (begun s.taken cmd).hs.regions.find? (fun g => g.id == h && g.owner == cmd.q.val) = some g from hg]
  rfl

theorem leaves_hostmemUnreg_none {s : State} {cmd : CmdCtx} {h : Nat} (hb : Begins s.taken cmd 0x15 (naming (objKey 2 h)))
    (hg : s.taken.hs.regions.find? (fun g => g.id == h && g.owner == cmd.q.val) = none) : Refuses (.hostmemUnreg cmd h) s cmd 0x15 0x0F02 0 := by
  refine leaves_command rfl hb ?_
  dsimp only
  rw [show (begun s.taken cmd).hs.regions.find? (fun g => g.id == h && g.owner == cmd.q.val) = none from hg]

section
variable {s : State} {cmd : CmdCtx} {off : Nat} {r : BufRef} (hend : off + refLen r ≤ 0x100000)
include hend

/-- The lighthouse SRAM is accessed in partitions of the tenant alone (R353). -/
theorem refuses_lhMemWrite (hb : Begins s.taken cmd 0x3C noWait) (hdeny : lhRangeOk s.taken cmd.q.val off (refLen r) = false) :
    Refuses (.lhMemWrite cmd off r) s cmd 0x3C 0x0D01 0 := by
  refine leaves_command rfl hb ?_
  dsimp only
  rw [if_neg hend.not_gt, lhRangeOk_begun, if_pos (by simp [hdeny])]

theorem refuses_lhMemRead (hb : Begins s.taken cmd 0x3D noWait) (hdeny : lhRangeOk s.taken cmd.q.val off (refLen r) = false) :
    Refuses (.lhMemRead cmd off r) s cmd 0x3D 0x0D01 0 := by
  refine leaves_command rfl hb ?_
  dsimp only
  rw [if_neg hend.not_gt, lhRangeOk_begun, if_pos (by simp [hdeny])]

variable (hgrant : lhRangeOk s.taken cmd.q.val off (refLen r) = true) (hr : refOk s.taken cmd.q.val r false = true)
include hgrant hr

theorem takes_lhMemWrite (hb : Begins s.taken cmd 0x3C noWait) {bs : List Byte} (hd : readRef s.taken cmd.q.val r = .ok bs) :
    Takes (.lhMemWrite cmd off r) s cmd 0x3C (lhWrite (begun s.taken cmd) off bs) 0 (partObjs off bs.length) 0 0 := by
  refine leaves_command rfl hb ?_
  dsimp only
  rw [if_neg hend.not_gt, lhRangeOk_begun, if_neg (by simp [hgrant]), withRef_delivers _ _ hr hd]

theorem takes_lhMemRead (hb : Begins s.taken cmd 0x3D noWait) : Takes (.lhMemRead cmd off r) s cmd 0x3D
    (writeRef (begun s.taken cmd) cmd.q.val cmd.cid r (lhRead s.taken off (refLen r))) 0 (partObjs off (refLen r)) 0 0 := by
  refine leaves_command rfl hb ?_
  dsimp only
  rw [if_neg hend.not_gt, lhRangeOk_begun, if_neg (by simp [hgrant]), refOk_begun, if_neg (by simp [hr]), lhRead_begun]
end

/-- Settles O37: each command's checks pass or fail as the statement says, in their order. -/
theorem hostDataCommands : Obligations.HostDataCommands := by
  unfold Obligations.HostDataCommands
  intro s cmd h off slot r a bs g on reads m b q n id toFlash
  refine ⟨fun hb ha => ?_, fun hb ha hoff hsize hr => ?_, fun hb => ⟨fun hq => leaves_command rfl hb (if_pos hq), fun hq hr hd => ?_⟩,
    fun hb => ⟨fun hg => leaves_hostmemUnreg_none hb hg, fun hg => ?_⟩, fun hb hend => ⟨refuses_lhMemWrite hend hb, fun hgrant hr hd => takes_lhMemWrite hend hgrant hr hb hd⟩,
    fun hb hend => ⟨refuses_lhMemRead hend hb, fun hgrant hr => takes_lhMemRead hend hgrant hr hb⟩,
    fun hb => ⟨fun hslot => leaves_command rfl hb (if_pos hslot), fun hslot => leaves_command rfl hb (if_neg hslot.not_ge)⟩⟩
  · have hl := leaves_hostWrite hb ha rfl
    refine ⟨fun hbad => ?_, fun hoff hsize hr => ?_, fun hoff hsize hr hd => ?_⟩
    · rwa [if_pos hbad] at hl
    · rwa [if_neg (by omega), withRef_forbidden _ _ hr] at hl
    · rw [if_neg (by omega), withRef_delivers _ _ hr hd] at hl
      refine ⟨fun hro hflash => ?_, fun hfree => ?_⟩
      · rwa [if_pos ⟨hro, hflash⟩] at hl
      · rwa [if_neg fun ⟨hro, hflash⟩ => hfree.elim (ne_true_of_eq_false · hro) (· hflash)] at hl
  · have hl := leaves_hostRead (reads := reads) hb ha hoff hsize hr rfl
    refine ⟨fun hp => ?_, fun hp => ?_⟩
    · rwa [if_pos hp] at hl
    · rwa [if_neg (ne_true_of_eq_false hp)] at hl
  · have hl := leaves_hostmemReg hb hq hr hd rfl
    refine ⟨fun hbad => ?_, fun hok hfull => ?_, fun hok hroom hid => ?_⟩
    · rwa [if_pos (by simp [hbad])] at hl
    · rwa [if_neg (by simp [hok]), if_pos (.inl hfull)] at hl
    · rwa [if_neg (by simp [hok]), if_neg (not_or.2 ⟨hroom.not_gt, hid.not_gt⟩)] at hl
  · have hl := leaves_hostmemUnreg hb hg rfl
    refine ⟨fun hused => ?_, fun hfree => ?_⟩
    · rwa [if_pos hused] at hl
    · rwa [if_neg (not_not_intro hfree)] at hl

end Sys2Proof.Machine
end

section
/-!
PROOFS. The image commands (R288–R292), BOOT_SELECT (R570) and FLASH_FORMAT (R296).
-/
namespace Sys2Proof.Machine

/-! ## What the beginning of a command leaves of the flash -/

section
variable (m : Mach) (cmd : CmdCtx)

theorem fl_begun : (begun m cmd).fl = m.fl := rfl
theorem findImage_begun (id : Nat) : findImage (begun m cmd) id = findImage m id := rfl
theorem findAlloc_begun (h : Nat) : findAlloc (begun m cmd) h = findAlloc m h := rfl
theorem mounted_begun : mounted (begun m cmd) = mounted m := rfl
theorem openFault_begun (t : Nat) (rec : List Byte) : openFault (begun m cmd) t rec = openFault m t rec := rfl
end

/-! ## The ingest of an image -/

section
variable {s : State} {cmd : CmdCtx} {b : Mach} (hbegun : b = begun s.taken cmd)
include hbegun

/-- An ingest opens as its record says, unless R288–R290 refuse it. -/
theorem leaves_imgOpen {r : BufRef} {rec : List Byte} (hb : Begins s.taken cmd 0x28 noWait) (hlen : refLen r = 64)
    (hr : refOk s.taken cmd.q.val r false = true) (hd : readRef s.taken cmd.q.val r = .ok rec) : Leaves (.imgOpen cmd r) s
      (if openFault s.taken cmd.q.val rec ≠ 0 then refuse b cmd.q.val cmd.cid 0x28 (openFault s.taken cmd.q.val rec) 0
      else complete (setIngest b (some ⟨cmd.q.val, byteFld rec 0 2, byteFld rec 2 1, byteFld rec 3 1, byteFld rec 4 4, byteFld rec 8 4,
        slice rec 16 48, [], false⟩)) cmd.q.val cmd.cid 0x28 0 0 0) := by
  subst hbegun
  refine leaves_command rfl hb ?_
  dsimp only
  rw [if_neg (not_not_intro hlen), withRef_delivers _ _ hr hd, openFault_begun]

section
variable {g : Ingest} (hg : s.taken.fl.ingest = some g) (hq : g.q = cmd.q.val)
include hg hq

/-- Bytes join the ingest of their tenant in order; others discard an ingest that has not been closed (R290). -/
theorem leaves_imgData {r : BufRef} {off : Nat} (hb : Begins s.taken cmd 0x29 noWait) (hro : s.taken.fl.readOnly = false) :
    Leaves (.imgData cmd r off) s
      (if (!dataOk g off (refLen r)) = true then refuse (if g.closing = true then b else setIngest b none) cmd.q.val cmd.cid 0x29 0x0606 0
      else withRef b cmd 0x29 r false (fun bs => complete (setIngest b (some { g with bytes := g.bytes ++ bs })) cmd.q.val cmd.cid 0x29 0 0 0)) := by
  subst hbegun
  refine leaves_command rfl hb ?_
  dsimp only
  rw [fl_begun, hg]
  exact (if_neg (not_not_intro hq)).trans (if_neg (ne_true_of_eq_false hro))

/-- A whole ingest is closed by a flash write of its image, unless an expected digest is not that of its bytes (R290, R291). -/
theorem leaves_imgClose (hb : Begins s.taken cmd 0x2A noWait) (hopen : g.closing = false) (hlen : g.bytes.length = g.length) :
    Leaves (.imgClose cmd) s
      (if (!zeroAt g.expect 0 48) = true ∧ g.expect ≠ sha384 g.bytes then refuse (setIngest b none) cmd.q.val cmd.cid 0x2A 0x0605 0
      else if s.taken.fl.readOnly = true then refuse (setIngest b none) cmd.q.val cmd.cid 0x2A 0x0601 0
      else finish (addWrite (setIngest b (some { g with closing := true })) .image cmd.q.val cmd.cid none) cmd.q.val cmd.cid 0x2A g.id 0
        [objKey 5 g.id]) := by
  subst hbegun
  refine leaves_command rfl hb ?_
  dsimp only
  rw [fl_begun, hg]
  exact (if_neg (not_not_intro hq)).trans (if_neg (by simp [hopen, hlen]))
end

/-! ## The images of the store -/

section
variable {id : Nat} {i : Image} (hi : findImage s.taken id = some i)
include hi

/-- An image that its tenant or tenant 0 deletes ceases to exist at once, and is removed by a flash write (R289). -/
theorem leaves_imgDelete (hb : Begins s.taken cmd 0x2B (naming (objKey 5 id))) (hrec : inRecovery s.taken = true → i.kind = 0)
    (hown : cmd.q.val = 0 ∨ (i.owner = cmd.q.val ∧ i.kind ≠ 0)) (hro : s.taken.fl.readOnly = false) : Leaves (.imgDelete cmd id) s
      (finish (addWrite { b with fl := { b.fl with images := mapIf (·.id == id) (fun i => { i with deleting := true }) b.fl.images } }
        (.imageDel id) cmd.q.val cmd.cid none) cmd.q.val cmd.cid 0x2B 0 0 [objKey 5 id]) := by
  subst hbegun
  refine leaves_command rfl hb ?_
  dsimp only
  rw [findImage_begun, hi]
  exact (if_neg fun ⟨h, hk⟩ => hk (hrec h)).trans ((if_neg (by omega)).trans ((if_neg (by omega)).trans (if_neg (ne_true_of_eq_false hro))))

/-- An image of weights goes into an allocation that may hold it, if its digest is that of its bytes (R231, R292). -/
theorem leaves_imgLoad {h off : Nat} {reads : List (Nat × Nat)} {a : Alloc} (hb : Begins s.taken cmd 0x2D noWait)
    (ha : findAlloc s.taken h = some a) (hown : cmd.q.val = 0 ∨ i.owner = cmd.q.val) (hkind : i.kind = 2)
    (hgrant : a.owner = i.owner ∨ (a.sharedRo = true ∧ (cmd.q.val = 0 ∨ a.owner = cmd.q.val))) (hsize : off + i.bytes.length ≤ a.size)
    (hm : mounted s.taken = true) : Leaves (.imgLoad cmd id h off false reads) s
      (if sha384 i.bytes ≠ i.digest then refuse (addReads b reads) cmd.q.val cmd.cid 0x2D 0x0608 0
      else if s.taken.fl.readOnly = true ∧ a.flashPages ≠ 0 then refuse b cmd.q.val cmd.cid 0x2D 0x0601 0
      else taking (writeAlloc (addReads b reads) a off i.bytes cmd.q.val cmd.cid none) cmd.q.val cmd.cid 0x2D 0 [objKey 1 h, objKey 5 id]
        i.version (beNat i.digest)) := by
  subst hbegun
  have hgrantB : (a.owner == i.owner || (a.sharedRo && (cmd.q.val == 0 || a.owner == cmd.q.val))) = true := by simpa using hgrant
  refine leaves_command rfl hb ?_
  dsimp only
  rw [findImage_begun, findAlloc_begun, mounted_begun, hi, ha]
  dsimp only
  refine (if_neg ?_).trans ((if_neg (ne_true_of_eq_false (congrArg (!·) hm))).trans (if_congr (by simp) rfl rfl))
  rw [hgrantB]
  rintro (⟨hq, ho⟩ | hk | hdeny | hover)
  exacts [hown.elim hq ho, hk hkind, Bool.false_ne_true hdeny, hsize.not_gt hover]
end

end

/-- Settles O31: each command's checks pass or fail as the statement says, in their order; what it writes to flash is one write of its tenant. -/
theorem imageCommands : Obligations.ImageCommands := by
  unfold Obligations.ImageCommands
  intro s cmd r off id h rec bs g i a reads m b q finished mine
  refine ⟨fun hb hlen hr hd => ⟨fun hbad => ?_, fun hgood => ?_⟩,
    fun hb hg hq hro => ⟨fun hok hr hd => ?_, fun hbad hopen => ?_⟩,
    fun hb hg hq hopen hlen => ⟨fun hz hne => ?_, fun hok hro => ?_⟩,
    fun hb hi hrec hown hro => leaves_imgDelete rfl hi hb hrec hown hro,
    fun hb hr => leaves_command rfl hb (if_neg (ne_true_of_eq_false (congrArg (!·) hr))),
    fun hb hi ha hown hkind hgrant hsize hm => ⟨fun hne => ?_, fun heq hro => ?_⟩,
    fun hb => ⟨fun hq => leaves_command rfl hb (if_pos hq), fun hq hi hro => ?_⟩,
    fun hb => ⟨fun hq => ?_, fun hq => leaves_command rfl hb (if_pos hq)⟩⟩
  · have hl := leaves_imgOpen rfl hb hlen hr hd
    rwa [if_pos hbad] at hl
  · have hl := leaves_imgOpen rfl hb hlen hr hd
    rw [if_neg (not_not_intro hgood)] at hl
    exact ⟨_, hl, rfl, rfl⟩
  · have hl := leaves_imgData (r := r) (off := off) rfl hg hq hb hro
    rw [if_neg (by simp [hok]), withRef_delivers _ _ hr hd] at hl
    exact ⟨_, hl, rfl, rfl⟩
  · have hl := leaves_imgData (r := r) (off := off) rfl hg hq hb hro
    rw [if_pos (by simp [hbad]), if_neg (ne_true_of_eq_false hopen)] at hl
    exact ⟨_, rfl, hl⟩
  · have hl := leaves_imgClose rfl hg hq hb hopen hlen
    rw [if_pos ⟨by simp [hz], hne⟩] at hl
    exact ⟨_, rfl, hl⟩
  · have hl := leaves_imgClose rfl hg hq hb hopen hlen
    rw [if_neg (by rintro ⟨hz, hne⟩; exact hok.elim (by simpa using hz) hne), if_neg (ne_true_of_eq_false hro)] at hl
    exact ⟨_, hl, rfl, rfl⟩
  · have hl := leaves_imgLoad (reads := []) rfl hi hb ha hown hkind hgrant hsize hm
    rwa [if_pos hne] at hl
  · have hl := leaves_imgLoad (reads := reads) rfl hi hb ha hown hkind hgrant hsize hm
    rwa [if_neg (not_not_intro heq), if_neg fun ⟨h, _⟩ => ne_true_of_eq_false hro h] at hl
  · exact leaves_command rfl hb ((if_neg (not_not_intro hq)).trans
      ((if_neg (ne_true_of_eq_false (congrArg (!·) hi))).trans (if_neg (ne_true_of_eq_false hro))))
  · exact leaves_command rfl hb ((if_neg (not_not_intro hq)).trans (if_neg (by decide)))

end Sys2Proof.Machine
end

section
/-!
PROOFS. Power delivery: supply measurement (R514–R518), load steps and droop (R520–R524), thermal shutdown (R531) and the comparators of VBAT
(R533–R535).
-/
namespace Sys2Proof.Machine

/-! ## Registers as numbers -/

section
variable (m : Mach) {a k : Nat}

theorem reg_setRegN_ne (v : Nat) (h : k ≠ a) : (m.setRegN a v).reg k = m.reg k := Mach.reg_setReg_ne m _ h

theorem regN_setRegN_same (a v : Nat) : (m.setRegN a v).regN a = v % 2 ^ 32 := by
  rw [Mach.regN, Mach.setRegN, Mach.reg_setReg_same, BitVec.toNat_ofNat]

theorem regN_setRegN_ne (v : Nat) (h : k ≠ a) : (m.setRegN a v).regN k = m.regN k := congrArg BitVec.toNat (reg_setRegN_ne m v h)

theorem reg_setReg64_ne (v : Nat) (h : k ≠ a) (h' : k ≠ a + 4) : (m.setReg64 a v).reg k = m.reg k := by
  rw [Mach.setReg64, reg_setRegN_ne _ _ h', reg_setRegN_ne _ _ h]

/-- Two registers that were set to a value hold its low 64 bits (R13). -/
theorem reg64_setReg64_same (a v : Nat) : (m.setReg64 a v).reg64 a = v % 2 ^ 64 := by
  rw [Mach.reg64, Mach.setReg64, regN_setRegN_same, regN_setRegN_ne _ _ (by omega), regN_setRegN_same]
  omega

theorem reg64_setRegN_ne (v : Nat) (h : k ≠ a) (h' : k + 4 ≠ a) : (m.setRegN a v).reg64 k = m.reg64 k := by
  rw [Mach.reg64, Mach.reg64, regN_setRegN_ne _ _ h, regN_setRegN_ne _ _ h']

theorem fldOf_lt (a lo n : Nat) : m.fldOf a lo n < 2 ^ n := by
  rw [Mach.fldOf, fld, bits]; exact Nat.mod_lt _ (by positivity)
end

/-! ## The supply -/

/-- The power limit is a matter of the profile and of the registers that hold its limits (R515, R529). -/
theorem pLim_congr {m x : Mach} (hstatus : x.reg rPD_STATUS = m.reg rPD_STATUS) (hdock : x.reg rPD_PLIM_DOCK = m.reg rPD_PLIM_DOCK)
    (hworn : x.reg rPD_PLIM_WORN = m.reg rPD_PLIM_WORN) (hp : x.pd.profileNext = m.pd.profileNext) : pLim x = pLim m := by
  unfold pLim docked Mach.flagOf Mach.fldOf
  rw [hstatus, hdock, hworn, hp]

/-- The current limit of a machine that has another's power limit (R514, R518). -/
theorem iLim_eq {m x : Mach} {v : Nat} (hp : pLim x = pLim m) (hv : x.regN rPD_VBAT = v) :
    iLim x = if x.pd.vresMin = true ∨ v = 0 then 3000 else min 3000 (pLim m * 1000 / v) := by
  unfold iLim
  rw [hp, hv]

theorem iLim_le (m : Mach) : iLim m ≤ 3000 := by
  unfold iLim; split <;> omega

/-- PD_ILIM_NOW shows the whole of the current limit. -/
theorem showIlim_ilimNow (m : Mach) : (showIlim m).regN rPD_ILIM_NOW = iLim m := by
  have hle := iLim_le m
  rw [showIlim, regN_setRegN_same, Nat.mod_eq_of_lt (by omega)]

theorem showIlim_regN {a : Nat} (m : Mach) (ha : a ≠ rPD_ILIM_NOW) : (showIlim m).regN a = m.regN a := regN_setRegN_ne m _ ha

/-- The machine that shows the voltages and the burst energy as they were measured (R514, R517). The energy is any number here, so that no check
of these lemmas evaluates E_BURST. -/
def supplyShown (m : Mach) (vbat vres energy : Nat) : Mach :=
  ((m.setRegN rPD_VBAT vbat).setRegN rPD_RES_VOLT vres).setRegN rPD_RES_ENERGY energy

/-- The machine once the supply was measured, before the current limit follows (R518). -/
def measured (m : Mach) (vbat vres energy : Nat) (regained : Bool) : Mach :=
  { supplyShown m vbat vres energy with pd := { (supplyShown m vbat vres energy).pd with regained } }

theorem measureSupply_eq (m : Mach) (vbat vres : Nat) : ∃ regained,
    measureSupply m vbat vres = showIlim (measured m vbat vres (eBurst m vres) regained) := by
  unfold measureSupply measured supplyShown
  exact ⟨_, rfl⟩

section
variable (m : Mach) (vbat vres energy : Nat)

theorem supplyShown_reg {a : Nat} (hvbat : a ≠ rPD_VBAT) (hvolt : a ≠ rPD_RES_VOLT) (henergy : a ≠ rPD_RES_ENERGY) :
    (supplyShown m vbat vres energy).reg a = m.reg a := by
  rw [supplyShown, reg_setRegN_ne _ _ henergy, reg_setRegN_ne _ _ hvolt, reg_setRegN_ne _ _ hvbat]

theorem supplyShown_shows : (supplyShown m vbat vres energy).regN rPD_VBAT = vbat % 2 ^ 32 ∧
    (supplyShown m vbat vres energy).regN rPD_RES_VOLT = vres % 2 ^ 32 ∧
    (supplyShown m vbat vres energy).regN rPD_RES_ENERGY = energy % 2 ^ 32 := by
  unfold supplyShown
  refine ⟨?_, ?_, regN_setRegN_same ..⟩
  · rw [regN_setRegN_ne _ _ (by decide), regN_setRegN_ne _ _ (by decide), regN_setRegN_same]
  · rw [regN_setRegN_ne _ _ (by decide), regN_setRegN_same]

theorem supplyShown_frame : (supplyShown m vbat vres energy).pd = m.pd ∧ (supplyShown m vbat vres energy).tk = m.tk ∧
    (supplyShown m vbat vres energy).pm = m.pm ∧ (supplyShown m vbat vres energy).st = m.st := by
  simp [supplyShown]

variable (regained : Bool)

theorem measured_reg (a : Nat) : (measured m vbat vres energy regained).reg a = (supplyShown m vbat vres energy).reg a := Mach.reg_of_regs rfl a

theorem measured_pd : (measured m vbat vres energy regained).pd = { m.pd with regained } := by
  rw [measured, (supplyShown_frame m vbat vres energy).1]

theorem pLim_measured : pLim (measured m vbat vres energy regained) = pLim m := by
  refine pLim_congr ?_ ?_ ?_ (by rw [measured_pd])
  all_goals
    rw [measured_reg]
    exact supplyShown_reg m vbat vres energy (by decide) (by decide) (by decide)

/-- What was measured is shown, and the current limit follows it (R514, R518). -/
theorem showIlim_measured {x : Mach} (hx : x = showIlim (measured m vbat vres energy regained)) : x.regN rPD_VBAT = vbat % 2 ^ 32 ∧
    x.regN rPD_RES_VOLT = vres % 2 ^ 32 ∧ x.regN rPD_RES_ENERGY = energy % 2 ^ 32 ∧
    x.regN rPD_ILIM_NOW = (if m.pd.vresMin = true ∨ vbat % 2 ^ 32 = 0 then 3000 else min 3000 (pLim m * 1000 / (vbat % 2 ^ 32))) ∧
    x.tk = m.tk ∧ x.pm = m.pm ∧ x.st = m.st := by
  subst hx
  obtain ⟨hvbat, hvolt, henergy⟩ := supplyShown_shows m vbat vres energy
  obtain ⟨-, hframe⟩ := supplyShown_frame m vbat vres energy
  have hregN (a : Nat) : (measured m vbat vres energy regained).regN a = (supplyShown m vbat vres energy).regN a :=
    congrArg BitVec.toNat (measured_reg ..)
  refine ⟨?_, ?_, ?_, ?_, hframe⟩
  · rwa [showIlim_regN _ (by decide), hregN]
  · rwa [showIlim_regN _ (by decide), hregN]
  · rwa [showIlim_regN _ (by decide), hregN]
  · rw [showIlim_ilimNow, iLim_eq (pLim_measured ..) ((hregN _).trans hvbat), measured_pd]
end

/-- What a reservoir at its lowest voltage shows until the seam (R518). -/
def vResMin (m : Mach) : Mach := { (m.setRegN rPD_RES_VOLT 2900).setRegN rPD_RES_ENERGY 0 with pd := { m.pd with vresMin := true } }

theorem vResMin_reg (m : Mach) (a : Nat) : (vResMin m).reg a = ((m.setRegN rPD_RES_VOLT 2900).setRegN rPD_RES_ENERGY 0).reg a :=
  Mach.reg_of_regs rfl a

/-- Nothing stops the input switch from drawing 3.0 A (R518). -/
theorem showIlim_vResMin (m : Mach) : (showIlim (vResMin m)).regN rPD_RES_VOLT = 2900 ∧ (showIlim (vResMin m)).regN rPD_RES_ENERGY = 0 ∧
    (showIlim (vResMin m)).regN rPD_ILIM_NOW = 3000 ∧ (showIlim (vResMin m)).pd = { m.pd with vresMin := true } ∧
    (showIlim (vResMin m)).tk = m.tk := by
  refine ⟨?_, ?_, ?_, by simp [showIlim, vResMin], by simp [showIlim, vResMin]⟩
  · rw [showIlim_regN _ (by decide), Mach.regN, vResMin_reg, reg_setRegN_ne _ _ (by decide)]
    exact regN_setRegN_same ..
  · rw [showIlim_regN _ (by decide), Mach.regN, vResMin_reg]
    exact regN_setRegN_same ..
  · rw [showIlim_ilimNow]
    exact if_pos (.inl rfl)

/-! ## Load steps and droop -/

/-- The next cycle to stretch, by the last one (R521). -/
theorem nextStretch_eq (m : Mach) (c : Nat) : nextStretch m c = if m.tk.lastStretch = none then some (max 63 (c + 1))
    else if c < m.tk.lastStretch.getD 0 then none else some (max (m.tk.lastStretch.getD 0 + 64) (c + 1)) := by
  unfold nextStretch
  cases m.tk.lastStretch <;> rfl

/-- The machine once it has stretched cycle `k`. -/
def stretched (m : Mach) (k : Nat) : Mach :=
  let x : Mach := { m with tk := { m.tk with stretched := m.tk.stretched + 1, lastStretch := some k } }
  ((x.setRegN rPD_STRETCH_COUNT (x.regN rPD_STRETCH_COUNT + 1)).setReg64 rPD_STRETCH_TICK_LO x.clk.tick).setFlagOf rPD_STATUS 7 true

theorem stretched_count (m : Mach) (k : Nat) : (stretched m k).regN rPD_STRETCH_COUNT = (m.regN rPD_STRETCH_COUNT + 1) % 2 ^ 32 := by
  rw [stretched, Mach.regN, reg_setFlagOf_ne _ (by decide), reg_setReg64_ne _ _ (by decide) (by decide)]
  exact regN_setRegN_same ..

theorem stretched_frame (m : Mach) (k : Nat) : (stretched m k).clk = m.clk ∧
    (stretched m k).tk = { m.tk with stretched := m.tk.stretched + 1, lastStretch := some k } ∧ (stretched m k).st = m.st ∧
    (stretched m k).ef = m.ef := by
  simp [stretched]

/-- Droop and undervolt are watched only while the quay clock runs with a quadrant on (R521, R523). -/
theorem not_quadRuns_iff (m : Mach) : ¬(m.clk.refStopped = false ∧ quadOn m = true) ↔ (!quadOn m) = true ∨ m.clk.refStopped = true := by
  simp only [not_and_or, Bool.not_eq_false, Bool.not_eq_true, Bool.not_eq_true', or_comm]

/-- A droop stretches a cycle where the quay clock runs with a quadrant on, and no cycle is stretched already (R521). -/
theorem leaves_droopStretch (s : State) (v c : Nat) : Leaves (.droopStretch v c) s
    (if ¬(s.taken.clk.refStopped = false ∧ quadOn s.taken = true) ∨ 2 * plVolt (curPl s.taken) ≤ v + 60 then s.taken
    else (nextStretch s.taken c).elim (advanceTo s.taken (quayTime s.taken c)) (stretched (advanceTo s.taken (quayTime s.taken c)))) := by
  refine leaves_effect rfl (if_congr (or_assoc.symm.trans (or_congr_left (not_quadRuns_iff s.taken).symm)) rfl ?_)
  dsimp only
  rw [show nextStretch (advanceTo s.taken (quayTime s.taken c)) c = nextStretch s.taken c from rfl]
  cases nextStretch s.taken c <;> rfl

/-- A sample below a rail's record replaces it, with the time of its taking (R524). -/
def recorded (m : Mach) (r v : Nat) : Mach :=
  let x := (m.setFldOf (rPD_DROOP_MIN r) 0 12 v).setReg64 (rPD_DROOP_TICK_LO r) m.clk.tick
  x.setRegN (rPD_DROOP_CYCLE r) (quayNow x)

/-- The words of a rail's record follow each other. -/
theorem droopRecord_words (r : Nat) : rPD_DROOP_TICK_LO r = rPD_DROOP_MIN r + 4 ∧ rPD_DROOP_CYCLE r = rPD_DROOP_MIN r + 12 := by
  unfold rPD_DROOP_TICK_LO rPD_DROOP_CYCLE rPD_DROOP_MIN
  omega

theorem recorded_min (m : Mach) (r : Nat) {v : Nat} (hv : v < 2 ^ 12) : (recorded m r v).fldOf (rPD_DROOP_MIN r) 0 12 = v := by
  obtain ⟨htick, hcycle⟩ := droopRecord_words r
  rw [recorded, Mach.fldOf, reg_setRegN_ne _ _ (by omega), reg_setReg64_ne _ _ (by omega) (by omega)]
  exact (fldOf_setFldOf_same _ _ _ (by decide)).trans (Nat.mod_eq_of_lt hv)

theorem recorded_tick (m : Mach) (r v : Nat) : (recorded m r v).reg64 (rPD_DROOP_TICK_LO r) = m.clk.tick % 2 ^ 64 := by
  obtain ⟨htick, hcycle⟩ := droopRecord_words r
  rw [recorded, reg64_setRegN_ne _ _ (by omega) (by omega), reg64_setReg64_same]

theorem recorded_frame (m : Mach) (r v : Nat) : (recorded m r v).ef = m.ef ∧ (recorded m r v).clk = m.clk ∧ (recorded m r v).tk = m.tk := by
  simp [recorded]

/-! ## The events -/

/-- Settles O47: each event does what the model's operation says, or nothing, as its condition says. -/
theorem deliveryEvents : Obligations.DeliveryEvents := by
  unfold Obligations.DeliveryEvents
  intro s vbat vres v c r m want margin held last next runs
  have hruns : ¬runs ↔ (!quadOn m) = true ∨ m.clk.refStopped = true := not_quadRuns_iff m
  have hdroop := leaves_droopStretch s v c
  refine ⟨?_, fun h => leaves_effect rfl (if_pos h), fun h => leaves_effect rfl (if_neg h), ?_,
    fun h => leaves_effect rfl (if_pos h), fun h => leaves_effect rfl (if_neg h.not_gt),
    fun h => leaves_effect rfl (if_pos h), fun h => leaves_effect rfl (if_neg h.not_gt),
    fun h => by rwa [if_pos h] at hdroop, fun hr hv hn => ?_, fun hr hv k hk => ?_,
    fun hr => leaves_effect rfl (if_pos (hruns.1 hr)), fun hr => leaves_effect rfl (if_neg (mt hruns.2 (not_not_intro hr))),
    fun h => leaves_effect rfl (if_pos h), fun h => ?_,
    fun h => leaves_effect rfl (if_pos h), fun h => leaves_effect rfl (if_neg (ne_true_of_eq_false h)),
    fun h => leaves_effect rfl (if_pos h), fun h => leaves_effect rfl (if_neg (ne_true_of_eq_false h)),
    leaves_effect rfl rfl,
    fun h => ⟨leaves_effect rfl (if_pos h), leaves_effect rfl (if_pos h)⟩,
    fun h => ⟨leaves_effect rfl (if_neg (ne_true_of_eq_false h)), leaves_effect rfl (if_neg (ne_true_of_eq_false h))⟩,
    fun h => leaves_effect rfl (if_pos h), fun h => leaves_effect rfl (if_neg (ne_true_of_eq_false h)), leaves_effect rfl rfl⟩
  · obtain ⟨regained, hx⟩ := measureSupply_eq m vbat vres
    exact ⟨_, leaves_effect rfl rfl, showIlim_measured m vbat vres (eBurst m vres) regained hx⟩
  · exact ⟨_, leaves_effect rfl rfl, showIlim_vResMin m⟩
  · rwa [if_neg (not_or.2 ⟨not_not_intro hr, hv.not_ge⟩), (nextStretch_eq m c).trans hn] at hdroop
  · rw [if_neg (not_or.2 ⟨not_not_intro hr, hv.not_ge⟩), (nextStretch_eq m c).trans hk] at hdroop
    obtain ⟨hclk, htk, hst, hef⟩ := stretched_frame held k
    exact ⟨_, hdroop, hclk, htk, stretched_count held k, flagOf_setFlagOf_same _ _ _ (by decide), hst, hef⟩
  · have hmin := fldOf_lt m (rPD_DROOP_MIN r.val) 0 12
    exact ⟨_, leaves_effect rfl (if_neg h.not_ge), recorded_min m r.val (h.trans hmin), recorded_tick m r.val v, recorded_frame m r.val v⟩

end Sys2Proof.Machine
end

section
/-!
PROOFS. The cascade commands (R312–R316).
-/
namespace Sys2Proof.Machine

/-! ## Whose command it is -/

section
variable {m : Mach} {cmd : CmdCtx} {t : Nat} (op : Nat) (f : Casc → Mach)

/-- Another tenant's command on a cascade is refused (R551). -/
theorem casCommand_denied (hown : ¬(cmd.q.val = 0 ∨ cmd.q.val = t)) : casCommand m cmd op t f = refuse m cmd.q.val cmd.cid op 0x0D01 0 :=
  if_pos (not_or.1 hown)

/-- A command of tenant 0 or of the cascade's own tenant acts on the cascade (R312). -/
theorem casCommand_acts {c : Casc} (hown : cmd.q.val = 0 ∨ cmd.q.val = t) (hc : cascOf m t = some c) : casCommand m cmd op t f = f c := by
  rw [casCommand, if_neg (not_and_or.2 (hown.imp not_not_intro not_not_intro)), hc]
end

/-! ## The commands -/

/-- The reason to reject a descriptor does not depend on the commands under way. -/
theorem cascadeReason_begun (m : Mach) (cmd : CmdCtx) (t : Nat) (d : List Byte) : cascadeReason (begun m cmd) t d = cascadeReason m t d := rfl

/-- A command that takes time changes no cascade and no run. -/
theorem running_cas (m : Mach) (q cid op w : Nat) (c : Option Cpl) (objs : List Nat) (lo hi : Nat) :
    (running m q cid op w c objs lo hi).cas = m.cas := by
  obtain ⟨hs, h⟩ := running_eq m q cid op w c objs lo hi
  rw [h]

theorem running_st (m : Mach) (q cid op w : Nat) (c : Option Cpl) (objs : List Nat) (lo hi : Nat) :
    (running m q cid op w c objs lo hi).st = m.st := by
  obtain ⟨hs, h⟩ := running_eq m q cid op w c objs lo hi
  rw [h]

/-- The machine with a new cascade, whose counts and confidences start again (R312, R338). -/
def casCreated (m : Mach) (t : Nat) (d : List Byte) : Mach :=
  let listed := ({ m with cas := m.cas ++ [descCascade t d] } : Mach)
  let counted := (listed.setRegN (rBR_CAS_COMMITS t) 0).setRegN (rBR_CAS_DROPS t) 0
  ((counted.setRegN (rBR_CAS_CONF01 t) 0).setRegN (rBR_CAS_CONF23 t) 0).setRegN (rBR_CAS_CONF45 t) 0

/-- The counts of a tenant's cascades and its confidences are registers of their own. -/
theorem casCounts_ne : ∀ t : Fin 64, rBR_CAS_COMMITS t.val ≠ rBR_CAS_DROPS t.val ∧
    ∀ a ∈ [rBR_CAS_CONF01 t.val, rBR_CAS_CONF23 t.val, rBR_CAS_CONF45 t.val], rBR_CAS_COMMITS t.val ≠ a ∧ rBR_CAS_DROPS t.val ≠ a := by
  decide

theorem casCreated_counts (m : Mach) (t : Fin 64) (d : List Byte) :
    (casCreated m t.val d).regN (rBR_CAS_COMMITS t.val) = 0 ∧ (casCreated m t.val d).regN (rBR_CAS_DROPS t.val) = 0 := by
  obtain ⟨hdrops, hconf⟩ := casCounts_ne t
  simp only [List.forall_mem_cons] at hconf
  obtain ⟨⟨hc01, hd01⟩, ⟨hc23, hd23⟩, ⟨hc45, hd45⟩, -⟩ := hconf
  unfold casCreated
  refine ⟨?_, ?_⟩
  · rw [regN_setRegN_ne _ _ hc45, regN_setRegN_ne _ _ hc23, regN_setRegN_ne _ _ hc01, regN_setRegN_ne _ _ hdrops, regN_setRegN_same]
    rfl
  · rw [regN_setRegN_ne _ _ hd45, regN_setRegN_ne _ _ hd23, regN_setRegN_ne _ _ hd01, regN_setRegN_same]
    rfl

section
variable {s : State} {cmd : CmdCtx} {b : Mach} (hbegun : b = begun s.taken cmd)
include hbegun

/-- A descriptor creates its cascade unless R314 rejects it. -/
theorem leaves_casCreate {r : BufRef} {d : List Byte} (hb : Begins s.taken cmd 0x30 noWait) (hr : refOk s.taken cmd.q.val r false = true)
    (hd : readRef s.taken cmd.q.val r = .ok d) : Leaves (.casCreate cmd r) s
      (if cascadeReason s.taken cmd.q.val d ≠ 0 then refuse b cmd.q.val cmd.cid 0x30 0x0701 (cascadeReason s.taken cmd.q.val d)
      else complete (casCreated b cmd.q.val d) cmd.q.val cmd.cid 0x30 0 0 0) := by
  subst hbegun
  refine leaves_command rfl hb ?_
  dsimp only
  rw [withRef_delivers _ _ hr hd, cascadeReason_begun]
  rfl

/-- Another tenant may not arm a cascade (R551). -/
theorem leaves_casArm_denied {t : Fin 64} (hb : Begins s.taken cmd 0x31 noWait) (hown : ¬(cmd.q.val = 0 ∨ cmd.q.val = t.val)) :
    Leaves (.casArm cmd t) s (refuse b cmd.q.val cmd.cid 0x31 0x0D01 0) := by
  subst hbegun
  exact leaves_command rfl hb (casCommand_denied _ _ hown)

section
variable {t : Fin 64} {c : Casc} (hc : cascOf s.taken t.val = some c) (hown : cmd.q.val = 0 ∨ cmd.q.val = t.val)
include hc hown

/-- A cascade that is not armed is armed while the armed ones name at most 16 bonds (R315). -/
theorem leaves_casArm (hb : Begins s.taken cmd 0x31 noWait) : Leaves (.casArm cmd t) s
    (if c.armed = true then complete b cmd.q.val cmd.cid 0x31 0 0 0
    else if 16 < bondArmed s.taken + c.max then refuse b cmd.q.val cmd.cid 0x31 0x0702 0
    else complete (armNow b c) cmd.q.val cmd.cid 0x31 0 0 0) := by
  subst hbegun
  exact leaves_command rfl hb (casCommand_acts _ _ hown hc)

/-- An armed cascade is disarmed, at once or at the end of the flip under way (R315, R674). -/
theorem leaves_casDisarm (hb : Begins s.taken cmd 0x32 (naming (objKey 6 t.val))) : Leaves (.casDisarm cmd t) s
    (if (!c.armed) = true then complete b cmd.q.val cmd.cid 0x32 0 0 0
    else if c.bonds.any (·.st == 2) = true then
      running (putCasc b { c with disarming := true }) cmd.q.val cmd.cid 0x32 3 (some ⟨cmd.q.val, cmd.cid, 0x32, 0, 0, 0, 0⟩) [objKey 6 t.val] 0 0
    else complete (disarmNow b t.val) cmd.q.val cmd.cid 0x32 0 0 0) := by
  subst hbegun
  exact leaves_command rfl hb (casCommand_acts _ _ hown hc)

/-- A cascade that is disarmed and that no table names is destroyed (R316). -/
theorem leaves_casDestroy (hb : Begins s.taken cmd 0x33 (naming (objKey 6 t.val))) : Leaves (.casDestroy cmd t) s
    (if c.armed = true ∨ cascadeNamed s.taken t.val = true then refuse b cmd.q.val cmd.cid 0x33 0x0703 0
    else complete { b with cas := b.cas.filter (·.tenant != t.val) } cmd.q.val cmd.cid 0x33 0 0 0) := by
  subst hbegun
  exact leaves_command rfl hb (casCommand_acts _ _ hown hc)
end

end

/-- Settles O32: each command's checks pass or fail as the statement says, in their order. -/
theorem cascadeCommands : Obligations.CascadeCommands := by
  unfold Obligations.CascadeCommands
  intro s cmd r t d c m b q mine
  refine ⟨fun hb hr hd => ⟨fun hbad => ?_, fun hok => ?_⟩,
    fun hb hc => ⟨fun hown => leaves_casArm_denied rfl hb hown, fun hown ha => ?_, fun hown ha hfull => ?_, fun hown ha hroom => ?_⟩,
    fun hb hc hown => ⟨fun ha => ?_, fun ha hflip => ?_, fun ha hflip => ?_⟩,
    fun hb hc hown => ⟨fun hused => ?_, fun ha hn => ?_⟩⟩
  · have hl := leaves_casCreate rfl hb hr hd
    rwa [if_pos hbad] at hl
  · have hl := leaves_casCreate rfl hb hr hd
    rw [if_neg (not_not_intro hok)] at hl
    obtain ⟨hcommits, hdrops⟩ := casCreated_counts b cmd.q d
    exact ⟨_, hl, rfl, hcommits, hdrops, rfl, rfl⟩
  · have hl := leaves_casArm rfl hc hown hb
    rwa [if_pos ha] at hl
  · have hl := leaves_casArm rfl hc hown hb
    rwa [if_neg (ne_true_of_eq_false ha), if_pos hfull] at hl
  · have hl := leaves_casArm rfl hc hown hb
    rwa [if_neg (ne_true_of_eq_false ha), if_neg hroom.not_gt] at hl
  · have hl := leaves_casDisarm rfl hc hown hb
    rwa [if_pos (by simp [ha])] at hl
  · have hl := leaves_casDisarm rfl hc hown hb
    rwa [if_neg (by simp [ha]), if_neg (ne_true_of_eq_false hflip)] at hl
  · have hl := leaves_casDisarm rfl hc hown hb
    rw [if_neg (by simp [ha]), if_pos hflip] at hl
    exact ⟨_, hl, running_cas .., running_st ..⟩
  · have hl := leaves_casDestroy rfl hc hown hb
    rwa [if_pos hused] at hl
  · have hl := leaves_casDestroy rfl hc hown hb
    rwa [if_neg (not_or.2 ⟨ne_true_of_eq_false ha, ne_true_of_eq_false hn⟩)] at hl

end Sys2Proof.Machine
end

section
/-!
PROOFS. The messages and timers of the fabric (R337, R614–R619, R623, R625, R626, R630, R633–R638).
-/
namespace Sys2Proof.Machine

/-! ## A message is taken -/

section
variable {i : Instr} {s : State} {p : Msg → Bool} {g : Msg → Mach → Mach}
variable (hi : exec i s = s.effect (fun m => match takeMsg m p with | none => m | some (x, m) => g x m))
include hi

/-- Where no message waits for it, a row of messages changes nothing. -/
theorem leaves_noMessage (h : takeMsg s.taken p = none) : Leaves i s s.taken := leaves_effect hi (by rw [h])

/-- A row of messages acts on the oldest message that waits for it, once that is taken. -/
theorem leaves_message {x : Msg} {y M : Mach} (h : takeMsg s.taken p = some (x, y)) (hM : g x y = M) : Leaves i s M :=
  leaves_effect hi (by rw [h]; exact hM)
end

/-! ## The TOPO messages that a node holds -/

/-- The TOPO messages that the node holds (R617). -/
def Mach.topos (m : Mach) : List Topo := m.ch.topos

@[simp] theorem Mach.topos_mk (a b c d e f g h i j k l n o p q r s t ch u v) :
    (Mach.mk a b c d e f g h i j k l n o p q r s t ch u v).topos = ch.topos := (rfl)

@[simp] theorem Mach.topos_ch (m : Mach) : m.ch.topos = m.topos := (rfl)

@[simp] theorem topos_ite (c : Prop) [Decidable c] (a b : Mach) : (if c then a else b).topos = if c then a.topos else b.topos := apply_ite ..

/-- What each step of a fold keeps, the fold keeps. -/
@[simp] theorem topos_foldl {α : Type} (f : Mach → α → Mach) (hf : ∀ m x, (f m x).topos = m.topos) (l : List α) (m : Mach) :
    (l.foldl f m).topos = m.topos := by
  induction l generalizing m with
  | nil => rfl
  | cons x l ih => exact (ih _).trans (hf m x)

section
variable (m : Mach)

@[simp] theorem Mach.setFldOf_topos (a lo n v) : (m.setFldOf a lo n v).topos = m.topos := (rfl)
@[simp] theorem Mach.setFlagOf_topos (a i b) : (m.setFlagOf a i b).topos = m.topos := (rfl)
@[simp] theorem Mach.emit_topos (o) : (m.emit o).topos = m.topos := (rfl)
@[simp] theorem raiseD_topos (c i) : (raiseD m c i).topos = m.topos := (rfl)
@[simp] theorem setPort_topos (p c) : (setPort m p c).topos = m.topos := (rfl)
@[simp] theorem sendAck_topos (p nak) : (sendAck m p nak).topos = m.topos := (rfl)
@[simp] theorem freeBuf_topos (p cls) : (freeBuf m p cls).topos = m.topos := by simp [freeBuf]
@[simp] theorem enqueue_topos (p f) : (enqueue m p f).topos = m.topos := by simp [enqueue]

@[simp] theorem pumpPort_topos (p n) : (pumpPort p n m).topos = m.topos := by
  induction n generalizing m with
  | zero => rfl
  | succ n ih =>
    unfold pumpPort; dsimp only; split
    · rfl
    · split
      · rfl
      · simp [ih]

@[simp] theorem pumpPorts_topos : (pumpPorts m).topos = m.topos := by simp [pumpPorts]
@[simp] theorem sendLink_topos (p code data) : (sendLink m p code data).topos = m.topos := by simp [sendLink]
@[simp] theorem flood_topos (but code data) : (flood m but code data).topos = m.topos := by simp [flood]
@[simp] theorem setLead_topos : (setLead m).topos = m.topos := (rfl)
@[simp] theorem noteLost_topos (uid cause) : (noteLost m uid cause).topos = m.topos := by simp [noteLost]
@[simp] theorem aloneRegs_topos : (aloneRegs m).topos = m.topos := by simp [aloneRegs]
@[simp] theorem fallOut_topos : (fallOut m).topos = m.topos := by simp [fallOut]

/-- What a node makes of the topology that it holds is not part of it (R618–R620, R628, R641). -/
@[simp] theorem followTopology_topos : (followTopology m).topos = m.topos := by simp [followTopology]

/-- A node that sends TOPO renews its own (R617). -/
theorem sendTopo_topos : (sendTopo m).topos =
    m.topos.filter (·.uid != selfUid) ++ [readTopo (topoData m ((m.ch.topoSeq + 1) % 65536))] := by simp [sendTopo]

variable {m}

theorem topoOf_congr {n : Mach} (h : n.topos = m.topos) (uid : Nat) : topoOf n uid = topoOf m uid := congrArg (List.find? _) h

/-- The TOPO that the node has taken in is the one it holds of its sender. -/
theorem find?_filter_append_self (l : List Topo) (t : Topo) : (l.filter (·.uid != t.uid) ++ [t]).find? (·.uid == t.uid) = some t := by
  rw [List.find?_append, List.find?_eq_none.2 (by simp), Option.none_or, List.find?_singleton, if_pos (by simp)]

/-- The node's own TOPO replaces no other node's. -/
theorem topoOf_sendTopo {uid : Nat} {t : Topo} (hu : uid ≠ selfUid) (ht : topoOf m uid = some t) : topoOf (sendTopo m) uid = some t := by
  have hkept : (m.topos.filter (·.uid != selfUid)).find? (·.uid == uid) = some t := by
    rw [List.find?_filter]
    refine Eq.trans (congrArg (List.find? · m.topos) (funext fun o => ?_)) ht
    by_cases h : o.uid = uid <;> simp [h, hu]
  rw [topoOf, Mach.topos_ch, sendTopo_topos, List.find?_append, hkept, Option.some_or]
end

/-- The node holds another node's TOPO in place of the one that it held of it (R617). -/
def topoHeld (m : Mach) (t : Topo) : Mach := { m with ch := { m.ch with topos := m.ch.topos.filter (·.uid != t.uid) ++ [t] } }

/-- The node follows the topology that it holds, and falls out of step with a leader of another TICK_PERIOD (R618, R628). -/
def topoFollowed (m : Mach) : Mach :=
  let led := followTopology m
  if periodDiffers led ∧ !outOfStep led then fallOut led else led

@[simp] theorem topoFollowed_topos (m : Mach) : (topoFollowed m).topos = m.topos := by simp [topoFollowed]

/-- The node takes another node's TOPO in, and sends TOPO itself where it fell out of step (R617, R628). -/
def topoTaken (m : Mach) (t : Topo) : Mach :=
  let m' := topoFollowed (topoHeld m t)
  if outOfStep m' ∧ !outOfStep (topoHeld m t) then sendTopo m' else m'

/-- The node then holds that TOPO of its sender. -/
theorem topoOf_topoTaken (m : Mach) {t : Topo} (ht : t.uid ≠ selfUid) : topoOf (topoTaken m t) t.uid = some t := by
  have hfollowed : topoOf (topoFollowed (topoHeld m t)) t.uid = some t :=
    (topoOf_congr (topoFollowed_topos _) _).trans (find?_filter_append_self m.ch.topos t)
  unfold topoTaken
  dsimp only; split
  · exact topoOf_sendTopo ht hfollowed
  · exact hfollowed

/-- A TOPO is dropped where it is the node's own or not newer than the one held of its sender, and is passed on otherwise (R614, R617). -/
theorem leaves_topo {s : State} {x : Msg} {y : Mach} (h : takeMsg s.taken (ctrlMsg 8) = some (x, y)) : Leaves .topo s
    (if (readTopo x.data).uid = selfUid ∨ (topoOf y (readTopo x.data).uid).any (fun o => !newer16 (readTopo x.data).seq o.seq) = true then y
    else flood (topoTaken y (readTopo x.data)) x.port 8 (readTopo x.data).data) :=
  leaves_message rfl h rfl

/-! ## The assignment of a leader -/

/-- The assignment that a leader makes for some nodes of the topology it holds (R619). -/
def newAssign (m : Mach) (uids : List Nat) : Assign :=
  let mask := fun (f : Topo → Bool) => maskOf ((uids.zipIdx.filter (fun e => (topoOf m e.1).any f)).map (·.2))
  let same := fun (t : Topo) =>
    (topoOf m selfUid).any (fun o => byteFld o.data 20 4 == byteFld t.data 20 4 && byteFld o.data 18 1 == byteFld t.data 18 1)
  { leader := selfUid, gen := ((if m.ch.lastAssignLeader = selfUid then m.ch.lastGen else 0) + 1) % 65536, swap := (fabricTick m + 16) % 2 ^ 48,
    period := m.regN rTK_PERIOD, transport := mask (fun t => !same t), outStep := mask (fun t => nodeOut m t.uid), digest := topoDigest m, uids }

/-- The leader notes and acts on its assignment (R619). -/
def assigned (m : Mach) (uids : List Nat) : Mach :=
  actOnAssign { m with ch := { m.ch with lastGen := (newAssign m uids).gen, lastAssignLeader := selfUid, lastDigest := contentDigest m } } (newAssign m uids)

/-- The leader of a topology that differs from that of its last assignment makes one once the topology has stood for its time (R619). -/
theorem leaves_assignTimer (s : State) : Leaves .assignTimer s
    (if (!isLeader s.taken) = true ∨ (connectedSet s.taken).length ≤ 1 ∨ contentDigest s.taken = s.taken.ch.lastDigest then s.taken
    else flood (assigned (advanceTo s.taken (s.taken.ch.topoAt + 3840)) ((connectedSet s.taken).take 64)) 4 9
      (assignData (newAssign (advanceTo s.taken (s.taken.ch.topoAt + 3840)) ((connectedSet s.taken).take 64)))) :=
  leaves_effect rfl rfl

/-- An ASSIGN is dropped where it is not newer than the last of its leader, and is passed on otherwise (R614, R619). -/
theorem leaves_assign {s : State} {x : Msg} {y : Mach} {a : Assign} (ha : a = readAssign x.data) (h : takeMsg s.taken (ctrlMsg 9) = some (x, y)) :
    Leaves .assign s (if a.leader = y.ch.lastAssignLeader ∧ (!newer16 a.gen y.ch.lastGen) = true then y
      else flood (actOnAssign { y with ch := { y.ch with lastGen := a.gen, lastAssignLeader := a.leader } } a) x.port 9 x.data) := by
  subst ha
  exact leaves_message rfl h rfl

/-! ## Time, reductions and peer streams -/

/-- SYNC_REQ is answered with the stamps of its arrival and of the answer's departure (R625). -/
theorem leaves_syncReq {s : State} {f2 f3 : Fin 64} {x : Msg} {y : Mach} (h : takeMsg s.taken (ctrlMsg 3) = some (x, y)) {t2 t3 : Int}
    (ht2 : t2 = ftime16 y x.at' + (f2.val * 1024 : Nat)) (ht3 : t3 = ftime16 y y.clk.now + (f3.val * 1024 : Nat)) :
    Leaves (.syncReq f2 f3) s (sendLink y x.port 4 (slice (stampBytes t2 ++ stampBytes t3) 0 64)) := by
  subst ht2 ht3
  exact leaves_message rfl h (by with_reducible rfl)

/-- A SEND transfer lands in the record that waits for it (R630). -/
theorem leaves_sendTransfer {s : State} {x : Msg} {y : Mach} {w : WaitRec}
    (h : takeMsg s.taken (fun x => x.typ == 1 && (sendRec s.taken x).any (fun w => ((tdesc w.dst).berths 0 &&& heldBerths s.taken) == 0)) = some (x, y))
    (hw : sendRec y x = some w) : Leaves .sendTransfer s (placeData y w x.data) := by
  refine leaves_effect rfl ?_
  rw [h]; dsimp only
  rw [hw]

section
variable {s : State} {x : Msg} {y : Mach} (h : takeMsg s.taken (fun x => x.typ == 2) = some (x, y))
include h

/-- A partial that no group of an active job asks for is dropped (R633). -/
theorem leaves_redUp_unasked (ha : (jobOf y x.ten).bind (fun j => (j.group x.chan).map (fun g => (j, g))) = none) : Leaves .redUp s y :=
  leaves_message rfl h (by rw [ha])

/-- A partial of one of the group's shards arrives at the group's home alone (R633). -/
theorem leaves_redUp {j : Job} {g : JGroup} (ha : (jobOf y x.ten).bind (fun j => (j.group x.chan).map (fun g => (j, g))) = some (j, g)) :
    Leaves .redUp s (if g.home = selfId y ∧ bit g.shards x.shard = true then
      partialArrives y j g (partsOf y x.ten x.chan (parityTick y x.tp)) x.shard x.at' x.data else y) :=
  leaves_message rfl h (by rw [ha])
end

/-- A PEER transfer is delivered into the contexts whose channel is open and names its node, channel and tenant (R638). -/
theorem mem_peerContexts (y : Mach) (x : Msg) (n : Nat) : n ∈ peerContexts y x ↔ n < 48 ∧ strKind y n = 5 ∧
    streamGranted y (strOwner y n) 5 (strSource y n) = true ∧ strSource y n < 48 ∧ y.flagOf (rCH_PEER_IN (strSource y n)) 0 = true ∧
    y.fldOf (rCH_PEER_IN (strSource y n)) 8 6 = x.src ∧ y.fldOf (rCH_PEER_IN (strSource y n)) 16 6 = x.chan ∧
    y.fldOf (rCH_PEER_IN (strSource y n)) 24 6 = x.ten := by
  simp only [peerContexts, List.mem_filter, List.mem_range, List.contains_iff_mem, Bool.and_eq_true, beq_iff_eq, Mach.flagOf, Mach.fldOf]
  tauto

/-- Settles O50: a row without its message changes nothing; each of the others acts as the model's operation says, in the case that holds. -/
theorem fabricMessages : Obligations.FabricMessages := by
  unfold Obligations.FabricMessages
  intro s f2 f3 x y w j g t1 at' P m got topo stale a old t2 t3 sent back up down heard hops landable tick asked known res noted chosen recs placed ofTick
    past waits acted word
  refine ⟨leaves_noMessage rfl, fun h => leaves_message rfl h rfl,
    leaves_noMessage rfl, fun h => leaves_message rfl h rfl,
    leaves_noMessage rfl, fun h hstale => ?_, fun h hnew => ⟨topoTaken y topo, ?_, topoOf_topoTaken y fun hself => hnew (.inl hself)⟩,
    fun h => leaves_effect rfl (if_pos h), fun h => leaves_effect rfl (if_neg h.not_gt),
    fun h => ?_, fun hlead hmany hnew => ?_,
    leaves_noMessage rfl, fun h hold => ?_, fun h hnew => ?_,
    fun h => leaves_effect rfl (by rw [h]), fun h => leaves_effect rfl (by rw [h]),
    leaves_noMessage rfl, fun h => leaves_syncReq h rfl rfl,
    leaves_noMessage rfl, fun h hsent => leaves_message rfl h (by rw [hsent]), fun h hsent => leaves_message rfl h (by rw [hsent]),
    fun h => leaves_effect rfl (by rw [h]), leaves_sendTransfer,
    leaves_noMessage rfl, leaves_redUp_unasked, fun h ha hother => ?_, fun h ha hhome hshard => ?_,
    fun h => leaves_effect rfl (by rw [h]), fun h => leaves_effect rfl (by rw [h]),
    leaves_noMessage rfl, fun h hj => leaves_message rfl h (by rw [hj]), fun h hj hk => leaves_message rfl h (by rw [hj]; exact if_pos hk),
    fun h hj hk => leaves_message rfl h (by rw [hj]; exact if_neg hk),
    leaves_noMessage rfl, fun h => leaves_message rfl h rfl,
    leaves_noMessage rfl, fun h => leaves_message rfl h rfl,
    leaves_noMessage rfl, fun h hw => leaves_message rfl h (if_pos hw),
    fun h hw hon => leaves_message rfl h ((if_neg hw).trans (if_pos hon)), fun h hw hlate => leaves_message rfl h ((if_neg hw).trans (if_neg hlate)),
    leaves_noMessage rfl, fun h => leaves_message rfl h rfl, mem_peerContexts y x⟩
  · have hl := leaves_topo h
    rwa [if_pos hstale] at hl
  · have hl := leaves_topo h
    rwa [if_neg hnew] at hl
  · have hl := leaves_assignTimer s
    rwa [if_pos (by simpa using h)] at hl
  · have hl := leaves_assignTimer s
    rw [if_neg (not_or.2 ⟨by simp [m, hlead], not_or.2 ⟨hmany.not_ge, hnew⟩⟩)] at hl
    exact ⟨_, _, hl, rfl, rfl, rfl, rfl, rfl⟩
  · have hl := leaves_assign rfl h
    rwa [if_pos (by simpa using hold)] at hl
  · have hl := leaves_assign rfl h
    rwa [if_neg fun ⟨hlead, hgen⟩ => hnew ⟨hlead, by simpa using hgen⟩] at hl
  · have hl := leaves_redUp h ha
    rwa [if_neg hother] at hl
  · have hl := leaves_redUp h ha
    rwa [if_pos ⟨hhome, hshard⟩] at hl

end Sys2Proof.Machine
end

section
/-!
PROOFS. The host interface: doorbells (R389, R656, R666), fetches (R658, R667, R673, R695), completions (R672, R673, R697), coalesced vectors (R675)
and the host link (R657, R658, R681).
-/
namespace Sys2Proof.Machine

/-! ## Doorbells -/

section
variable {m : Mach} {t : Nat} {ok32 : Bool} (n depth : Nat) (f : Mach)

theorem doorbell_off (hon : isOn m 17 = false) : doorbell m t ok32 n depth f = accessError m 1 := by
  simp [doorbell, hon]

variable (hon : isOn m 17 = true)
include hon

theorem doorbell_misshapen (h32 : ok32 = false) : doorbell m t ok32 n depth f = accessError m 3 := by
  simp [doorbell, hon, h32]

variable (h32 : ok32 = true)
include h32

theorem doorbell_resident (hr : isResident m t = true) : doorbell m t ok32 n depth f = accessError m 4 := by
  simp [doorbell, hon, h32, hr]

variable (hr : isResident m t = false)
include hr

theorem doorbell_disabled (he : qEnabled m t = false) : doorbell m t ok32 n depth f = accessError m 5 := by
  simp [doorbell, hon, h32, hr, he]

/-- A doorbell of an enabled queue pair that the external host serves moves its pointer within the ring (R666). -/
theorem doorbell_open (he : qEnabled m t = true) : doorbell m t ok32 n depth f = if depth ≤ n then raiseT m 0x0F05 t 0 else f := by
  simp [doorbell, hon, h32, hr, he]
end

/-- What stops a doorbell stops both of them alike. -/
theorem leaves_doorbells {s : State} {q : Fin 64} {v : Word} {ok32 : Bool} {M : Mach}
    (h : ∀ n depth f, doorbell s.taken q.val ok32 n depth f = M) :
    Leaves (.sqTailDoorbell q v ok32) s M ∧ Leaves (.cqHeadDoorbell q v ok32) s M :=
  ⟨leaves_effect rfl (h ..), leaves_effect rfl (h ..)⟩

/-! ## Fetches -/

/-- An entry waits that the queue pair may fetch now (R658, R667, R695). -/
def MayFetch (m : Mach) (t : Nat) : Prop :=
  qEnabled m t = true ∧ isResident m t = false ∧ serving m t = true ∧ inD3 m = false ∧ isOn m 17 = true ∧
    m.fldOf (rHS_Q_STATUS t) 0 12 ≠ (queueOf m t).tail ∧ outstanding m t < 64 ∧ outstanding m t < cqFree m t

/-- The entry at the head of a submission queue: of the queue SRAM, or of host memory as it was delivered (R665). -/
def headEntry (m : Mach) (t : Nat) (dma : Option (List Byte)) : Option (List Byte) :=
  if m.flagOf (rHS_Q_CFG t) 1 then some (memRead m.hs.sram 0 (m.reg64 (rHS_SQ_BASE_LO t) + 64 * m.fldOf (rHS_Q_STATUS t) 0 12) 64) else dma

/-- The command of an entry (R670). -/
def fetchedCmd (t : Nat) (e : List Byte) : RunCmd := ⟨t, byteFld e 2 2, byteFld e 0 1, bit (byteFld e 1 1) 0, false, 0, none, [], 0, 0⟩

/-- The machine once a queue pair's entry was fetched: the head moves on, and the command waits for its beginning (R667). -/
def cmdFetched (m : Mach) (t : Nat) (e : List Byte) : Mach :=
  { m.setFldOf (rHS_Q_STATUS t) 0 12 ((m.fldOf (rHS_Q_STATUS t) 0 12 + 1) % sqDepth m t) with
    hs := { m.hs with cmds := m.hs.cmds ++ [fetchedCmd t e] } }

section
variable {m : Mach} {q : Fin 64}

theorem not_mayFetch_iff {t : Nat} : ¬MayFetch m t ↔
    (!qEnabled m t) = true ∨ isResident m t = true ∨ (!serving m t) = true ∨ inD3 m = true ∨ (!isOn m 17) = true ∨
      fld (m.reg (rHS_Q_STATUS t)) 0 12 = (queueOf m t).tail ∨ 64 ≤ outstanding m t ∨ cqFree m t ≤ outstanding m t := by
  simp only [MayFetch, Mach.fldOf, not_and_or, Bool.not_eq_true, Bool.not_eq_false, Bool.not_eq_true', ne_eq, not_not, Nat.not_lt]

variable (dma : Option (List Byte))

theorem fetchCmd_waits (h : ¬MayFetch m q.val) : fetchCmd m q dma = m := if_pos (not_mayFetch_iff.1 h)

/-- A fetch that may take place is one of the entry at the head, if its ring is within reach; a failed access stops the queue (R667, R673). -/
theorem fetchCmd_may (h : MayFetch m q.val) : fetchCmd m q dma =
    if inRecovery m = true ∧ (!m.flagOf (rHS_Q_CFG q.val) 1) = true then m
    else (headEntry m q.val dma).elim (stopFailed m q.val) (fun e =>
      if opcodes.contains (fetchedCmd q.val e).op then cmdFetched m q.val e
      else badOpcode (cmdFetched m q.val e) q (fetchedCmd q.val e).cid (fetchedCmd q.val e).op) := by
  refine (if_neg (mt not_mayFetch_iff.2 (not_not_intro h))).trans (if_congr Iff.rfl rfl ?_)
  change (match headEntry m q.val dma with | none => _ | some e => _) = _
  cases headEntry m q.val dma <;> rfl

variable {dma} (h : MayFetch m q.val) (hr : ¬(inRecovery m = true ∧ m.flagOf (rHS_Q_CFG q.val) 1 = false))
include h hr

theorem fetchCmd_failed (he : headEntry m q.val dma = none) : fetchCmd m q dma = stopFailed m q.val := by
  rw [fetchCmd_may dma h, if_neg (by simpa using hr), he, Option.elim_none]

theorem fetchCmd_entry {e : List Byte} (he : headEntry m q.val dma = some e) : fetchCmd m q dma =
    if opcodes.contains (fetchedCmd q.val e).op then cmdFetched m q.val e
    else badOpcode (cmdFetched m q.val e) q (fetchedCmd q.val e).cid (fetchedCmd q.val e).op := by
  rw [fetchCmd_may dma h, if_neg (by simpa using hr), he, Option.elim_some]
end

/-! ## Completions -/

section
variable {m : Mach} {q : Fin 64} {cid : Nat} {c : RunCmd}

/-- Only an image load and the data commands wait for a domain (R482). -/
theorem cmdDomains_of_op (h : ¬(c.op = 0x12 ∨ c.op = 0x13 ∨ c.op = 0x2D)) : cmdDomains m c = [] := if_neg h

theorem cmdHeld_op {p : Cpl} (h : cmdHeld m c p = true) : c.op ≠ 0x2A := by
  intro hop
  rw [cmdHeld, cmdDomains_of_op (by rw [hop]; decide)] at h
  simp at h

theorem closedForBoot_none (f : Fuses) (h : findCmd m q.val cid = none) : closedForBoot f m q cid = false := by simp [closedForBoot, h]

/-- A restart becomes due with a completion that IMG_CLOSE posts, and with no other (R697). -/
theorem closedForBoot_of_not_close (f : Fuses) (h : findCmd m q.val cid = some c)
    (hc : c.begun = false ∨ c.cpl = none ∨ c.wait ≠ 0 ∨ c.op ≠ 0x2A) : closedForBoot f m q cid = false := by
  rcases hc with hc | hc | hc | hc <;> simp [closedForBoot, h, hc]

end

/-- A command that completes leaves its list, with its fault raised, or, of an image load, with the load logged (R572, R672). -/
def cmdClosed (m : Mach) (q : Fin 64) (cid : Nat) (c : RunCmd) (p : Cpl) : Mach :=
  dropCmd (if p.status ≠ 0 then raiseT m p.status q.val p.detail else if c.op = 0x2D then logLoad m c else m) q.val cid

section
variable {m : Mach} {q : Fin 64} {cid : Nat} (lost : Bool)

theorem endCmd_none (h : findCmd m q.val cid = none) :
    endCmd m q cid lost = if lost = true ∧ cqOnLink m q.val = true then stopFailed m q.val else m := by
  unfold endCmd; rw [h]

variable {c : RunCmd} (h : findCmd m q.val cid = some c)
include h

theorem endCmd_fetched (hb : c.begun = false) :
    endCmd m q cid lost = if opcodes.contains c.op then m else badOpcode m q cid c.op := by
  unfold endCmd; rw [h]; dsimp only
  rw [hb]; rfl

variable (hb : c.begun = true)
include hb

theorem endCmd_uncompleted (hp : c.cpl = none) : endCmd m q cid lost = m := by
  unfold endCmd; rw [h]; dsimp only
  rw [hb, hp]; rfl

/-- A command that has begun completes once nothing remains of it (R672, R673). -/
theorem endCmd_begun {p : Cpl} (hp : c.cpl = some p) : endCmd m q cid lost =
    if c.wait ≠ 0 ∨ cmdHeld m c p = true then m
    else if lost = true ∧ cqOnLink (cmdClosed m q cid c p) q.val = true then stopFailed (cmdClosed m q cid c p) q.val
    else postCpl (cmdClosed m q cid c p) p := by
  unfold endCmd cmdClosed; rw [h]; dsimp only
  rw [hb, hp]
  simp only [Bool.not_true, Bool.false_eq_true, if_false, ite_not]

end

/-- The completions of the queue pair are written over the host link (R657, R658, R665). -/
theorem cqOnLink_iff (m : Mach) (t : Nat) : cqOnLink m t = true ↔
    qEnabled m t = true ∧ m.flagOf (rHS_Q_CFG t) 1 = false ∧ isResident m t = false ∧ isOn m 17 = true ∧ inD3 m = false := by
  simp only [cqOnLink, Bool.and_eq_true, Bool.not_eq_true', and_assoc]

/-- A completion of IMG_CLOSE for an image that the ROM accepts makes a recovery restart due beside what it posts (R697). -/
def restartDue (f : Fuses) (m : Mach) (q : Fin 64) (cid : Nat) (x : Mach) : Mach :=
  if closedForBoot f m q cid then { x with pm := { x.pm with start := some 2 } } else x

section
variable {s : State} {q : Fin 64} {cid : Nat} {lost : Bool} {M : Mach}

theorem leaves_commandComplete (h : endCmd s.taken q cid lost = M) :
    Leaves (.commandComplete q cid lost) s (restartDue s.fuses s.taken q cid M) :=
  leaves_effectF (f := fun f m => restartDue f m q cid (endCmd m q cid lost)) rfl (congrArg _ h)

theorem leaves_commandComplete_only (hb : closedForBoot s.fuses s.taken q cid = false) (h : endCmd s.taken q cid lost = M) :
    Leaves (.commandComplete q cid lost) s M := by
  have hl := leaves_commandComplete h
  rwa [restartDue, if_neg (ne_true_of_eq_false hb)] at hl
end

/-- Settles O51: each event finds nothing to do, or does what the model's operation says in that case. -/
theorem hostEvents : Obligations.HostEvents := by
  unfold Obligations.HostEvents
  intro s q v ok32 lost down dma e cid c p speed width m t open' head mayFetch loc entry moved fetched joined broken logged then' onLink fails
    qq time off pool shown short
  have trains (hq : isQspi m = false) (hon : isOn m 17 = true) : ¬(isQspi m = true ∨ (!isOn m 17) = true) := by simp [hq, hon]
  have honLink (x : Mach) : cqOnLink x q.val = true ↔ onLink x := cqOnLink_iff x q.val
  refine ⟨fun hon => leaves_doorbells fun n d f => doorbell_off n d f hon,
    fun hon h32 => leaves_doorbells fun n d f => doorbell_misshapen n d f hon h32,
    fun hon h32 hr => leaves_doorbells fun n d f => doorbell_resident n d f hon h32 hr,
    fun hon h32 hr he => leaves_doorbells fun n d f => doorbell_disabled n d f hon h32 hr he,
    fun ⟨hon, h32, hr, he⟩ hn => leaves_effect rfl ((doorbell_open _ _ _ hon h32 hr he).trans (if_pos hn)),
    fun ⟨hon, h32, hr, he⟩ hn => leaves_effect rfl ((doorbell_open _ _ _ hon h32 hr he).trans (if_neg hn.not_ge)),
    fun ⟨hon, h32, hr, he⟩ hn => leaves_effect rfl ((doorbell_open _ _ _ hon h32 hr he).trans (if_pos hn)),
    fun ⟨hon, h32, hr, he⟩ hn => leaves_effect rfl ((doorbell_open _ _ _ hon h32 hr he).trans (if_neg hn.not_ge)),
    ?_, fun hmay hr he => leaves_effect rfl (fetchCmd_failed hmay hr he),
    fun hmay hr he hop => leaves_effect rfl ((fetchCmd_entry hmay hr he).trans (if_pos hop)),
    fun hmay hr he hop => leaves_effect rfl ((fetchCmd_entry hmay hr he).trans (if_neg (ne_true_of_eq_false hop))),
    fun hc hl => ?_, fun hc hlost hl => ?_, fun hc hb hop => ?_, fun hc hb hop => ?_, fun hc hb hwait => ?_, fun hc hb hp hheld => ?_,
    fun hc hb hp hwait hheld => ?_,
    fun h => leaves_effect rfl (if_pos h), fun hu ht => leaves_effect rfl (if_neg (not_or.2 ⟨hu, ht⟩)),
    fun h => ⟨leaves_effect rfl (if_pos h), leaves_effect rfl (if_pos h), leaves_effect rfl (if_pos h)⟩,
    fun h => ⟨leaves_effect rfl (if_neg (ne_true_of_eq_false h)), leaves_effect rfl (if_neg (ne_true_of_eq_false h)),
      leaves_effect rfl (if_neg (ne_true_of_eq_false h))⟩,
    fun h => leaves_effect rfl (if_pos (by simpa using h)), fun hq hon hs => ?_, fun hq hon hs => ?_⟩
  · intro hwaits
    by_cases hmay : MayFetch m q.val
    · have hr := hwaits.resolve_left (not_not_intro hmay)
      exact leaves_effect rfl ((fetchCmd_may dma hmay).trans (if_pos (by simpa using hr)))
    · exact leaves_effect rfl (fetchCmd_waits dma hmay)
  · exact leaves_commandComplete_only (closedForBoot_none _ hc)
      ((endCmd_none lost hc).trans (if_neg fun ⟨hlost, h⟩ => hl ⟨hlost, (honLink m).1 h⟩))
  · exact leaves_commandComplete_only (closedForBoot_none _ hc) ((endCmd_none lost hc).trans (if_pos ⟨hlost, (honLink m).2 hl⟩))
  · exact leaves_commandComplete_only (closedForBoot_of_not_close _ hc (.inl hb)) ((endCmd_fetched lost hc hb).trans (if_pos hop))
  · exact leaves_commandComplete_only (closedForBoot_of_not_close _ hc (.inl hb))
      ((endCmd_fetched lost hc hb).trans (if_neg (ne_true_of_eq_false hop)))
  · cases hp : c.cpl with
    | none => exact leaves_commandComplete_only (closedForBoot_of_not_close _ hc (.inr (.inl hp))) (endCmd_uncompleted lost hc hb hp)
    | some p =>
      have hw : c.wait ≠ 0 := hwait.resolve_left (by simp [hp])
      exact leaves_commandComplete_only (closedForBoot_of_not_close _ hc (.inr (.inr (.inl hw))))
        ((endCmd_begun lost hc hb hp).trans (if_pos (.inl hw)))
  · exact leaves_commandComplete_only (closedForBoot_of_not_close _ hc (.inr (.inr (.inr (cmdHeld_op hheld)))))
      ((endCmd_begun lost hc hb hp).trans (if_pos (.inr hheld)))
  · have hends := (endCmd_begun lost hc hb hp).trans (if_neg (not_or.2 ⟨not_not_intro hwait, ne_true_of_eq_false hheld⟩))
    exact ⟨fun ⟨hlost, hl⟩ => leaves_commandComplete (hends.trans (if_pos ⟨hlost, (honLink logged).2 hl⟩)),
      fun hf => leaves_commandComplete (hends.trans (if_neg fun ⟨hlost, h⟩ => hf ⟨hlost, (honLink logged).1 h⟩))⟩
  · exact leaves_effect rfl ((if_neg (trains hq hon)).trans (if_neg hs))
  · exact leaves_effect rfl ((if_neg (trains hq hon)).trans (if_pos hs))

end Sys2Proof.Machine
end

section
/-!
PROOFS. Writes of the audio registers: the voice-activity detector (R367, R369), the mute (R371, R373, R374), routing (R379), touch (R380, R381),
haptics (R383) and the capture channels (R364, R365, R406).
-/
namespace Sys2Proof.Machine

/-! ## Fields under a mask -/

section
variable {v k : Word} {lo n i : Nat}

/-- A field whose bits a mask keeps. -/
theorem fld_and_of_kept (hk : fld k lo n = 2 ^ n - 1) : fld (v &&& k) lo n = fld v lo n := by
  refine Nat.eq_of_testBit_eq fun j => ?_
  have hj : (fld k lo n).testBit j = decide (j < n) := by rw [hk, Nat.testBit_two_pow_sub_one]
  rw [testBit_fld] at hj
  rw [testBit_fld, testBit_fld, BitVec.toNat_and, Nat.testBit_and, Bool.and_left_comm, hj]
  cases decide (j < n) <;> simp

theorem flag_and_of_kept (hk : flag k i = true) : flag (v &&& k) i = flag v i := by
  rw [flag, BitVec.toNat_and, Nat.testBit_and, show k.toNat.testBit i = true from hk, Bool.and_true, flag]

/-- A field beside the bits that were set. -/
theorem fld_or_of_clear (hk : fld k lo n = 0) : fld (v ||| k) lo n = fld v lo n := by
  refine Nat.eq_of_testBit_eq fun j => ?_
  have hj : (fld k lo n).testBit j = false := by rw [hk, Nat.zero_testBit]
  rw [testBit_fld] at hj
  rw [testBit_fld, testBit_fld, BitVec.toNat_or, Nat.testBit_or, Bool.and_or_distrib_left, hj, Bool.or_false]
end

/-! ## The registers' rows -/

theorem writesAs_lhTouchCfg : WritesAs rLH_TOUCH_CFG 9 := by decide

theorem writeRow_lhVadCfg : WriteRow rLH_VAD_CFG 0 0 rLH_VAD_CFG 0xFFFF01 := by decide
theorem writeRow_lhCapCfg : ∀ c : Fin 8, WriteRow (rLH_CAP_CFG c.val) c.val 0 (rLH_CAP_CFG 0) 0x3F7F := by decide
theorem writeRow_auCommit : WriteRow rAU_COMMIT 0 0 rAU_COMMIT 3 := by decide
theorem writeRow_lhTouchCfg : WriteRow rLH_TOUCH_CFG 0 0 rLH_TOUCH_CFG 0x3FF77FF := by decide
theorem writeRow_lhHapCtrl : ∀ h : Fin 2, WriteRow (rLH_HAP_CTRL h.val) h.val 0 (rLH_HAP_CTRL 0) 3 := by decide

theorem lhCapCfg_ne : ∀ c : Fin 8, rLH_CAP_CFG c.val ≠ rLH_PDM_CFG := by decide
theorem lhHapCtrl_ne : ∀ h : Fin 2, rLH_HAP_CTRL h.val ≠ rLH_PDM_CFG ∧ rLH_HAP_CTRL h.val ≠ rLH_VAD_CFG ∧
    rLH_HAP_CTRL h.val ≠ rLH_TOUCH_CFG := by decide
theorem auCommit_ne : rAU_COMMIT ≠ rLH_CAP_CFG 0 ∧ rAU_COMMIT ≠ rLH_TOUCH_CH 0 ∧ rAU_COMMIT ≠ rLH_HAP_CTRL 0 ∧
    rAU_COMMIT ≠ rLH_PART_OWNER 0 := by decide

theorem applyReg_routing {f : Fuses} {m : Mach} {r : RegRow} {ctx i j a : Nat} {v : Word} (hb : blockOf a = 10) (hacc : r.acc ≠ .w1c) :
    applyReg f m r ctx i j a v = writeAudio m r i a v := by
  simp only [applyReg, hacc, if_false, hb]

section
variable (f : Fuses) {m : Mach} {p : Path} {ctx : Nat} (v : Word)

theorem pathWord_lhVadCfg (ok : WriteOk m p rLH_VAD_CFG ctx) : pathWord f m p rLH_VAD_CFG v = writeVadCfg m (v &&& 0xFFFF01#32) := by
  obtain ⟨r, hbase, hacc, h⟩ := pathWord_single writesAs_lhVadCfg writeRow_lhVadCfg ok f v
  rw [h, applyReg_audio writesAs_lhVadCfg.2.1 hacc, writeAudio, if_neg (by decide), if_neg (by rw [hbase]; decide), if_pos rfl]

theorem pathWord_lhCapCfg (c : Fin 8) (ok : WriteOk m p (rLH_CAP_CFG c.val) ctx) :
    pathWord f m p (rLH_CAP_CFG c.val) v = writeCapCfg m c.val (v &&& 0x3F7F#32) := by
  obtain ⟨r, hbase, hacc, h⟩ := pathWord_single (writesAs_lhCapCfg c) (writeRow_lhCapCfg c) ok f v
  rw [h, applyReg_audio (writesAs_lhCapCfg c).2.1 hacc, writeAudio, if_neg (lhCapCfg_ne c), if_pos hbase]

theorem pathWord_auCommit (ok : WriteOk m p rAU_COMMIT ctx) : pathWord f m p rAU_COMMIT v = writeAuCommit m (v &&& 3#32) := by
  obtain ⟨r, hbase, hacc, h⟩ := pathWord_single writesAs_auCommit writeRow_auCommit ok f v
  obtain ⟨hcap, htouch, hhap, howner⟩ := auCommit_ne
  rw [h, applyReg_routing writesAs_auCommit.2.1 hacc]
  simp [writeAudio, hbase, hcap, htouch, hhap, howner]

theorem pathWord_lhTouchCfg (ok : WriteOk m p rLH_TOUCH_CFG ctx) :
    pathWord f m p rLH_TOUCH_CFG v = writeTouchCfg m (v &&& 0x3FF77FF#32) := by
  obtain ⟨r, hbase, hacc, h⟩ := pathWord_single writesAs_lhTouchCfg writeRow_lhTouchCfg ok f v
  rw [h, applyReg_audio writesAs_lhTouchCfg.2.1 hacc, writeAudio, if_neg (by decide), if_neg (by rw [hbase]; decide), if_neg (by decide), if_pos rfl]

theorem pathWord_lhHapCtrl (h : Fin 2) (ok : WriteOk m p (rLH_HAP_CTRL h.val) ctx) :
    pathWord f m p (rLH_HAP_CTRL h.val) v = writeHapCtrl m h.val (v &&& 3#32) := by
  obtain ⟨r, hbase, hacc, hw⟩ := pathWord_single (writesAs_lhHapCtrl h) (writeRow_lhHapCtrl h) ok f v
  obtain ⟨hpdm, hvad, htouch⟩ := lhHapCtrl_ne h
  rw [hw, applyReg_audio (writesAs_lhHapCtrl h).2.1 hacc]
  simp [writeAudio, hbase, hpdm, hvad, htouch]

/-- A write of LH_MIC_MUTE has a check of its own (R371). -/
theorem pathWord_lhMicMute (hc : pathCtx m p = some ctx) : pathWord f m p rLH_MIC_MUTE v = writeMute m ctx v := by
  have hf : regFind rLH_MIC_MUTE = some (⟨rLH_MIC_MUTE, 1, 4, 1, 4, .rw, 0xA01, 0x3F01, .any, .special, 0, 1, 127⟩, 0, 0) := by decide
  rw [pathWord_word (by decide) f hc]
  simp [writeReg, hf, regOn]
end

/-! ## The voice-activity detector -/

/-- The machine with the fields of LH_VAD_CFG that a write sets (R367). -/
def vadFields (m : Mach) (v : Word) : Mach :=
  (if 4 ≤ fld v 8 8 ∧ fld v 8 8 ≤ 32 then m.setFldOf rLH_VAD_CFG 8 8 (fld v 8 8) else m).setFldOf rLH_VAD_CFG 16 8 (fld v 16 8)

/-- The detector begins afresh (R369). -/
def vadFresh (m : Mach) : Mach :=
  { m with lh := { m.lh with vad := { m.lh.vad with hop := false, frames := 0, xs := [], prev := 0, first := true, pend := none } } }

/-- MICS names one to four microphones (R367). -/
def MicsOk (v : Word) : Prop := 1 ≤ popCount (fld v 16 8) 8 ∧ popCount (fld v 16 8) 8 ≤ 4

section
variable {m : Mach} {v : Word}

/-- The detector takes the fields of a write as they stand in it. -/
theorem writeVadCfg_masked : writeVadCfg m (v &&& 0xFFFF01#32) = writeVadCfg m v := by
  unfold writeVadCfg
  rw [fld_and_of_kept (lo := 8) (n := 8) (by decide), fld_and_of_kept (lo := 16) (n := 8) (by decide), flag_and_of_kept (by decide)]

variable (hv : flag v 0 = true) (hoff : m.flagOf rLH_VAD_CFG 0 = false)
include hv hoff

theorem writeVadCfg_enables (hm : MicsOk v) : writeVadCfg m v = vadFresh ((vadFields m v).setFlagOf rLH_VAD_CFG 0 true) := by
  have hok : decide (1 ≤ popCount (fld v 16 8) 8 ∧ popCount (fld v 16 8) 8 ≤ 4) = true := decide_eq_true hm
  unfold writeVadCfg
  simp only [hv, hoff, hok, Bool.not_true, Bool.not_false, Bool.false_eq_true, and_false, and_true, if_true, if_false, Bool.and_true]
  rfl

theorem writeVadCfg_refused (hm : ¬MicsOk v) :
    writeVadCfg m v = ((vadFields m v).setFlagOf rLH_STATUS 2 true).setFlagOf rLH_VAD_CFG 0 false := by
  have hok : decide (1 ≤ popCount (fld v 16 8) 8 ∧ popCount (fld v 16 8) 8 ≤ 4) = false := decide_eq_false hm
  unfold writeVadCfg
  simp only [hv, hoff, hok, Bool.not_false, Bool.false_eq_true, and_false, and_true, if_true, if_false, Bool.and_false]
  rfl
end

/-! ## The mute -/

/-- A context that may not write MUTE is counted and reported (R371). -/
theorem writeMute_denied {m : Mach} {t : Nat} (h : muteWriter m t = false) (v : Word) : writeMute m t v =
    raiseT (accessError (m.setRegN rLH_MUTE_DENIED (m.regN rLH_MUTE_DENIED + 1)) 2) 0x080A 0 t := if_pos (by simp [h])

/-- The machine in which MUTE was set (R373): PDM_CLK stands, and what is recorded from here is silent. -/
def muted (m : Mach) : Mach :=
  ({ m.setFlagOf rLH_MIC_MUTE 0 true with
    lh := { m.lh with muteAt := some (m.lh.muteAt.getD m.clk.now), mutedPart := true, restart := false, settle := 0 } } : Mach).emit
    (.pin "PDM_CLK" 0)

/-- A tenant to which the mute is delegated mutes, and leaves SETTLE as it stands (R371–R374). -/
theorem writeMute_mutes {m : Mach} {t : Nat} {v : Word} (h : muteWriter m t = true) (ht : t ≠ 0) (hv : flag v 0 = true)
    (hoff : m.flagOf rLH_MIC_MUTE 0 = false) : writeMute m t v = logMute (muted m) t true := by
  unfold writeMute
  simp only [h, hv, hoff, ht, false_and, Bool.not_true, Bool.false_eq_true, if_true, if_false]
  rfl

/-! ## Routing and haptics -/

/-- A commit that replaces one which waits is counted (R379). -/
theorem writeAuCommit_commits (m : Mach) {v : Word} (hv : flag v 0 = true) : writeAuCommit m v =
    ({ (if m.lh.commit.isSome then m.setRegN rAU_COMMIT_LOST (m.regN rAU_COMMIT_LOST + 1) else m) with
      lh := { m.lh with commit := some (flag v 1) } } : Mach).setFlagOf rAU_STATUS 0 true := by
  unfold writeAuCommit
  rw [if_neg (by simp [hv])]
  cases m.lh.commit.isSome <;> rfl

section
variable {m : Mach} {h : Nat} {v : Word}

theorem writeHapCtrl_stop (hs : flag v 1 = true) : writeHapCtrl m h v = setHap m h { hap m h with stop := true, go := false } := if_pos hs

theorem writeHapCtrl_go (hs : flag v 1 = false) (hg : flag v 0 = true) (hc : 64 ≤ m.fldOf (rLH_HAP_CFG h) 0 16) :
    writeHapCtrl m h v = setHap m h { hap m h with go := true, stop := false } :=
  (if_neg (ne_true_of_eq_false hs)).trans (if_pos ⟨hg, hc⟩)
end

/-! ## Touch -/

/-- The machine with the fields of LH_TOUCH_CFG written as they stand (R380). -/
def touchKept (m : Mach) : Mach :=
  let meas := m.fldOf rLH_TOUCH_CFG 0 11
  let per := m.fldOf rLH_TOUCH_CFG 16 10
  let pol := m.fldOf rLH_TOUCH_CFG 12 2
  let kept := (if 64 ≤ meas ∧ meas ≤ 1024 then m.setFldOf rLH_TOUCH_CFG 0 11 meas else m).setFldOf rLH_TOUCH_CFG 12 2 pol
  if per ≤ 1000 then kept.setFldOf rLH_TOUCH_CFG 16 10 per else kept

/-- A field that is written as it stands changes no word. -/
theorem setFld_fld (w : Word) {lo n : Nat} (h : lo + n ≤ 32) : setFld w lo n (fld w lo n) = w := by
  refine BitVec.eq_of_toNat_eq (Nat.eq_of_testBit_eq fun i => ?_)
  rw [testBit_setFld _ _ _ h, testBit_fld]
  split
  · rw [show lo + (i - lo) = i by omega, decide_eq_true (by omega), Bool.true_and]
  · rfl

theorem reg_setFldOf_own {x m : Mach} (hx : ∀ k, x.reg k = m.reg k) {a lo n : Nat} (h : lo + n ≤ 32) (k : Nat) :
    (x.setFldOf a lo n (m.fldOf a lo n)).reg k = m.reg k := by
  rw [Mach.setFldOf, Mach.reg_setReg, Mach.fldOf, hx a, setFld_fld _ h, hx k]
  split
  · next hk => rw [hk]
  · rfl

theorem touchKept_reg (m : Mach) : ∀ k, (touchKept m).reg k = m.reg k := by
  unfold touchKept
  have hmeas : ∀ k, (if 64 ≤ m.fldOf rLH_TOUCH_CFG 0 11 ∧ m.fldOf rLH_TOUCH_CFG 0 11 ≤ 1024 then
      m.setFldOf rLH_TOUCH_CFG 0 11 (m.fldOf rLH_TOUCH_CFG 0 11) else m).reg k = m.reg k := by
    split
    · exact reg_setFldOf_own (fun _ => rfl) (by decide)
    · exact fun _ => rfl
  have hpol := reg_setFldOf_own hmeas (a := rLH_TOUCH_CFG) (lo := 12) (n := 2) (by decide)
  dsimp only
  split
  · exact reg_setFldOf_own hpol (by decide)
  · exact hpol

theorem lh_setFldOf_if (x : Mach) (c : Prop) [Decidable c] (a lo n v : Nat) : (if c then x.setFldOf a lo n v else x).lh = x.lh := by
  split <;> rfl

theorem touchKept_lh (m : Mach) : (touchKept m).lh = m.lh :=
  (lh_setFldOf_if ..).trans ((Mach.setFldOf_lh ..).trans (lh_setFldOf_if ..))

/-- SCAN written with the other fields as they stand is a trigger (R380). -/
theorem writeTouchCfg_scan (m : Mach) : writeTouchCfg m ((m.reg rLH_TOUCH_CFG ||| 0x4000#32) &&& 0x3FF77FF#32) = triggerScan (touchKept m) := by
  have hkept {lo n : Nat} (hset : fld 0x4000#32 lo n = 0) (hmask : fld 0x3FF77FF#32 lo n = 2 ^ n - 1) :
      fld ((m.reg rLH_TOUCH_CFG ||| 0x4000#32) &&& 0x3FF77FF#32) lo n = m.fldOf rLH_TOUCH_CFG lo n :=
    (fld_and_of_kept hmask).trans (fld_or_of_clear hset)
  have hscan : flag ((m.reg rLH_TOUCH_CFG ||| 0x4000#32) &&& 0x3FF77FF#32) 14 = true := by
    rw [flag_and_of_kept (by decide), flag, BitVec.toNat_or, Nat.testBit_or, show (0x4000#32).toNat.testBit 14 = true by decide, Bool.or_true]
  unfold writeTouchCfg
  rw [hkept (by decide) (by decide), hkept (by decide) (by decide), hkept (by decide) (by decide), hscan]
  rfl

section
variable {m : Mach}

theorem triggerScan_idle (hr : m.lh.touch.running = false) : triggerScan m = startScan m := if_pos (by simp [hr])

/-- A trigger that a running scan loses is counted (R381). -/
def scanLost (m : Mach) : Mach := m.setRegN rLH_TOUCH_OVR (m.regN rLH_TOUCH_OVR + 1)

variable (hr : m.lh.touch.running = true)
include hr

theorem triggerScan_queues (hp : m.fldOf rLH_TOUCH_CFG 12 2 = 0) (hq : m.lh.touch.queued = false) :
    triggerScan m = { m with lh := { m.lh with touch := { m.lh.touch with queued := true } } } := by
  unfold triggerScan
  simp only [hr, hp, hq, Bool.not_true, Bool.false_eq_true, if_false]

theorem triggerScan_aborts (hp : m.fldOf rLH_TOUCH_CFG 12 2 = 2) :
    triggerScan m = scanLost { m with lh := { m.lh with touch := { m.lh.touch with abort := true } } } := by
  unfold triggerScan scanLost
  simp only [hr, hp, Bool.not_true, Bool.false_eq_true, if_false]

theorem triggerScan_loses (hp : m.fldOf rLH_TOUCH_CFG 12 2 = 1 ∨ m.fldOf rLH_TOUCH_CFG 12 2 = 3) : triggerScan m = scanLost m := by
  unfold triggerScan scanLost
  rcases hp with hp | hp <;> simp only [hr, hp, Bool.not_true, Bool.false_eq_true, if_false]
end

/-! ## Capture channels -/

/-- The machine with a word of LH_CAP_CFG_c but for EN (R364). -/
def capSet (m : Mach) (c : Nat) (w : Word) (b : Bool) : Mach := m.setReg (rLH_CAP_CFG c) (setFlag w 0 b)

section
variable {m : Mach} {c : Fin 8} {w : Word} {b : Bool}

theorem capSet_reg_ne {k : Nat} (hk : k ≠ rLH_CAP_CFG c.val) : (capSet m c.val w b).reg k = m.reg k := Mach.reg_setReg_ne m _ hk

/-- The free contexts are a matter of the contexts' registers and of the records on their way (R406). -/
theorem freeCtx_capSet : freeCtx (capSet m c.val w b) = freeCtx m := by
  have hkind (n : Nat) : strKind (capSet m c.val w b) n = strKind m n := by
    have hne : rSN_STREAM_CFG n ≠ rLH_CAP_CFG c.val := by unfold rSN_STREAM_CFG rLH_CAP_CFG; omega
    rw [strKind, strKind, Mach.fldOf, Mach.fldOf, capSet_reg_ne hne]
  simp only [freeCtx, hkind]
  rfl

theorem capOk_capSet (rate gain : Nat) :
    capOk ((capSet m c.val w b).fldOf rLH_PDM_CFG 0 2) rate gain = capOk (m.fldOf rLH_PDM_CFG 0 2) rate gain := by
  rw [Mach.fldOf, capSet_reg_ne (lhCapCfg_ne c).symm, Mach.fldOf]

theorem writeCapCfg_off (hw : flag w 0 = false) : writeCapCfg m c.val w =
    if m.flagOf (rLH_CAP_CFG c.val) 0 then capOff (capSet m c.val w (m.flagOf (rLH_CAP_CFG c.val) 0)) c.val
    else capSet m c.val w (m.flagOf (rLH_CAP_CFG c.val) 0) := if_pos (by simp [hw])

/-- A channel that is enabled at a rate which its divisor gives takes a context, if there is a free one (R364, R406). -/
theorem writeCapCfg_on (hw : flag w 0 = true) (hok : capOk (m.fldOf rLH_PDM_CFG 0 2) (fld w 1 2) (fld w 3 3) = true)
    (hoff : m.flagOf (rLH_CAP_CFG c.val) 0 = false) : writeCapCfg m c.val w =
      (freeCtx m).elim (raiseT (capSet m c.val w false) 0x0805 0 c.val) (fun n =>
        takeCtx ((capSet m c.val w false).setFlagOf (rLH_CAP_CFG c.val) 0 true) n 1 (fld w 8 6) 0 1 c.val
          (fld (m.reg (rLH_CAP_RING c.val)) 7 13 * 128) (fld (m.reg (rLH_CAP_RING c.val)) 20 10)) := by
  have hring : (capSet m c.val w false).reg (rLH_CAP_RING c.val) = m.reg (rLH_CAP_RING c.val) :=
    capSet_reg_ne (by unfold rLH_CAP_RING rLH_CAP_CFG; omega)
  have hok' := (capOk_capSet (c := c) (w := w) (b := false) (fld w 1 2) (fld w 3 3)).trans hok
  have hfree := freeCtx_capSet (m := m) (c := c) (w := w) (b := false)
  unfold capSet at hring hok' hfree
  unfold writeCapCfg
  simp only [hoff, hw, hok', Bool.not_true, Bool.false_eq_true, if_false, hfree, hring]
  cases freeCtx m <;> rfl

/-- A channel whose divisor does not give its rate is not enabled (R364). -/
theorem writeCapCfg_refused (hw : flag w 0 = true) (hok : capOk (m.fldOf rLH_PDM_CFG 0 2) (fld w 1 2) (fld w 3 3) = false) :
    writeCapCfg m c.val w = (capOff (capSet m c.val w (m.flagOf (rLH_CAP_CFG c.val) 0)) c.val).setFlagOf rLH_STATUS 2 true := by
  have hok' := (capOk_capSet (c := c) (w := w) (b := m.flagOf (rLH_CAP_CFG c.val) 0) (fld w 1 2) (fld w 3 3)).trans hok
  unfold capSet at hok'
  unfold writeCapCfg capSet
  simp only [hw, hok', Bool.not_true, Bool.not_false, Bool.false_eq_true, if_false, if_true]
end

/-- Settles O21: each write is the register's own, in the case that its fields and the machine select. -/
theorem audioWrites : Obligations.AudioWrites := by
  unfold Obligations.AudioWrites
  constructor
  · intro s p v ctx h m on mics hop cfg x pol per meas kept cfgT lost
    have hreg (k : Nat) : cfgT.reg k = m.reg k := touchKept_reg m k
    have hlh : cfgT.lh = m.lh := touchKept_lh m
    have hlost : lost = scanLost cfgT := by rw [scanLost, Mach.regN, hreg]; rfl
    have hpol : cfgT.fldOf rLH_TOUCH_CFG 12 2 = pol := by rw [Mach.fldOf, hreg]; rfl
    refine ⟨fun ok => ⟨fun hv h1 h4 hoff => ?_, fun hv hbad hoff => ?_⟩, fun hc => ⟨fun hw => ?_, fun hw ht hv hoff => ?_⟩, fun ok hv => ?_,
      fun ok => ?_, fun ok => ⟨fun hcfg => ?_, ?_⟩⟩
    · exact leaves_writeRow rfl ((pathWord_lhVadCfg _ v ok).trans (writeVadCfg_masked.trans (writeVadCfg_enables hv hoff ⟨h1, h4⟩)))
    · exact leaves_writeRow rfl ((pathWord_lhVadCfg _ v ok).trans (writeVadCfg_masked.trans (writeVadCfg_refused hv hoff hbad)))
    · exact leaves_writeRow rfl ((pathWord_lhMicMute _ v hc).trans (writeMute_denied hw v))
    · exact leaves_writeRow rfl ((pathWord_lhMicMute _ v hc).trans (writeMute_mutes hw ht hv hoff))
    · refine leaves_writeRow rfl ((pathWord_auCommit _ v ok).trans ?_)
      rw [writeAuCommit_commits m (by rwa [flag_and_of_kept (by decide)]), flag_and_of_kept (by decide)]
    · have hscan {M : Mach} (hM : triggerScan cfgT = M) : Leaves (.scan p) s M :=
        leaves_effectF (f := fun f m => pathWord f m p rLH_TOUCH_CFG (m.reg rLH_TOUCH_CFG ||| 0x4000#32)) rfl
          (((pathWord_lhTouchCfg _ _ ok).trans (writeTouchCfg_scan m)).trans hM)
      have hrun (hr : m.lh.touch.running = true) : cfgT.lh.touch.running = true := by rw [hlh]; exact hr
      refine ⟨fun hr => hscan (triggerScan_idle (by rw [hlh]; exact hr)), fun hr hp hq => hscan ?_, fun hr hp => hscan ?_, fun hr hp => hscan ?_⟩
      · rw [triggerScan_queues (hrun hr) (hpol.trans hp) (by rw [hlh]; exact hq), hlh]
      · rw [triggerScan_aborts (hrun hr) (hpol.trans hp), hlh, hlost]
        rfl
      · rw [triggerScan_loses (hrun hr) (by rwa [hpol]), hlost]
    · exact leaves_writeRow rfl ((pathWord_lhHapCtrl _ _ h ok).trans (writeHapCtrl_go (by decide) (by decide) hcfg))
    · exact leaves_writeRow rfl ((pathWord_lhHapCtrl _ _ h ok).trans (writeHapCtrl_stop (by decide)))
  · intro s p v ctx n c ok m w on set cfgOk ring
    have hwrite {M : Mach} (hM : writeCapCfg m c.val w = M) : Leaves (.lhCapCfg p c v) s M :=
      leaves_writeRow rfl ((pathWord_lhCapCfg _ v c ok).trans hM)
    refine ⟨fun hw hok hoff hn => hwrite ((writeCapCfg_on hw hok hoff).trans ?_),
      fun hw hok hoff hn => hwrite ((writeCapCfg_on hw hok hoff).trans ?_),
      fun hw hok => hwrite (writeCapCfg_refused hw hok), fun hw => hwrite (writeCapCfg_off hw)⟩
    · rw [show freeCtx s.taken = some n from hn, Option.elim_some]; rfl
    · rw [show freeCtx s.taken = none from hn, Option.elim_none]; rfl

end Sys2Proof.Machine
end

section
/-!
PROOFS. Touch scans (R380, R381), buttons (R382, R497), haptic patterns (R383), the RTC's events (R385) and the resident host (R389).
-/
namespace Sys2Proof.Machine

/-! ## The end of a measurement -/

/-- The machine once a channel's count was stored (R380). -/
def countStored (m : Mach) (n cnt : Nat) : Mach :=
  (advanceTo m (m.lh.touch.began + aonToRef (m.fldOf rLH_TOUCH_CFG 0 11))).setFldOf (rLH_TOUCH_CH n) 16 16 cnt

/-- A channel that is still enabled is evaluated (R380). -/
def countSeen (m : Mach) (n cnt : Nat) : Mach :=
  if (countStored m n cnt).flagOf (rLH_TOUCH_CH n) 0 then evalTouch (countStored m n cnt) n cnt else countStored m n cnt

/-- The scan goes on with the channels that are left (R380). -/
def scanOn (m : Mach) (ns : List Nat) : Mach := { m with lh := { m.lh with touch := { m.lh.touch with left := ns, began := m.clk.now } } }

/-- The scan is over (R380). -/
def scanOver (m : Mach) : Mach := { m with lh := { m.lh with touch := { m.lh.touch with left := [], running := false } } }

section
variable {m : Mach} (cnt : Nat)

theorem touchEnd_idle (h : m.lh.touch.left = []) : touchEnd m cnt = m := by
  unfold touchEnd; dsimp only; rw [h]

variable {n : Nat} {ns : List Nat} (h : m.lh.touch.left = n :: ns)
include h

theorem touchEnd_aborted (ha : m.lh.touch.abort = true) : touchEnd m cnt = startScan (countStored m n cnt) := by
  unfold touchEnd; dsimp only; rw [h]
  exact if_pos ha

variable (ha : m.lh.touch.abort = false)
include ha

theorem touchEnd_more {x : Mach} (hx : x = countSeen m n cnt) (hns : ns ≠ []) : touchEnd m cnt = scanOn x ns := by
  subst hx
  unfold touchEnd; dsimp only; rw [h]
  exact (if_neg (ne_true_of_eq_false ha)).trans (if_pos (by simpa using hns))

/-- The last measurement ends the scan, and one that was queued begins (R381). -/
theorem touchEnd_last {x : Mach} (hx : x = countSeen m n cnt) (hns : ns = []) : touchEnd m cnt =
    if m.lh.touch.queued then startScan (scanOver x) else scanOver x := by
  subst hx
  unfold touchEnd; dsimp only; rw [h]
  exact (if_neg (ne_true_of_eq_false ha)).trans (if_neg (by simp [hns]))
end

/-! ## Buttons -/

/-- The machine once a button's level was noted (R382). -/
def levelNoted (m : Mach) (b : Nat) (level : Bool) : Mach :=
  { lateEdge m b with lh := { (lateEdge m b).lh with btns := tabSet (lateEdge m b).lh.btns b { level, since := (lateEdge m b).clk.now } Btn.init } }

/-- A button's new level wakes where its pad is a direct one: at once in LEVEL mode, and outside a blind window in EDGE mode (R382, R497). -/
def LevelWakes (m : Mach) (b : Nat) (level : Bool) : Prop :=
  level = m.flagOf (rLH_BTN_CFG b) 1 ∧ (directPad m b 0 = true ∨ (directPad m b 1 = true ∧ blindAt m m.clk.now = false))

section
variable {m : Mach} {b : Nat}

theorem levelWakes_iff {level : Bool} : ((level == m.flagOf (rLH_BTN_CFG b) 1) = true ∧ (directPad m b 0 = true ∨
    (directPad m b 1 = true ∧ (!blindAt m m.clk.now) = true))) ↔ LevelWakes m b level := by
  rw [LevelWakes, beq_iff_eq, Bool.not_eq_true']

theorem buttonInput_idle {level : Bool} (h : (btn m b).level = level ∨ m.pd.vioA = false) : buttonInput m b level = m :=
  if_pos (by simpa using h)

section
variable {level : Bool} (hl : (btn m b).level ≠ level) (hv : m.pd.vioA = true)
include hl hv

theorem buttonInput_wakes (hw : LevelWakes (levelNoted m b level) b level) : buttonInput m b level = padWake (levelNoted m b level) b :=
  (if_neg (by simp [hl, hv])).trans (if_pos (levelWakes_iff.2 hw))

theorem buttonInput_noted (hw : ¬LevelWakes (levelNoted m b level) b level) : buttonInput m b level = levelNoted m b level :=
  (if_neg (by simp [hl, hv])).trans (if_neg (mt levelWakes_iff.1 hw))
end

/-- A button is pressed where its level is the active one (R382). -/
def isPressed (m : Mach) (b : Nat) : Bool := (btn m b).level == m.flagOf (rLH_BTN_CFG b) 1

/-- The machine once a button's level has held for the debounce time (R382). -/
def debounced (m : Mach) (b : Nat) : Mach :=
  (advanceTo m ((btn m b).since + 38400 * m.fldOf (rLH_BTN_CFG b) 8 8)).setFlagOf (rLH_BTN_CFG b) 16 (isPressed m b)

theorem buttonDebounced_idle (h : m.flagOf (rLH_BTN_CFG b) 0 = false ∨ isPressed m b = m.flagOf (rLH_BTN_CFG b) 16) : buttonDebounced m b = m :=
  if_pos (h.imp_left fun h => congrArg (!·) h)

/-- A button that is debounced posts its press, and, but in EDGE mode, its release (R382). -/
theorem buttonDebounced_held (he : m.flagOf (rLH_BTN_CFG b) 0 = true) (hp : isPressed m b ≠ m.flagOf (rLH_BTN_CFG b) 16) :
    buttonDebounced m b = if isPressed m b then postEvent (debounced m b) (0x8400 + b) 0
      else if m.flagOf (rLH_BTN_CFG b) 2 then debounced m b else postEvent (debounced m b) (0x8500 + b) 0 :=
  if_neg (not_or.2 ⟨ne_true_of_eq_false (congrArg (!·) he), hp⟩)
end

/-! ## Haptics -/

section
variable {m : Mach} {h : Nat}

theorem hapticStepEnd_idle (hp : (hap m h).playing = false ∨ (hap m h).left ≠ 0) : hapticStepEnd m h = m :=
  if_pos (hp.imp_left fun h => congrArg (!·) h)

/-- A step whose frames are over is followed by the next one, by the next repeat, or by the end of the pattern (R383). -/
theorem hapticStepEnd_over (hp : (hap m h).playing = true) (hl : (hap m h).left = 0) : hapticStepEnd m h =
    if m.flagOf (rLH_HAP_STEP h (hap m h).step) 16 = true ∨ (hap m h).step = 31 then
      (if (hap m h).reps ≠ 0 then hapStep m h 0 ((hap m h).reps - 1) else hapOut (setHap m h { hap m h with playing := false, step := 0 }) h 0)
    else hapStep m h ((hap m h).step + 1) (hap m h).reps := by
  unfold hapticStepEnd
  simp only [hp, hl, Bool.not_true, Bool.false_eq_true, ne_eq, not_true_eq_false, or_self, if_false, Bool.not_eq_true',
    ← Bool.not_eq_true, ite_not, Bool.or_eq_true, beq_iff_eq]
end

/-- Settles O44: each event finds nothing to do, or does what the model's operation says in that case. -/
theorem touchButtonsAndClock : Obligations.TouchButtonsAndClock := by
  unfold Obligations.TouchButtonsAndClock
  intro s cnt b level h t n ns m u due taken seen next finished w x edged noted wakes pressed held k last alarmed elapsed want changed
  refine ⟨fun hd => leaves_effect rfl (if_pos (congrArg (!·) hd)),
    fun hd hr => leaves_effect rfl ((if_neg (ne_true_of_eq_false (congrArg (!·) hd))).trans (triggerScan_idle hr)),
    fun hd _ => leaves_effect rfl (if_neg (ne_true_of_eq_false (congrArg (!·) hd))),
    fun hl => leaves_effect rfl (touchEnd_idle _ hl),
    fun hl => ⟨fun ha => leaves_effect rfl (touchEnd_aborted _ hl ha), fun ha hns => leaves_effect rfl (touchEnd_more _ hl ha (x := seen) rfl hns),
      fun ha hns hq => leaves_effect rfl ((touchEnd_last _ hl ha (x := seen) rfl hns).trans (if_neg (ne_true_of_eq_false hq))),
      fun ha hns hq => leaves_effect rfl ((touchEnd_last _ hl ha (x := seen) rfl hns).trans (if_pos hq))⟩,
    fun hi => leaves_effect rfl (buttonInput_idle hi),
    fun hl hv => ⟨fun hw => leaves_effect rfl (buttonInput_wakes hl hv hw), fun hw => leaves_effect rfl (buttonInput_noted hl hv hw)⟩,
    fun hi => leaves_effect rfl (buttonDebounced_idle hi),
    fun he hp => ⟨fun h => ?_, fun h hedge => ?_, fun h hedge => ?_⟩,
    fun hi => leaves_effect rfl (hapticStepEnd_idle hi),
    fun hp hl => ⟨fun hlast => ?_, fun hlast hr => ?_, fun hlast hr => ?_⟩,
    fun hd => leaves_effect rfl (if_pos (congrArg (!·) hd)),
    fun hd => leaves_effect rfl (if_neg (ne_true_of_eq_false (congrArg (!·) hd))),
    fun hd => leaves_effect rfl (if_pos hd), fun hd => leaves_effect rfl (if_neg hd),
    fun hi => leaves_effect rfl (if_pos hi), fun hw ho => leaves_effect rfl (if_neg (not_or.2 ⟨hw, not_not_intro ho⟩))⟩
  · exact leaves_effect rfl ((buttonDebounced_held he hp).trans (if_pos h))
  · exact leaves_effect rfl ((buttonDebounced_held he hp).trans ((if_neg (ne_true_of_eq_false h)).trans (if_pos hedge)))
  · exact leaves_effect rfl ((buttonDebounced_held he hp).trans ((if_neg (ne_true_of_eq_false h)).trans (if_neg (ne_true_of_eq_false hedge))))
  · exact leaves_effect rfl ((hapticStepEnd_over hp hl).trans (if_neg hlast))
  · exact leaves_effect rfl ((hapticStepEnd_over hp hl).trans ((if_pos hlast).trans (if_pos hr)))
  · exact leaves_effect rfl ((hapticStepEnd_over hp hl).trans ((if_pos hlast).trans (if_neg (not_not_intro hr))))

end Sys2Proof.Machine
end

section
/-!
PROOFS. The audio frame (R350), task shares (R357, R358), the tasks' stores (R360, R361), the detector's publication (R369), mirror copies (R366),
partitions (R353) and the 32.768 kHz crystal (R352, R696, R705).
-/
namespace Sys2Proof.Machine

/-! ## The frame that begins -/

/-- When the frame began, and its number (R350). -/
def Mach.frame (m : Mach) : Nat × Word := (m.lh.frameStart, m.reg rLH_FRAME)

section
variable (m : Mach)

theorem frame_setReg {a : Nat} (w : Word) (h : rLH_FRAME ≠ a) : (m.setReg a w).frame = m.frame := by
  rw [Mach.frame, Mach.reg_setReg_ne m w h, Mach.setReg_lh, Mach.frame]

theorem frame_setFldOf {a : Nat} (lo n v : Nat) (h : rLH_FRAME ≠ a) : (m.setFldOf a lo n v).frame = m.frame := frame_setReg m _ h
theorem frame_setFlagOf {a : Nat} (i : Nat) (b : Bool) (h : rLH_FRAME ≠ a) : (m.setFlagOf a i b).frame = m.frame := frame_setReg m _ h
theorem frame_setRegN {a : Nat} (v : Nat) (h : rLH_FRAME ≠ a) : (m.setRegN a v).frame = m.frame := frame_setReg m _ h

theorem frame_congr {m x : Mach} (hregs : x.regs = m.regs) (hstart : x.lh.frameStart = m.lh.frameStart) : x.frame = m.frame := by
  rw [Mach.frame, Mach.reg_of_regs hregs, hstart, Mach.frame]

theorem frame_ite (c : Prop) [Decidable c] (a b : Mach) : (if c then a else b).frame = if c then a.frame else b.frame := apply_ite ..

/-- What each step of a fold keeps, the fold keeps. -/
theorem frame_foldl {α : Type} (f : Mach → α → Mach) (hf : ∀ m x, (f m x).frame = m.frame) (l : List α) (m : Mach) :
    (l.foldl f m).frame = m.frame := by
  induction l generalizing m with
  | nil => rfl
  | cons x l ih => exact (ih _).trans (hf m x)

/-! No register of a stream, of a camera channel, of the matrix or of a haptic driver is LH_FRAME. -/

theorem lhFrame_ne_snStreamCfg (n : Nat) : rLH_FRAME ≠ rSN_STREAM_CFG n := by unfold rLH_FRAME rSN_STREAM_CFG; omega
theorem lhFrame_ne_cmVcCfg (c : Nat) : rLH_FRAME ≠ rCM_VC_CFG c := by unfold rLH_FRAME rCM_VC_CFG; omega
theorem lhFrame_ne_auMatrixActive (k : Nat) : rLH_FRAME ≠ rAU_MATRIX_ACTIVE k := by unfold rLH_FRAME rAU_MATRIX_ACTIVE; omega
theorem lhFrame_ne_lhHapCtrl (h : Nat) : rLH_FRAME ≠ rLH_HAP_CTRL h := by unfold rLH_FRAME rLH_HAP_CTRL; omega

theorem setSctx_frame (n : Nat) (c : SCtx) : (setSctx m n c).frame = m.frame := frame_congr rfl rfl

theorem takeBind_frame (n : Nat) : (takeBind m n).frame = m.frame := by
  unfold takeBind; dsimp only; split
  · rfl
  · next src _ =>
    rw [frame_ite, frame_setFldOf _ _ _ _ (lhFrame_ne_cmVcCfg src), setSctx_frame, frame_setFldOf _ _ _ _ (lhFrame_ne_snStreamCfg n), ite_self]

/-- The matrix that a commit makes active (R379). -/
def matrixTaken : Mach := (List.range 128).foldl (fun m k => m.setRegN (rAU_MATRIX_ACTIVE k) (m.regN (rAU_MATRIX_NEXT k))) m

theorem matrixTaken_frame : (matrixTaken m).frame = m.frame :=
  frame_foldl _ (fun x k => frame_setRegN x _ (lhFrame_ne_auMatrixActive k)) _ _

theorem matrixShown_frame (fade : Bool) (x : Option (List Nat × Nat)) :
    ((({ m with lh := { m.lh with commit := none, xfade := x } } : Mach).setFlagOf rAU_STATUS 0 false).setFlagOf rAU_STATUS 1 fade).frame =
      m.frame := by
  rw [frame_setFlagOf _ _ _ (by decide), frame_setFlagOf _ _ _ (by decide)]
  exact frame_congr rfl rfl

theorem routeApply_frame : (routeApply m).frame = m.frame := by
  unfold routeApply; split
  · rfl
  · split
    · rfl
    · exact (matrixShown_frame (matrixTaken m) _ _).trans (matrixTaken_frame m)

theorem muteFrame_frame : (muteFrame m).frame = m.frame := frame_congr rfl rfl
theorem touchFrame_frame : (touchFrame m).frame = m.frame := frame_congr rfl rfl

theorem vadStart_frame : (vadStart m).frame = m.frame := by unfold vadStart; split <;> rfl

theorem setHap_frame (h : Nat) (x : Haptic) : (setHap m h x).frame = m.frame :=
  (frame_setFldOf _ _ _ _ (lhFrame_ne_lhHapCtrl h)).trans (frame_setFlagOf _ _ _ (lhFrame_ne_lhHapCtrl h))

theorem hapOut_frame (h duty : Nat) : (hapOut m h duty).frame = m.frame := by unfold hapOut; split <;> rfl

theorem hapStep_frame (h step reps : Nat) : (hapStep m h step reps).frame = m.frame := (hapOut_frame ..).trans (setHap_frame ..)

theorem hapticStepEnd_frame (h : Nat) : (hapticStepEnd m h).frame = m.frame := by
  unfold hapticStepEnd
  simp only [frame_ite, hapStep_frame, hapOut_frame, setHap_frame, ite_self]

theorem hapFrame_frame (h : Nat) : (hapFrame m h).frame = m.frame := by
  unfold hapFrame
  simp only [frame_ite, hapStep_frame, hapOut_frame, setHap_frame, hapticStepEnd_frame, ite_self]

theorem startShares_frame : (startShares m).frame = m.frame := by
  unfold startShares
  generalize (taskOrder m).filter (runnable m) = l
  generalize 2048 = k
  induction l generalizing m k with
  | nil => rfl
  | cons t l ih => exact ih _ _

/-- The machine at the boundary, where the frame's start and number are set (R350). -/
def frameBegun : Mach := ({ m with lh := { m.lh with frameStart := m.clk.now } } : Mach).setRegN rLH_FRAME (m.regN rLH_FRAME + 1)

/-- Nothing that begins with a frame sets its start or its number again. -/
theorem frameStartAll_frame : (frameStartAll m).frame = (frameBegun m).frame := by
  unfold frameStartAll
  generalize List.range 48 = contexts
  generalize List.range 8 = channels
  rw [startShares_frame, hapFrame_frame, hapFrame_frame, touchFrame_frame, vadStart_frame]
  exact (frame_congr rfl rfl).trans ((muteFrame_frame _).trans ((routeApply_frame _).trans (frame_foldl _ takeBind_frame _ _)))
end

/-- A frame begins now, and has the next number (R350). -/
theorem frameStartAll_begins (m : Mach) :
    (frameStartAll m).lh.frameStart = m.clk.now ∧ (frameStartAll m).regN rLH_FRAME = (m.regN rLH_FRAME + 1) % 2 ^ 32 := by
  have h := frameStartAll_frame m
  rw [Mach.frame, Mach.frame, Prod.mk.injEq] at h
  obtain ⟨hstart, hnumber⟩ := h
  rw [hstart, Mach.regN, hnumber]
  exact ⟨rfl, regN_setRegN_same ..⟩

/-! ## The frame that ends -/

/-- What the microphones bring to a frame: an unpowered bank's read zero (R723, R754). -/
def heardFrame (m : Mach) (f : FrameIn) : FrameIn :=
  if m.pd.vioA then f else { f with caps := f.caps.map (·.map (fun _ => 0)), vad := f.vad.map (·.map (fun _ => 0)) }

theorem heardFrame_time (m : Mach) (f : FrameIn) : (heardFrame m f).time = f.time := by unfold heardFrame; split <;> rfl
theorem heardFrame_chg (m : Mach) (f : FrameIn) : (heardFrame m f).chg = f.chg := by unfold heardFrame; split <;> rfl

theorem audioFrame_eq (m : Mach) (f : FrameIn) : audioFrame m f = frameStartAll (sampleChg
    (sampleThermal (runRtc (frameEnd (advanceTo (settleFrame m) f.time) (heardFrame m f))) (heardFrame m f)) f.chg) := by
  rw [← heardFrame_time m f, ← heardFrame_chg m f]
  rfl

/-! ## Shares, publications and mirrors -/

theorem endShare_none {m : Mach} {id : Nat} (h : findRun m id = none) : endShare m id = m := by
  unfold endShare; rw [h]

/-- A task whose share ends before its END is truncated (R358). -/
theorem endShare_some {m : Mach} {id : Nat} {r : SlotRun} (h : findRun m id = some r) {g : Mach × SlotRun}
    (hg : g = closeRun (advanceTo m (lhTime m (r.start + r.length))) r) :
    endShare m id = if g.2.reachedEnd then g.1 else raiseT g.1 0x0801 g.2.tenant 0 := by
  subst hg
  unfold endShare; rw [h]

theorem vadPublish_none {m : Mach} (h : m.lh.vad.pend = none) : vadPublish m = m := by
  unfold vadPublish; rw [h]

/-- The detector once a hop's confidence is its own (R369). -/
def confGiven (m : Mach) (t conf : Nat) (nf : Int) : Mach :=
  ({ advanceTo m t with lh := { m.lh with vad := { m.lh.vad with pend := none, floor := nf, first := false } } } : Mach).setRegN rLH_VAD_CONF conf

/-- A confidence is published to the armed cascades that begin with the detector (R369). -/
theorem vadPublish_some {m : Mach} {t conf : Nat} {nf : Int} (h : m.lh.vad.pend = some (t, conf, nf)) : vadPublish m =
    ((m.cas.filter (fun c => c.armed && (c.stage 0).kind == 1)).map (·.tenant)).foldl (fun m k => publish m k 0 conf m.clk.now)
      (confGiven m t conf nf) := by
  unfold vadPublish; rw [h]
  rfl

/-- A record can be written to its ring now (R366, R408). -/
def RecordFits (m : Mach) (x : RingWrite) : Prop :=
  isOn m 13 = true ∧ isOn m 15 = true ∧ m.clk.now ≤ x.due ∧
    (findGen m x.h x.gen).any (fun a => decide (x.off + x.bytes.length ≤ a.size)) = true

theorem recordFits_iff {m : Mach} {x : RingWrite} : (isOn m 13 && isOn m 15 && decide (m.clk.now ≤ x.due) &&
    (findGen m x.h x.gen).any (fun a => decide (x.off + x.bytes.length ≤ a.size))) = true ↔ RecordFits m x := by
  simp only [RecordFits, Bool.and_eq_true, decide_eq_true_eq, and_assoc]

/-- The machine whose oldest record to a ring is on its way no more. -/
def recordTaken (m : Mach) (x : RingWrite) : Mach := { m with sn := { m.sn with ring := m.sn.ring.erase x } }

section
variable {m : Mach} {n : Nat} {mirror : Bool} (miss : Mach → Mach)

theorem ringWrite_none (h : m.sn.ring.find? (fun r => r.stream == n && r.mirror == mirror) = none) : ringWrite m n mirror miss = m := by
  unfold ringWrite; rw [h]

variable {x : RingWrite} (h : m.sn.ring.find? (fun r => r.stream == n && r.mirror == mirror) = some x)
include h

theorem ringWrite_missed (hf : ¬RecordFits m x) : ringWrite m n mirror miss = ringDone (miss (advanceTo (recordTaken m x) x.due)) n := by
  unfold ringWrite; rw [h]
  exact congrArg (ringDone · n) (if_neg (mt recordFits_iff.1 hf))

theorem ringWrite_mirrored (hm : mirror = true) (hf : RecordFits m x) :
    ringWrite m n mirror miss = ringDone (storeAlloc (recordTaken m x) x.h x.gen x.off x.bytes) n := by
  unfold ringWrite; rw [h]
  exact congrArg (ringDone · n) ((if_pos (recordFits_iff.2 hf)).trans (if_pos hm))
end

/-- Settles O43: the frame is its parts in order; each other event finds nothing to do, or does what the model's operation says. -/
theorem lighthouseEvents : Obligations.LighthouseEvents := by
  unfold Obligations.LighthouseEvents
  intro s f h c p r x y t conf nf m heard g stores rest fits lhOff heldVad given
  exact ⟨leaves_effect rfl (audioFrame_eq m f), frameStartAll_begins y,
    fun hr => leaves_effect rfl (endShare_none hr),
    fun hr => ⟨fun he => leaves_effect rfl ((endShare_some hr rfl).trans (if_pos he)),
      fun he => leaves_effect rfl ((endShare_some hr rfl).trans (if_neg (ne_true_of_eq_false he)))⟩,
    fun hs => leaves_effect rfl (if_pos hs), fun hs => leaves_effect rfl (if_neg hs),
    fun hs => leaves_effect rfl (if_pos hs), fun hs => leaves_effect rfl (if_neg hs),
    fun hp => leaves_effect rfl (vadPublish_none hp), fun hp => leaves_effect rfl (vadPublish_some hp),
    fun hx => leaves_effect rfl (ringWrite_none _ hx),
    fun hx => ⟨fun hf => leaves_effect rfl (ringWrite_mirrored _ hx rfl hf), fun hf => leaves_effect rfl (ringWrite_missed _ hx hf)⟩,
    fun hb => leaves_effect rfl (if_pos (congrArg (!·) hb)),
    fun hb => leaves_effect rfl (if_neg (ne_true_of_eq_false (congrArg (!·) hb))),
    fun hl => leaves_effect rfl (if_pos hl), fun hl => leaves_effect rfl (if_neg (ne_true_of_eq_false hl)),
    leaves_effect rfl rfl, fun hl => leaves_effect rfl (if_pos (hl.imp_right fun hl => congrArg (!·) hl)),
    fun hs hl => leaves_effect rfl (if_neg (not_or.2 ⟨ne_true_of_eq_false hs, ne_true_of_eq_false (congrArg (!·) hl)⟩))⟩
end Sys2Proof.Machine
end

section
/-!
PROOFS. The stream commands (R405, R406, R561) and the records written to their rings (R407, R408).
-/
namespace Sys2Proof.Machine

/-! ## Opening a stream -/

/-- The operands of a STREAM_OPEN have a form that R406 and R407 allow. -/
def OpenShape (kind src size records : Nat) (dram : Bool) : Prop :=
  2 ≤ kind ∧ kind ≤ 6 ∧ size < 3 ∧ sourceOk kind src = true ∧ records < 65536 ∧ ((kind = 2 ∨ kind = 5) → dram = true)

theorem not_openShape_iff {kind src size records : Nat} {dram : Bool} : ¬OpenShape kind src size records dram ↔
    kind < 2 ∨ 6 < kind ∨ 3 ≤ size ∨ (!sourceOk kind src) = true ∨ 65536 ≤ records ∨ ((kind = 2 ∨ kind = 5) ∧ (!dram) = true) := by
  simp only [OpenShape, not_and_or, Nat.not_le, Nat.not_lt, Classical.not_imp, Bool.not_eq_true, Bool.not_eq_true']

/-- The machine with a context taken for a stream; a camera stream's VC context names it (R406, R410). -/
def streamOpened (m : Mach) (n kind owner : Nat) (dram : Bool) (size src ring records : Nat) : Mach :=
  if kind = 2 then (takeCtx m n kind owner (b2n dram) size src ring records).setFldOf (rCM_VC_CFG src) 8 6 n
  else takeCtx m n kind owner (b2n dram) size src ring records

section
variable {s : State} {cmd : CmdCtx} {m b : Mach} (hm : m = s.taken) (hbegun : b = begun m cmd)
include hm hbegun

section
variable {kind src size ring records : Nat} {dram : Bool} (hb : Begins m cmd 0x38 noWait)
include hb

/-- Operands of another form are refused (R406, R407). -/
theorem leaves_streamOpen_misshapen (h : ¬OpenShape kind src size records dram) :
    Leaves (.streamOpen cmd kind src size dram ring records) s (refuse b cmd.q.val cmd.cid 0x38 0x0F02 0) := by
  subst hm hbegun
  exact leaves_command rfl hb (if_pos (not_openShape_iff.1 h))

/-- A stream is granted, has a ring of its owner, and takes the lowest free context, or is refused (R406, R407, R561). -/
theorem leaves_streamOpen (h : OpenShape kind src size records dram) :
    Leaves (.streamOpen cmd kind src size dram ring records) s
      (if streamGranted m cmd.q.val kind src = false then refuse b cmd.q.val cmd.cid 0x38 0x0D01 0
      else if ringOk m cmd.q.val (b2n dram) ring ((records + 1) * (64 * 2 ^ size)) = false then refuse b cmd.q.val cmd.cid 0x38 0x0F02 0
      else (freeCtx m).elim (refuse b cmd.q.val cmd.cid 0x38 0x0905 0) (fun n =>
        complete (streamOpened b n kind cmd.q.val dram size src ring records) cmd.q.val cmd.cid 0x38 0 n 0)) := by
  subst hm hbegun
  refine leaves_command rfl hb ((if_neg (mt not_openShape_iff.2 (not_not_intro h))).trans ?_)
  refine if_congr (by rw [Bool.not_eq_true']; rfl) rfl (if_congr (by rw [Bool.not_eq_true']; rfl) rfl ?_)
  rw [show freeCtx (begun s.taken cmd) = freeCtx s.taken from rfl]
  cases freeCtx s.taken <;> rfl
end

/-! ## Closing a stream, and its records -/

section
variable {n : Nat} (hb : Begins m cmd 0x39 (naming (objKey 7 n)))
include hb

/-- Only the owner of a stream closes it (R406). -/
theorem leaves_streamClose_refused (h : strKind m n < 2 ∨ strOwner m n ≠ cmd.q.val) :
    Leaves (.streamClose cmd n) s (refuse b cmd.q.val cmd.cid 0x39 0x0F02 0) := by
  subst hm hbegun
  exact leaves_command rfl hb (if_pos h)

/-- A close completes at once unless a record of the stream waits for its ring (R406). -/
theorem leaves_streamClose (hk : 2 ≤ strKind m n) (ho : strOwner m n = cmd.q.val) : Leaves (.streamClose cmd n) s
    (if m.sn.ring.any (fun r => r.stream == n) = true then
      running (freeStream b n) cmd.q.val cmd.cid 0x39 waitRing (some ⟨cmd.q.val, cmd.cid, 0x39, 0, 0, 0, 0⟩) [objKey 7 n] 0 0
    else complete (freeStream b n) cmd.q.val cmd.cid 0x39 0 0 0) := by
  subst hm hbegun
  exact leaves_command rfl hb (if_neg (not_or.2 ⟨hk.not_gt, not_not_intro ho⟩))
end

/-- An injected record takes the stream's next number, and completes once it is in its ring (R405, R406). -/
theorem leaves_streamInject {n stamp : Nat} {r : BufRef} {bs : List Byte} (hb : Begins m cmd 0x3A noWait) (hk : strKind m n = 6)
    (ho : strOwner m n = cmd.q.val) (hlen : 32 + refLen r ≤ strSize m n) (hr : refOk m cmd.q.val r false = true)
    (hd : readRef m cmd.q.val r = .ok bs) {y : Mach} (hy : y = produce b n 6 stamp 0 bs.length (strSource m n) [] bs) :
    Leaves (.streamInject cmd n stamp r) s
      (if strLoc y n = 1 then
        running y cmd.q.val cmd.cid 0x3A waitRing (some ⟨cmd.q.val, cmd.cid, 0x3A, 0, seqOf (sctx m n).count, 0, 0⟩) [objKey 7 n] 0 0
      else complete y cmd.q.val cmd.cid 0x3A 0 (seqOf (sctx m n).count) 0) := by
  subst hm hbegun hy
  refine leaves_command rfl hb ((if_neg (not_or.2 ⟨not_not_intro hk, not_or.2 ⟨not_not_intro ho, hlen.not_gt⟩⟩)).trans ?_)
  rw [withRef_delivers _ _ hr hd]
  rfl
end

/-- A record that fits is written to its ring, and the stream's SEQ follows it (R407, R408). -/
theorem ringWrite_written {m : Mach} {n : Nat} {x : RingWrite} (miss : Mach → Mach)
    (h : m.sn.ring.find? (fun r => r.stream == n && r.mirror == false) = some x) (hf : RecordFits m x) : ringWrite m n false miss =
      ringDone (seqWritten (storeAlloc (recordTaken m x) x.h x.gen x.off x.bytes) n (byteFld x.bytes 0 4)) n := by
  unfold ringWrite; rw [h]
  exact congrArg (ringDone · n) ((if_pos (recordFits_iff.2 hf)).trans (if_neg Bool.false_ne_true))

/-- Settles O33: each command's checks pass or fail as the statement says, in their order; a record is written while it fits. -/
theorem streamCommands : Obligations.StreamCommands := by
  unfold Obligations.StreamCommands
  intro s cmd kind src size ring records n stamp dram r bs x m b q shape i opened waits rest fits
  refine ⟨fun hb => ⟨leaves_streamOpen_misshapen rfl rfl hb, fun hs hg => ?_, fun hs hg hring => ⟨fun hfree => ?_, fun hfree => ?_⟩⟩,
    fun hb => ⟨leaves_streamClose_refused rfl rfl hb, fun hk ho => ⟨fun hw => ?_, fun hw => ?_⟩⟩,
    fun hb hk ho hlen hr hd => ⟨fun hloc => ?_, fun hloc => ?_⟩,
    fun hx => leaves_effect rfl (ringWrite_none _ hx),
    fun hx => ⟨fun hf => leaves_effect rfl (ringWrite_written _ hx hf), fun hf => leaves_effect rfl (ringWrite_missed _ hx hf)⟩⟩
  · have hl := leaves_streamOpen (ring := ring) rfl rfl hb hs
    rwa [if_pos hg] at hl
  · have hl := leaves_streamOpen (ring := ring) rfl rfl hb hs
    rwa [if_neg (ne_false_of_eq_true hg), if_neg (ne_false_of_eq_true hring), hfree] at hl
  · have hl := leaves_streamOpen (ring := ring) rfl rfl hb hs
    rwa [if_neg (ne_false_of_eq_true hg), if_neg (ne_false_of_eq_true hring), hfree] at hl
  · have hl := leaves_streamClose rfl rfl hb hk ho
    rwa [if_neg hw] at hl
  · have hl := leaves_streamClose rfl rfl hb hk ho
    rwa [if_pos hw] at hl
  · have hl := leaves_streamInject (stamp := stamp) rfl rfl hb hk ho hlen hr hd rfl
    rwa [if_neg (by rw [hloc]; decide)] at hl
  · have hl := leaves_streamInject (stamp := stamp) rfl rfl hb hk ho hlen hr hd rfl
    rwa [if_pos hloc] at hl

end Sys2Proof.Machine
end

section
/-!
PROOFS. Writes that bind streams (R409), commit frame buffers (R414, R417), enable I3C controllers (R419), and arm, disarm or trigger capture
sequences (R421, R422, R430).
-/
namespace Sys2Proof.Machine

/-! ## The registers' rows -/

theorem writeRow_snBindCommit : ∀ n : Fin 48, WriteRow (rSN_BIND_COMMIT n.val) n.val 0 (rSN_BIND_COMMIT 0) 1 := by decide
theorem writeRow_cmCommit : ∀ c : Fin 8, WriteRow (rCM_COMMIT c.val) c.val 0 (rCM_COMMIT 0) 1 := by decide
theorem writeRow_snSeqCtrl : ∀ q : Fin 16, WriteRow (rSN_SEQ_CTRL q.val) q.val 0 (rSN_SEQ_CTRL 0) 7 := by decide

/-- The families' addresses are none of the single registers that their blocks tell apart before them. -/
theorem snBindCommit_ne : ∀ n : Fin 48, rSN_BIND_COMMIT n.val ≠ rCM_RX_CFG 0 ∧ rSN_BIND_COMMIT n.val ≠ rCM_RX_CFG 1 := by decide
theorem cmCommit_ne : ∀ c : Fin 8, rCM_COMMIT c.val ≠ rCM_RX_CFG 0 ∧ rCM_COMMIT c.val ≠ rCM_RX_CFG 1 := by decide
theorem snSeqCtrl_ne : ∀ q : Fin 16, rSN_SEQ_CTRL q.val ≠ rCM_RX_CFG 0 ∧ rSN_SEQ_CTRL q.val ≠ rCM_RX_CFG 1 := by decide

theorem regFind_snI3cCfg : ∀ k : Fin 2, (regFind (rSN_I3C_CFG k.val)).any (fun r => r.1.mask == 0xFF03) = true := by decide

theorem applyReg_streams {f : Fuses} {m : Mach} {r : RegRow} {ctx i j a b : Nat} {v : Word} (hb : blockOf a = b) (h : b ∈ [11, 12])
    (hacc : r.acc ≠ .w1c) : applyReg f m r ctx i j a v = writeStreams m r ctx i a v := by
  subst hb
  simp only [List.mem_cons, List.not_mem_nil, or_false] at h
  rcases h with h | h <;> simp only [applyReg, hacc, if_false, h]

section
variable (f : Fuses) {m : Mach} {p : Path} {ctx : Nat} (v : Word)

theorem pathWord_snBindCommit (n : Fin 48) (ok : WriteOk m p (rSN_BIND_COMMIT n.val) ctx) :
    pathWord f m p (rSN_BIND_COMMIT n.val) v = writeBindCommit m ctx n.val (v &&& 1#32) := by
  obtain ⟨r, hbase, hacc, h⟩ := pathWord_single (writesAs_snBindCommit n) (writeRow_snBindCommit n) ok f v
  rw [h, applyReg_streams (writesAs_snBindCommit n).2.1 (by decide) hacc, writeStreams, if_neg (not_or.2 (snBindCommit_ne n)),
    if_neg (by rw [hbase]; decide), if_neg (by rw [hbase]; decide), if_pos hbase]

theorem pathWord_cmCommit (c : Fin 8) (ok : WriteOk m p (rCM_COMMIT c.val) ctx) :
    pathWord f m p (rCM_COMMIT c.val) v = writeCmCommit m c.val (v &&& 1#32) := by
  obtain ⟨r, hbase, hacc, h⟩ := pathWord_single (writesAs_cmCommit c) (writeRow_cmCommit c) ok f v
  rw [h, applyReg_streams (writesAs_cmCommit c).2.1 (by decide) hacc, writeStreams, if_neg (not_or.2 (cmCommit_ne c)),
    if_neg (by rw [hbase]; decide), if_pos hbase]

theorem pathWord_snSeqCtrl (q : Fin 16) (ok : WriteOk m p (rSN_SEQ_CTRL q.val) ctx) :
    pathWord f m p (rSN_SEQ_CTRL q.val) v = writeSeqCtrl m q.val (v &&& 7#32) := by
  obtain ⟨r, hbase, hacc, h⟩ := pathWord_single (writesAs_snSeqCtrl q) (writeRow_snSeqCtrl q) ok f v
  rw [h, applyReg_streams (writesAs_snSeqCtrl q).2.1 (by decide) hacc, writeStreams, if_neg (not_or.2 (snSeqCtrl_ne q)),
    if_neg (by rw [hbase]; decide), if_neg (by rw [hbase]; decide), if_neg (by rw [hbase]; decide), if_neg (by rw [hbase]; decide), if_pos hbase]
end

/-- A permitted write of SN_I3C_CFG, whatever targets answer, is the register's own (R11, R419). -/
theorem i3cCfgWrite_ok {m : Mach} {p : Path} {ctx : Nat} {k : Fin 2} (ok : WriteOk m p (rSN_I3C_CFG k.val) ctx) (found : List (Fin 11))
    (v : Word) : i3cCfgWrite m p k.val found v = writeI3cCfg m k.val found (v &&& 0xFF03#32) := by
  have hmask := regFind_snI3cCfg k
  obtain ⟨r, i, j, hc, hf, hon, hmay, hlock, -⟩ := ok
  simp only [hf, Option.any_some, beq_iff_eq] at hmask
  simp only [i3cCfgWrite, hc, hf, hon, hmay, hlock, hmask, Bool.not_true, Bool.false_eq_true, if_false]

/-! ## Bindings -/

section
variable {m : Mach} {ctx n : Nat} {v : Word} (hv : flag v 0 = true) (hk : strKind m n ≠ 0)
  (hs : sourceOk (strKind m n) (m.fldOf (rSN_BIND_NEXT n) 0 8) = true)
include hv hk hs

/-- A source of the context's kind is bound if it is granted: between records at once for PEER and INJECT, else at the next sample boundary
(R409). -/
theorem writeBindCommit_go : writeBindCommit m ctx n v =
    if streamGranted m ctx (strKind m n) (m.fldOf (rSN_BIND_NEXT n) 0 8) = false then raiseT m 0x0D01 ctx n
    else if strKind m n = 5 ∨ strKind m n = 6 then
      takeBind (setSctx m n { sctx m n with bind := some (m.fldOf (rSN_BIND_NEXT n) 0 8) }) n
    else setSctx m n { sctx m n with bind := some (m.fldOf (rSN_BIND_NEXT n) 0 8) } :=
  (if_neg (not_or.2 ⟨by rw [hv]; decide, not_or.2 ⟨hk, by rw [hs]; decide⟩⟩)).trans (if_congr (by rw [Bool.not_eq_true']) rfl rfl)
end

/-! ## Frame buffers -/

/-- The owner of the stream that a VC context is bound to; tenant 0 where it is bound to none. -/
def vcOwner (m : Mach) (c : Nat) : Nat := ((vcStream m c).map (strOwner m)).getD 0

/-- The machine that counts a commit which replaces one that waits (R417). -/
def commitCounted (m : Mach) (c : Nat) : Mach :=
  if (vctx m c).pend.isSome then m.setRegN (rCM_COMMIT_LOST c) (m.regN (rCM_COMMIT_LOST c) + 1) else m

section
variable {m : Mach} {c : Nat} {v : Word} (hv : flag v 0 = true)
include hv

/-- A commit that names no allocation of the stream's owner is refused (R414). -/
theorem writeCmCommit_refused (h : ownAlloc m (vcOwner m c) (m.regN (rCM_FRAME_ALLOC c)) = none) :
    writeCmCommit m c v = raiseT (m.setFlagOf (rCM_VC_STATE c) 2 true) 0x0901 (vcOwner m c) c := by
  unfold vcOwner at h
  unfold writeCmCommit
  simp only [hv, h, Option.filter_none, Bool.not_true, Bool.false_eq_true, if_false]
  rfl

/-- A commit of a DRAM allocation that holds the whole frame waits for the next Frame Start (R414). -/
theorem writeCmCommit_accepted {a : Alloc} (hbound : (vcStream m c).isSome = true)
    (h : ownAlloc m (vcOwner m c) (m.regN (rCM_FRAME_ALLOC c)) = some a) (hdram : a.flags = 1) (halign : m.regN (rCM_FRAME_BASE c) % 64 = 0)
    (hroom : m.regN (rCM_FRAME_BASE c) + m.fldOf (rCM_LINE_PITCH c) 16 13 * m.fldOf (rCM_LINE_PITCH c) 0 15 ≤ a.size) :
    writeCmCommit m c v = ((setVctx (commitCounted m c) c { vctx m c with
      pend := some (m.regN (rCM_FRAME_ALLOC c), a.gen, m.regN (rCM_FRAME_BASE c)), pendAt := m.clk.now }).setFlagOf
        (rCM_VC_STATE c) 2 false).setFlagOf (rCM_VC_STATE c) 0 true := by
  unfold vcOwner at h
  unfold Mach.fldOf at hroom
  have hfits : ((vcStream m c).isSome && a.flags == 1 && m.regN (rCM_FRAME_BASE c) % 64 == 0 && decide (m.regN (rCM_FRAME_BASE c) +
      fld (m.reg (rCM_LINE_PITCH c)) 16 13 * fld (m.reg (rCM_LINE_PITCH c)) 0 15 ≤ a.size)) = true := by
    rw [hbound, hdram, halign, decide_eq_true hroom]; rfl
  unfold writeCmCommit commitCounted
  simp only [hv, h, Option.filter_some, hfits, Bool.not_true, Bool.false_eq_true, if_false, if_true]
  cases (vctx m c).pend.isSome <;> rfl
end

/-! ## I3C controllers -/

section
variable {m : Mach} {k : Nat} {w : Word} (hoff : m.flagOf (rSN_I3C_CFG k) 0 = false)
include hoff

/-- A controller that stays off, or whose bus is I2C only, looks for no target (R418, R419). -/
theorem writeI3cCfg_plain (found : List (Fin 11)) (h : flag w 0 = false ∨ flag w 1 = true) :
    writeI3cCfg m k found w = m.setReg (rSN_I3C_CFG k) w := by
  unfold writeI3cCfg writeEnCfg
  simp only [hoff, Bool.false_eq_true, if_false, false_or, Bool.not_eq_true', if_pos h]

/-- An I3C controller that is enabled and finds no target leaves no device a dynamic address (R419). -/
theorem writeI3cCfg_alone (hen : flag w 0 = true) (hi3c : flag w 1 = false) : writeI3cCfg m k [] w =
    (List.range 11).foldl (fun x i => x.setFldOf (rSN_I3C_DEV k i) 8 7 0) (m.setReg (rSN_I3C_CFG k) w) := by
  unfold writeI3cCfg writeEnCfg
  simp only [hoff, hen, hi3c, Bool.not_true, Bool.false_eq_true, or_self, if_false, ite_self, List.foldl_nil]
end

/-! ## Capture sequences -/

section
variable {m : Mach} {n : Nat} {w : Word}

/-- ARM alone arms a sequence that is not armed if it is valid (R421). -/
theorem writeSeqCtrl_arm (harm : flag w 0 = true) (hdisarm : flag w 1 = false) (htrig : flag w 2 = false) (h : seqArmed m n = false) :
    writeSeqCtrl m n w = if sequenceOk m n then m.setFlagOf (rSN_SEQ_CFG n) 16 true else raiseT m 0x090B (seqOwner m n) n := by
  unfold writeSeqCtrl
  simp only [harm, hdisarm, htrig, h, Bool.not_false, Bool.false_eq_true, false_and, and_self, if_false, if_true]

/-- DISARM alone disarms a sequence, which forgets the trigger that waits (R430). -/
theorem writeSeqCtrl_disarm (harm : flag w 0 = false) (hdisarm : flag w 1 = true) (htrig : flag w 2 = false) :
    writeSeqCtrl m n w = setSeqSt (m.setFlagOf (rSN_SEQ_CFG n) 16 false) n { seqSt m n with waiting := none } := by
  unfold writeSeqCtrl
  simp only [harm, hdisarm, htrig, Bool.false_eq_true, false_and, if_false, if_true]

/-- TRIG alone is a trigger of a sequence that software triggers (R422). -/
theorem writeSeqCtrl_trig (harm : flag w 0 = false) (hdisarm : flag w 1 = false) (htrig : flag w 2 = true) (h : seqTrigger m n = 2) :
    writeSeqCtrl m n w = trigger m n 0 := by
  unfold writeSeqCtrl
  simp only [harm, hdisarm, htrig, h, Bool.false_eq_true, false_and, and_self, if_false, if_true]

/-- A trigger of a sequence that neither runs nor waits makes it wait for its controller (R422, R424). -/
theorem trigger_waits (ibi : Nat) (harmed : seqArmed m n = true) (hrun : (seqSt m n).running = false) (hwait : (seqSt m n).waiting = none)
    (hnow : (seqSt m n).lastTrig ≠ some m.clk.now) : trigger m n ibi =
      setSeqSt (setSeqSt m n { seqSt m n with lastTrig := some m.clk.now }) n
        { seqSt m n with lastTrig := some m.clk.now, waiting := some ibi } := by
  unfold trigger
  simp only [harmed, hrun, hwait, hnow, Bool.not_true, Bool.not_false, Bool.false_eq_true, or_self, if_false, if_true, Option.isSome_none]
end

/-- Settles O22: each write is the register's own, in the case that its fields and the machine select. -/
theorem sensorWrites : Obligations.SensorWrites := by
  unfold Obligations.SensorWrites
  intro s p v ctx n c k q found a m src kind owner off need vc
  have hgo (hv : flag v 0 = true) : flag (v &&& 1#32) 0 = true := by rwa [flag_and_one]
  have hi3c {found : List (Fin 11)} {M : Mach} (ok : WriteOk m p (rSN_I3C_CFG k.val) ctx)
      (hM : writeI3cCfg m k.val found (v &&& 0xFF03#32) = M) : Leaves (.snI3cCfg p k found v) s M :=
    leaves_effect (f := fun m => i3cCfgWrite m p k.val found v) rfl ((i3cCfgWrite_ok ok found v).trans hM)
  have hen : flag (v &&& 0xFF03#32) 0 = flag v 0 := flag_and_of_kept (by decide)
  have honly : flag (v &&& 0xFF03#32) 1 = flag v 1 := flag_and_of_kept (by decide)
  refine ⟨fun ok hv hk hs => ⟨fun hg => ?_, fun hg h5 => ?_⟩,
    fun ok hv => ⟨fun hb ha hd hal hr => leaves_writeRow rfl ((pathWord_cmCommit _ v c ok).trans (writeCmCommit_accepted (hgo hv) hb ha hd hal hr)),
      fun ha => leaves_writeRow rfl ((pathWord_cmCommit _ v c ok).trans (writeCmCommit_refused (hgo hv) ha))⟩,
    fun ok hoff h => hi3c ok (writeI3cCfg_plain hoff found (by rwa [hen, honly])),
    fun ok hoff hon hi => hi3c ok (writeI3cCfg_alone hoff (hen.trans hon) (honly.trans hi)),
    fun ok => ⟨fun ha => leaves_writeRow rfl ((pathWord_snSeqCtrl _ _ q ok).trans (writeSeqCtrl_arm (by decide) (by decide) (by decide) ha)),
      leaves_writeRow rfl ((pathWord_snSeqCtrl _ _ q ok).trans (writeSeqCtrl_disarm (by decide) (by decide) (by decide))),
      fun ht ha hr hw hl => ⟨_, leaves_writeRow rfl ((pathWord_snSeqCtrl _ _ q ok).trans
        ((writeSeqCtrl_trig (by decide) (by decide) (by decide) ht).trans (trigger_waits 0 ha hr hw hl))), rfl⟩⟩⟩
  · exact leaves_writeRow rfl ((pathWord_snBindCommit _ v n ok).trans ((writeBindCommit_go (hgo hv) hk hs).trans (if_pos hg)))
  · have hboundary : ¬(strKind m n.val = 5 ∨ strKind m n.val = 6) := not_or.2 ⟨h5.ne, (h5.trans (by decide)).ne⟩
    exact leaves_writeRow rfl ((pathWord_snBindCommit _ v n ok).trans ((writeBindCommit_go (hgo hv) hk hs).trans
      ((if_neg (ne_false_of_eq_true hg)).trans (if_neg hboundary))))

end Sys2Proof.Machine
end

section
/-!
PROOFS. The camera: frames (R412, R413, R415), long packets (R411, R412) and lane states (R410).
-/
namespace Sys2Proof.Machine

/-! ## Frames -/

section
variable {m : Mach} {v csi : Nat} {late : Bool}

/-- A receiver that does not run, or a VC context that is off, takes no Frame Start (R410, R412). -/
theorem frameStart_idle (h : ¬(rxRuns m (v / 4) = true ∧ m.flagOf (rCM_VC_CFG v) 0 = true)) : frameStart m v csi late = m :=
  if_pos ((not_and_or.1 h).imp (by simp) (by simp))

/-- The machine that has counted a Frame Start (R413). -/
def frameCounted (m : Mach) (v : Nat) : Mach := m.setRegN (rCM_FRAME_COUNT v) ((m.regN (rCM_FRAME_COUNT v) + 1) % 2 ^ 32)

/-- The frame that opens now in a stream (R412, R413). -/
def frameOpened (m : Mach) (v csi n : Nat) : Frame :=
  { stream := n, count := (m.regN (rCM_FRAME_COUNT v) + 1) % 2 ^ 32, csi := csi % 65536, stamp := m.clk.now, feStamp := 0,
    alloc := (vctx m v).alloc, gen := (vctx m v).gen, off := (vctx m v).off, pitch := fld ((frameCounted m v).reg (rCM_LINE_PITCH v)) 0 15,
    maxLines := fld ((frameCounted m v).reg (rCM_LINE_PITCH v)) 16 13, seen := 0, lines := 0, byteCount := 0, bad := 0,
    flags := coarseFlag (frameCounted m v), phyRaised := false, ovfRaised := false }

theorem takeBind_none {n : Nat} (h : (sctx m n).bind = none) : takeBind m n = m := by
  unfold takeBind
  dsimp only
  rw [h]

theorem transferCommit_none {count : Nat} (h : (vctx m v).pend = none) : transferCommit m v late count = m := by
  unfold transferCommit
  dsimp only
  rw [h]

theorem vctx_setVctx_same (m : Mach) (v : Nat) (c : VCtx) : vctx (setVctx m v c) v = c := tabGet_tabSet_same ..

section
variable (hrx : rxRuns m (v / 4) = true) (hon : m.flagOf (rCM_VC_CFG v) 0 = true) (hf : (vctx m v).frame = none)
include hrx hon hf

/-- Without a stream no frame opens (R406, R412). -/
theorem frameStart_unbound (h : vcStream m v = none) : frameStart m v csi late = m := by
  unfold frameStart
  simp only [hrx, hon, hf, h, Bool.not_true, Bool.false_eq_true, or_self, if_false, Option.isSome_none]

/-- A Frame Start of a bound VC context that nothing waits for opens a frame (R412, R413, R415). -/
theorem frameStart_opens {n : Nat} (h : vcStream m v = some n) (hb : (sctx m n).bind = none) (hp : (vctx m v).pend = none) :
    frameStart m v csi late =
      (setVctx (frameCounted m v) v { vctx m v with frame := some (frameOpened m v csi n) }).setFlagOf (rCM_VC_STATE v) 1 true := by
  have hcount : transferCommit (frameCounted m v) v late ((m.regN (rCM_FRAME_COUNT v) + 1) % 2 ^ 32) = frameCounted m v :=
    transferCommit_none hp
  unfold frameCounted at hcount
  unfold frameStart
  simp only [hrx, hon, hf, h, takeBind_none hb, hcount, Bool.not_true, Bool.false_eq_true, or_self, if_false, Option.isSome_none, ne_eq,
    not_true_eq_false]
  rfl
end

/-! ## Packets -/

section
variable {dt : Nat} {bs : List Byte} {ecc : Ecc} {crcBad lost : Bool}

/-- The machine that has counted a long packet whose data type R410 does not name. -/
def packetNoted (m : Mach) (v dt : Nat) : Mach := if knownDt dt then m else m.satFld (rCM_RX_ERR (v / 4)) 24 8 1

theorem longPacket_idle (h : ¬rxRuns m (v / 4) = true) : longPacket m v dt bs ecc crcBad lost = m := if_pos (by simpa using h)

variable (hrx : rxRuns m (v / 4) = true)
include hrx

/-- A header with two wrong bits is counted, and raises CM_PHY_ERR (R412). -/
theorem longPacket_double (h : ecc = .double) :
    longPacket m v dt bs ecc crcBad lost = phyError (m.satFld (rCM_RX_ERR (v / 4)) 8 8 1) v :=
  (if_neg (by rw [hrx]; decide)).trans (if_pos h)

/-- A packet that a VC context takes is a line of its frame if its data type is the context's, and is dropped otherwise (R411, R412). -/
theorem longPacket_taken (h : ecc ≠ .double) : longPacket m v dt bs ecc crcBad lost =
    if (packetNoted m v dt).flagOf (rCM_VC_CFG v) 0 = false then packetNoted m v dt
    else if (packetNoted m v dt).fldOf (rCM_VC_CFG v) 2 6 ≠ dt ∨ knownDt dt = false then
      (packetNoted m v dt).setRegN (rCM_DT_DROP v) ((packetNoted m v dt).regN (rCM_DT_DROP v) + 1)
    else frameLine (packetNoted m v dt) v dt bs crcBad lost := by
  refine ((if_neg (by rw [hrx]; decide)).trans (if_neg h)).trans ?_
  refine if_congr (by rw [Bool.not_eq_true']; rfl) rfl (if_congr (by rw [Bool.not_eq_true']; rfl) rfl rfl)
end
end

/-! ## Frame records -/

section
variable {s : State} {v : Fin 8}

theorem leaves_frameRecord_none (h : (vctx s.taken v.val).closed = []) : Leaves (.frameRecord v) s s.taken :=
  leaves_effect rfl (by dsimp only; rw [h])

/-- The oldest frame that is closed writes its record into its stream (R413). -/
theorem leaves_frameRecord {f : Frame} {fs : List Frame} (h : (vctx s.taken v.val).closed = f :: fs) : Leaves (.frameRecord v) s
    (produce (setVctx s.taken v.val { vctx s.taken v.val with closed := fs }) f.stream 2 f.stamp f.flags 22 v.val
      (leBytes 4 f.count ++ leBytes 2 f.csi ++ leBytes 2 f.lines ++ leBytes 4 0)
      (leBytes 8 f.feStamp ++ leBytes 4 f.byteCount ++ leBytes 4 f.alloc ++ leBytes 4 f.off ++ leBytes 2 f.bad)) :=
  leaves_effect rfl (by dsimp only; rw [h])
end

/-! ## Lane states -/

/-- What a lane shows after an event: in its stop state, in ULPS, or in neither (R410). -/
def laneShown (e : LaneEv) : Nat := if e = .stop then 0 else if e = .ulps then 1 else 2

/-- The machine that shows a lane's new state (R410). -/
def lanesShown (m : Mach) (r l : Nat) (e : LaneEv) : Mach :=
  rxStatus { m with sn := { m.sn with lanes := tabSet m.sn.lanes (2 * r + l) (laneShown e) 0 } } r

/-- A lane's state is shown while its receiver runs; a start-of-transmission error raises CM_PHY_ERR (R410). -/
theorem leaves_dphyLaneStateChange (s : State) (r l : Fin 2) (e : LaneEv) : Leaves (.dphyLaneStateChange r l e) s
    (if rxRuns s.taken r.val = false then s.taken
    else if e = .hsSotError then raiseD ((lanesShown s.taken r.val l.val e).satFld (rCM_RX_ERR r.val) 0 8 1) 0x0904 r.val
    else lanesShown s.taken r.val l.val e) := by
  refine leaves_effect rfl (if_congr (by rw [Bool.not_eq_true']) rfl ?_)
  cases e <;> rfl

end Sys2Proof.Machine
end

section
/-!
PROOFS. In-band interrupts (R418, R419), capture sequences (R421–R425) and wheels (R426–R428), and the events of the camera and the sensors.
-/
namespace Sys2Proof.Machine

/-! ## In-band interrupts -/

/-- The controller is enabled for I3C, and its pads have their supply (R418, R754). -/
def I3cLive (m : Mach) (k : Nat) : Prop := m.flagOf (rSN_I3C_CFG k) 0 = true ∧ m.flagOf (rSN_I3C_CFG k) 1 = false ∧ m.pd.vioA = true

theorem not_i3cLive_iff {m : Mach} {k : Nat} : ¬I3cLive m k ↔
    (!m.flagOf (rSN_I3C_CFG k) 0) = true ∨ m.flagOf (rSN_I3C_CFG k) 1 = true ∨ (!m.pd.vioA) = true := by
  simp only [I3cLive, not_and_or, Bool.not_eq_true, Bool.not_eq_false, Bool.not_eq_true']

/-- The entry of a controller's table that has a dynamic address and is no I2C device's (R419). -/
def ibiTarget (m : Mach) (k addr : Nat) : Option Nat :=
  (List.range 11).find? (fun i => addr != 0 && m.fldOf (rSN_I3C_DEV k i) 8 7 == addr && !m.flagOf (rSN_I3C_DEV k i) 16)

section
variable {s : State} {k : Fin 2} {addr : Nat} (data : List Byte)

theorem leaves_ibi_idle (h : ¬I3cLive s.taken k.val) : Leaves (.ibi k addr data) s s.taken := leaves_effect rfl (if_pos (not_i3cLive_iff.1 h))

variable (h : I3cLive s.taken k.val)
include h

/-- An interrupt from an address that is not in the table is refused (R419). -/
theorem leaves_ibi_unknown (ht : ibiTarget s.taken k.val addr = none) : Leaves (.ibi k addr data) s (nackIbi s.taken k.val) := by
  unfold ibiTarget at ht
  refine leaves_effect rfl ((if_neg (mt not_i3cLive_iff.2 (not_not_intro h))).trans ?_)
  rw [ht]

/-- An interrupt from an entry without IBI_EN is refused; an accepted one posts its wake event, and triggers the sequence that the entry
names and that waits for it (R419, R422). -/
theorem leaves_ibi {i : Nat} (ht : ibiTarget s.taken k.val addr = some i) {d : Word} (hd : d = s.taken.reg (rSN_I3C_DEV k.val i)) {told : Mach}
    (htold : told = postEvent s.taken (0x8900 + k.val) 0) : Leaves (.ibi k addr data) s
      (if flag d 17 = false then nackIbi s.taken k.val
      else if flag d 24 = true ∧ seqTrigger told (fld d 20 4) = 1 ∧ seqCtrl told (fld d 20 4) = k.val then
        trigger told (fld d 20 4) (leNat (slice data 0 4))
      else told) := by
  subst hd htold
  unfold ibiTarget at ht
  refine leaves_effect rfl ((if_neg (mt not_i3cLive_iff.2 (not_not_intro h))).trans ?_)
  rw [ht]
  exact if_congr (by rw [Bool.not_eq_true']) rfl rfl
end

/-! ## Capture sequences -/

/-- The controller of a sequence is free for it: no sequence of the controller runs, and no lower one waits (R424). -/
def CtrlFree (m : Mach) (n : Nat) : Prop :=
  ¬(((List.range 16).filter (fun k => seqCtrl m k == seqCtrl m n)).any (fun k => (seqSt m k).running) = true ∨
    ((List.range 16).filter (fun k => seqCtrl m k == seqCtrl m n)).any (fun k => decide (k < n) && (seqSt m k).waiting.isSome) = true)

/-- The machine in which a sequence's run begins (R423, R424). -/
def runStarted (m : Mach) (n d : Nat) : Mach :=
  setSeqSt m n { seqSt m n with waiting := none, running := true, step := 0, stamp := none, source := strSource m (seqStream m n),
                                bytes := [], ibi := d, err := false, coarse := false, abort := none, delay := none }

/-- A sequence with the bytes that its step's transaction brought (R423). -/
def seqGot (m : Mach) (n : Nat) (ok : Bool) (bs : List Byte) : SeqSt :=
  let w := seqStep m n (seqSt m n).step
  let nn := if bits w 0 4 = 1 then 0 else bits w 16 8
  { seqSt m n with bytes := (seqSt m n).bytes ++ (if ok then slice bs 0 nn else bs.take nn) }

section
variable {s : State} {n : Fin 16}

theorem leaves_sequenceRunStart_none (h : (seqSt s.taken n.val).waiting = none) : Leaves (.sequenceRunStart n) s s.taken :=
  leaves_effect rfl (by dsimp only; rw [h])

/-- A sequence that waits starts once its controller is free (R424). -/
theorem leaves_sequenceRunStart {d : Nat} (h : (seqSt s.taken n.val).waiting = some d) :
    (CtrlFree s.taken n.val → Leaves (.sequenceRunStart n) s (runStep (runStarted s.taken n.val d) n.val)) ∧
      (¬CtrlFree s.taken n.val → Leaves (.sequenceRunStart n) s s.taken) :=
  ⟨fun hf => leaves_effect rfl (by dsimp only; rw [h]; exact if_neg hf),
    fun hf => leaves_effect rfl (by dsimp only; rw [h]; exact if_pos (not_not.1 hf))⟩

/-- No transaction is under way of a sequence that does not run, or that waits in a DELAY (R421, R423). -/
theorem leaves_busTransactionDone_none (ok : Bool) (bs : List Byte)
    (h : (seqSt s.taken n.val).running = false ∨ (seqSt s.taken n.val).delay ≠ none) : Leaves (.busTransactionDone n ok bs) s s.taken :=
  leaves_effect rfl (if_pos (h.imp (fun hr => by rw [hr]; rfl) Option.isSome_iff_ne_none.2))

/-- A transaction ends the run that was aborted or that it fails, and lets another go on (R423, R425, R754). -/
theorem leaves_busTransactionDone (ok : Bool) (bs : List Byte) (hr : (seqSt s.taken n.val).running = true)
    (hd : (seqSt s.taken n.val).delay = none) {got : SeqSt} (hg : got = seqGot s.taken n.val ok bs) : Leaves (.busTransactionDone n ok bs) s
      (if (seqSt s.taken n.val).abort.isSome then endRun (setSeqSt s.taken n.val got) n.val
      else if ok = false ∨ s.taken.pd.vioA = false then
        endRun (raiseT (setSeqSt s.taken n.val { got with err := true }) 0x0906 (seqOwner s.taken n.val) n.val) n.val
      else runStep (setSeqSt s.taken n.val { got with step := (seqSt s.taken n.val).step + 1 }) n.val) := by
  subst hg
  refine leaves_effect rfl ((if_neg (not_or.2 ⟨by rw [hr]; decide, by rw [hd]; decide⟩)).trans (if_congr Iff.rfl rfl (if_congr ?_ rfl rfl)))
  rw [Bool.not_eq_true', Bool.not_eq_true']

theorem leaves_sequenceDelayEnd_none (h : (seqSt s.taken n.val).delay = none) : Leaves (.sequenceDelayEnd n) s s.taken :=
  leaves_effect rfl (by dsimp only; rw [h])

/-- A run goes on with its next step at the end of a DELAY (R421). -/
theorem leaves_sequenceDelayEnd {d : Nat} (h : (seqSt s.taken n.val).delay = some d) : Leaves (.sequenceDelayEnd n) s
    (runStep (setSeqSt (advanceTo s.taken d) n.val { seqSt s.taken n.val with delay := none, step := (seqSt s.taken n.val).step + 1 }) n.val) :=
  leaves_effect rfl (by dsimp only; rw [h])
end

/-! ## Wheels -/

/-- Edges of the input are counted: it is on, is not the B line of a pair, and its pads have their supply (R426, R754). -/
def WheelOn (m : Mach) (w : Nat) : Prop := flag (m.reg (rSN_WHL_CFG w)) 0 = true ∧ isBLine m w = false ∧ m.pd.vioA = true

theorem not_wheelOn_iff {m : Mach} {w : Nat} : ¬WheelOn m w ↔
    (!flag (m.reg (rSN_WHL_CFG w)) 0) = true ∨ isBLine m w = true ∨ (!m.pd.vioA) = true := by
  simp only [WheelOn, not_and_or, Bool.not_eq_true, Bool.not_eq_false, Bool.not_eq_true']

/-- The input is the A line of a quadrature pair (R426). -/
def IsQuad (m : Mach) (w : Nat) : Prop := w % 2 = 0 ∧ flag (m.reg (rSN_WHL_CFG w)) 2 = true

theorem isQuad_iff {m : Mach} {w : Nat} : (w % 2 == 0 && flag (m.reg (rSN_WHL_CFG w)) 2) = true ↔ IsQuad m w := by
  simp only [IsQuad, Bool.and_eq_true, beq_iff_eq]

/-- The machine that has written the report due before an edge's stamp (R428). -/
def edgeReported (m : Mach) (w : Nat) : Mach := if (wheelSt m w).next ≤ edgeStamp m w then wheelReport m w else m

section
variable {s : State} {w : Fin 4}

theorem leaves_wheelEdge_idle (ev : WheelEv) (h : ¬WheelOn s.taken w.val) : Leaves (.wheelEdge w ev) s s.taken :=
  leaves_effect rfl (if_pos (not_wheelOn_iff.1 h))

variable {m x : Mach} (hm : m = s.taken) (hx : x = edgeReported m w.val) (h : WheelOn m w.val)
include hm hx h

section
variable (hq : ¬IsQuad m w.val)
include hq

/-- A pulse input counts its rising edges up (R426). -/
theorem leaves_wheelEdge_rise : Leaves (.wheelEdge w .rise) s (countEdge x w.val 1 (edgeStamp m w.val)) := by
  subst hm hx
  exact leaves_effect rfl ((if_neg (mt not_wheelOn_iff.2 (not_not_intro h))).trans (if_neg (mt isQuad_iff.1 hq)))

/-- A pulse input counts its falling edges up where it counts both (R426). -/
theorem leaves_wheelEdge_fall : Leaves (.wheelEdge w .fall) s
    (if flag (m.reg (rSN_WHL_CFG w.val)) 1 = false then x else countEdge x w.val 1 (edgeStamp m w.val)) := by
  subst hm hx
  refine leaves_effect rfl ((if_neg (mt not_wheelOn_iff.2 (not_not_intro h))).trans (if_congr ?_ rfl rfl))
  rw [or_iff_right (mt isQuad_iff.1 hq), Bool.not_eq_true']
end

section
variable (hq : IsQuad m w.val)
include hq

/-- Both lines of a pair that change at once are an error (R426). -/
theorem leaves_wheelEdge_bothLines : Leaves (.wheelEdge w .bothLines) s
    (raiseT (setWheelSt x w.val { wheelSt x w.val with quadErr := true }) 0x0909
      (if strKind x (fld (m.reg (rSN_WHL_CFG w.val)) 16 6) = 4 then strOwner x (fld (m.reg (rSN_WHL_CFG w.val)) 16 6) else 0) w.val) := by
  subst hm hx
  exact leaves_effect rfl ((if_neg (mt not_wheelOn_iff.2 (not_not_intro h))).trans (if_neg (by rw [isQuad_iff.2 hq]; decide)))

/-- A pair counts up or down with its direction (R426). -/
theorem leaves_wheelEdge_turns : Leaves (.wheelEdge w .up) s (countEdge x w.val 1 (edgeStamp m w.val)) ∧
    Leaves (.wheelEdge w .down) s (countEdge x w.val (-1) (edgeStamp m w.val)) := by
  subst hm hx
  have hon := mt not_wheelOn_iff.2 (not_not_intro h)
  have hpair := isQuad_iff.2 hq
  exact ⟨leaves_effect rfl ((if_neg hon).trans (if_pos hpair)), leaves_effect rfl ((if_neg hon).trans (if_pos hpair))⟩
end
end

/-- Settles O45: each event finds nothing to do, or does what the model's operation says in that case. -/
theorem cameraAndSensorEvents : Obligations.CameraAndSensorEvents := by
  unfold Obligations.CameraAndSensorEvents
  intro s v csi dt addr late crcBad lost ok bs data ecc f fs r l e k n w ev m runs on c extra payload unknown lane shown live target told q frm point
    same free started nn got cfg quad stamp told2
  refine ⟨fun h => ⟨leaves_effect rfl (frameStart_idle h), leaves_effect rfl (if_neg h)⟩,
    leaves_effect rfl rfl, frameStart_unbound,
    fun n hr ho hf hs hb hp => ⟨frameOpened m v.val csi n, ?_, rfl, rfl, rfl, rfl, rfl, rfl, rfl, rfl, rfl⟩,
    fun hr ho => leaves_effect rfl (if_pos ⟨hr, ho⟩),
    fun hr => leaves_effect rfl (longPacket_idle hr), fun hr he => leaves_effect rfl (longPacket_double hr he),
    fun hr he hoff => leaves_effect rfl ((longPacket_taken hr he).trans (if_pos hoff)),
    fun hr he ho hk hd => leaves_effect rfl ((longPacket_taken hr he).trans ?_),
    fun hr he ho hdrop => leaves_effect rfl ((longPacket_taken hr he).trans ?_),
    leaves_frameRecord_none, leaves_frameRecord, fun hr => ?_, fun hr he => ?_, fun hr he => ?_,
    leaves_ibi_idle data, leaves_ibi_unknown data, fun hlive i ht => ?_,
    fun hon hv => leaves_effect rfl (if_pos (by simp [m, hon, hv])), fun h => leaves_effect rfl (if_neg (by simpa [or_iff_not_imp_left] using h)),
    fun h => leaves_effect rfl (if_pos (h.imp_left (congrArg (!·)))),
    fun ha ht => leaves_effect rfl (if_neg (not_or.2 ⟨by simp [m, ha], not_not_intro ht⟩)),
    leaves_sequenceRunStart_none, fun d => leaves_sequenceRunStart,
    leaves_busTransactionDone_none ok bs, fun hr hd => ⟨fun ha => ?_, fun ha hbad => ?_, fun ha hok hv => ?_⟩,
    leaves_sequenceDelayEnd_none, fun d => leaves_sequenceDelayEnd,
    fun h => ?_, fun hon hb hv => ?_,
    fun h => leaves_effect rfl (if_pos (h.imp_left (congrArg (!·)))), fun hon hb => leaves_effect rfl (if_neg (by simp [m, hon, hb]))⟩
  · rw [frameStart_opens hr ho hf hs hb hp]
    exact congrArg VCtx.frame (vctx_setVctx_same ..)
  · exact (if_neg (ne_false_of_eq_true ho)).trans (if_neg (not_or.2 ⟨not_not_intro hd, ne_false_of_eq_true hk⟩))
  · exact (if_neg (ne_false_of_eq_true ho)).trans (if_pos hdrop.symm)
  · have hl := leaves_dphyLaneStateChange s r l e
    rwa [if_pos hr] at hl
  · have hl := leaves_dphyLaneStateChange s r l e
    rwa [if_neg (ne_false_of_eq_true hr), if_neg he] at hl
  · have hl := leaves_dphyLaneStateChange s r l e
    rwa [if_neg (ne_false_of_eq_true hr), if_pos he] at hl
  · intro d
    have hl := leaves_ibi data hlive ht rfl rfl
    refine ⟨fun hd => by rwa [if_pos hd] at hl, fun hd hno => ?_, fun hd h24 htrig hctrl => ?_⟩
    · have hnone : ¬(flag d 24 = true ∧ seqTrigger told (fld d 20 4) = 1 ∧ seqCtrl told (fld d 20 4) = k.val) := by
        simpa only [not_and_or, Bool.not_eq_true] using hno
      rwa [if_neg (ne_false_of_eq_true hd), if_neg hnone] at hl
    · rwa [if_neg (ne_false_of_eq_true hd), if_pos ⟨h24, htrig, hctrl⟩] at hl
  · have hl := leaves_busTransactionDone ok bs hr hd rfl
    rwa [if_pos (Option.isSome_iff_ne_none.2 ha)] at hl
  · have hl := leaves_busTransactionDone ok bs hr hd rfl
    rwa [if_neg (by rw [ha]; decide), if_pos hbad] at hl
  · have hl := leaves_busTransactionDone ok bs hr hd rfl
    rwa [if_neg (by rw [ha]; decide), if_neg (not_or.2 ⟨ne_false_of_eq_true hok, ne_false_of_eq_true hv⟩)] at hl
  · refine leaves_wheelEdge_idle ev fun ⟨hon, hb, hv⟩ => ?_
    rcases h with h | h | h
    · exact ne_false_of_eq_true hon h
    · exact ne_true_of_eq_false hb h
    · exact ne_false_of_eq_true hv h
  · have hfall (hq : ¬quad) := leaves_wheelEdge_fall (s := s) rfl rfl ⟨hon, hb, hv⟩ hq
    refine ⟨leaves_wheelEdge_rise rfl rfl ⟨hon, hb, hv⟩, fun hq hboth => ?_, fun hq hone => ?_,
      leaves_wheelEdge_bothLines rfl rfl ⟨hon, hb, hv⟩, fun hq => (leaves_wheelEdge_turns rfl rfl ⟨hon, hb, hv⟩ hq).1,
      fun hq => (leaves_wheelEdge_turns rfl rfl ⟨hon, hb, hv⟩ hq).2⟩
    · have hl := hfall hq
      rwa [if_neg (ne_false_of_eq_true hboth)] at hl
    · have hl := hfall hq
      rwa [if_pos hone] at hl

end Sys2Proof.Machine
end

section
/-!
PROOFS. Writes of the fusion engine's control registers: its start and its stop (R451, R464, R465), and FORCE_MASK (R457).
-/
namespace Sys2Proof.Machine

/-! ## The registers' rows -/

theorem writeRow_fuCtrl : WriteRow rFU_CTRL 0 0 rFU_CTRL 1 := by decide
theorem writeRow_fuSnsCtrl : ∀ n : Fin 16, WriteRow (rFU_SNS_CTRL n.val) n.val 0 (rFU_SNS_CTRL 0) 1 := by decide

/-- FU_CTRL is none of the registers that `writeStreams` tells apart before it. -/
theorem fuCtrl_ne : rFU_CTRL ≠ rCM_RX_CFG 0 ∧ rFU_CTRL ≠ rCM_RX_CFG 1 ∧ rFU_CTRL ≠ rCM_VC_CFG 0 ∧ rFU_CTRL ≠ rCM_COMMIT 0 ∧
    rFU_CTRL ≠ rSN_BIND_COMMIT 0 ∧ rFU_CTRL ≠ rSN_I3C_CFG 0 ∧ rFU_CTRL ≠ rSN_SEQ_CTRL 0 ∧ rFU_CTRL ≠ rSN_WHL_CFG 0 := by decide

/-- The family's addresses are none of the single registers that `writeStreams` tells apart before it, nor the engine's own. -/
theorem fuSnsCtrl_ne : ∀ n : Fin 16, rFU_SNS_CTRL n.val ≠ rCM_RX_CFG 0 ∧ rFU_SNS_CTRL n.val ≠ rCM_RX_CFG 1 ∧
    rFU_SNS_CTRL n.val ≠ rFU_CTRL ∧ rFU_SNS_CTRL n.val ≠ rFU_OUT_SEQ ∧ rFU_SNS_CTRL n.val ≠ rFU_SNS_CFG n.val := by decide

theorem applyReg_fusion {f : Fuses} {m : Mach} {r : RegRow} {ctx i j a : Nat} {v : Word} (hb : blockOf a = 13) (hacc : r.acc ≠ .w1c) :
    applyReg f m r ctx i j a v = writeStreams m r ctx i a v := by
  simp only [applyReg, hacc, if_false, hb]

section
variable (f : Fuses) {m : Mach} {p : Path} {ctx : Nat} (v : Word)

theorem pathWord_fuCtrl (ok : WriteOk m p rFU_CTRL ctx) : pathWord f m p rFU_CTRL v = writeFuCtrl m (v &&& 1#32) := by
  obtain ⟨r, hbase, hacc, h⟩ := pathWord_single writesAs_fuCtrl writeRow_fuCtrl ok f v
  obtain ⟨hrx, hrx', hvc, hcommit, hbind, hi3c, hseq, hwhl⟩ := fuCtrl_ne
  rw [h, applyReg_fusion writesAs_fuCtrl.2.1 hacc]
  simp only [writeStreams, hbase, hrx, hrx', hvc, hcommit, hbind, hi3c, hseq, hwhl, or_self, if_false, if_true]

theorem pathWord_fuSnsCtrl (n : Fin 16) (ok : WriteOk m p (rFU_SNS_CTRL n.val) ctx) :
    pathWord f m p (rFU_SNS_CTRL n.val) v = writeFuSnsCtrl m n.val (v &&& 1#32) := by
  obtain ⟨r, hbase, hacc, h⟩ := pathWord_single (writesAs_fuSnsCtrl n) (writeRow_fuSnsCtrl n) ok f v
  obtain ⟨hrx, hrx', hctrl, -, -⟩ := fuSnsCtrl_ne n
  rw [h, applyReg_fusion (writesAs_fuSnsCtrl n).2.1 hacc]
  simp [writeStreams, hbase, hrx, hrx', hctrl]
end

/-! ## The start and the stop of the engine -/

/-- The reported step returns to F4, without an initialisation, and the entries' states are shown (R451, R464). -/
def stepReset (m : Mach) : Mach := showStates ((m.setFldOf rFU_STATUS 0 3 4).setFldOf rFU_STATUS 3 4 0)

/-- Every FU_SNS_FAILS_n is cleared (R464). -/
def failsCleared (m : Mach) : Mach := (List.range 16).foldl (fun m n => m.setRegN (rFU_SNS_FAILS n) 0) m

/-- An entry at a start of the engine: OK, or MASKED where FORCE_MASK holds it so (R457, R464). -/
def startEnt (m : Mach) (n : Nat) : FuEnt :=
  if forced m n then { FuEnt.init m.clk.now with st := 2, open' := false } else FuEnt.init m.clk.now

/-- The engine beside its registers as it starts (R451, R464). -/
def startFu (m : Mach) : Fusion :=
  { m.fu with ents := (List.range 16).map (startEnt m), q := [dInt 1, 0, 0, 0], v := [0, 0, 0], p := [0, 0, 0], bg := [0, 0, 0], ba := [0, 0, 0],
              kf := 0, still := 0, accSum := [], magSum := [],
              nextK := ceilDiv (m.clk.now - m.regN rFU_GRID_PHASE) (max 1 (m.regN rFU_GRID_PERIOD)), lastStep := m.clk.now - 1, hold := 0,
              lastOdo := m.clk.now, odoSpeed := 0, owesReset := false, late := false }

/-- The machine whose engine is enabled and whose output starts afresh (R463, R465). -/
def outputOpened (m : Mach) : Mach :=
  let w := m.reg rFU_OUT_RING
  let on := m.setFlagOf rFU_CTRL 0 true
  ({ on with fu := { on.fu with count := 0, ringGen := ringGen on (fld w 31 1) (fld w 0 31) } } : Mach).setRegN rFU_OUT_SEQ 0

section
variable (m : Mach)

theorem startFusion_eq : startFusion m = stepReset (failsCleared { m with fu := startFu m }) := rfl

theorem showStates_reg {k : Nat} (h : k ≠ rFU_SNS_STATE) : (showStates m).reg k = m.reg k := reg_setRegN_ne m _ h

theorem stepReset_reg {k : Nat} (h : k ≠ rFU_SNS_STATE) (hs : k ≠ rFU_STATUS) : (stepReset m).reg k = m.reg k := by
  rw [stepReset, showStates_reg _ h, reg_setFldOf_ne _ hs, reg_setFldOf_ne _ hs]

theorem stepReset_fu : (stepReset m).fu = m.fu := rfl

theorem fuStep_stepReset : fuStep (stepReset m) = 4 := by
  rw [fuStep, Mach.fldOf, stepReset, showStates_reg _ (by decide), Mach.setFldOf, Mach.reg_setReg_same, fld_setFld_ne _ _ (by decide) (by decide)]
  exact fldOf_setFldOf_same m _ 4 (by decide)

theorem initDone_stepReset : initDone (stepReset m) = false := by
  rw [initDone, Mach.flagOf, stepReset, showStates_reg _ (by decide), Mach.setFldOf, Mach.reg_setReg_same, flag, testBit_setFld _ _ _ (by decide)]
  rfl

theorem foldl_setRegN_fu (a : Nat → Nat) (l : List Nat) : (l.foldl (fun m n => m.setRegN (a n) 0) m).fu = m.fu := by
  induction l generalizing m with
  | nil => rfl
  | cons n l ih => exact ih _

theorem foldl_setRegN_reg {k : Nat} (a : Nat → Nat) {l : List Nat} (h : ∀ n ∈ l, k ≠ a n) :
    (l.foldl (fun m n => m.setRegN (a n) 0) m).reg k = m.reg k := by
  induction l generalizing m with
  | nil => rfl
  | cons n l ih =>
    rw [List.forall_mem_cons] at h
    exact (ih _ h.2).trans (reg_setRegN_ne m 0 h.1)

theorem startFusion_fu : (startFusion m).fu = startFu m := by
  rw [startFusion_eq, stepReset_fu, failsCleared, foldl_setRegN_fu]

theorem startFusion_flag_ctrl : (startFusion m).flagOf rFU_CTRL 0 = m.flagOf rFU_CTRL 0 := by
  rw [Mach.flagOf, startFusion_eq, stepReset_reg _ (by decide) (by decide), failsCleared, foldl_setRegN_reg _ _ (by decide)]
  rfl

theorem startFusion_ents_length : (startFusion m).fu.ents.length = 16 := by
  rw [startFusion_fu, startFu, List.length_map, List.length_range]

/-- Each entry starts OK, or MASKED where FORCE_MASK holds it so (R457, R464). -/
theorem startFusion_ent_st {k : Nat} (hk : k < 16) : (fuEnt (startFusion m) k).st = if forced m k then 2 else 0 := by
  have hent : fuEnt (startFusion m) k = startEnt m k := by
    rw [fuEnt, startFusion_fu, startFu, List.getD_eq_getElem _ _ (by simpa using hk), List.getElem_map, List.getElem_range]
  rw [hent, startEnt]
  split <;> rfl

theorem outputOpened_flag_ctrl : (outputOpened m).flagOf rFU_CTRL 0 = true := by
  rw [Mach.flagOf, outputOpened, reg_setRegN_ne _ _ (by decide)]
  exact flagOf_setFlagOf_same m _ true (by decide)

theorem forced_outputOpened {k : Nat} (hk : k < 16) : forced (outputOpened m) k = forced m k := by
  obtain ⟨-, -, hctrl, hseq, -⟩ := fuSnsCtrl_ne ⟨k, hk⟩
  rw [forced, Mach.flagOf, outputOpened, reg_setRegN_ne _ _ hseq]
  exact congrArg (flag · 0) (reg_setFlagOf_ne m hctrl)
end

section
variable {m : Mach} {v : Word}

/-- An enable that changes nothing does nothing (R465). -/
theorem writeFuCtrl_same (h : flag v 0 = m.flagOf rFU_CTRL 0) : writeFuCtrl m v = m := if_pos h

theorem writeFuCtrl_stop (hon : m.flagOf rFU_CTRL 0 = true) (hv : flag v 0 = false) : writeFuCtrl m v = stepReset (m.setFlagOf rFU_CTRL 0 false) :=
  (if_neg (by rw [hv, hon]; decide)).trans (if_neg (ne_true_of_eq_false hv))

section
variable (hon : m.flagOf rFU_CTRL 0 = false) (hv : flag v 0 = true)
include hon hv

theorem writeFuCtrl_refused (hok : fusionOk m = false) : writeFuCtrl m v = raiseT m 0x0A03 (fuOwner m) 0 :=
  (if_neg (by rw [hv, hon]; decide)).trans ((if_pos hv).trans (if_pos (by rw [hok]; rfl)))

theorem writeFuCtrl_start (hok : fusionOk m = true) : writeFuCtrl m v = startFusion (outputOpened m) :=
  (if_neg (by rw [hv, hon]; decide)).trans ((if_pos hv).trans (if_neg (by rw [hok]; decide)))
end
end

/-! ## FORCE_MASK -/

/-- The machine with FORCE_MASK of an entry as a write sets it (R457). -/
def maskSet (m : Mach) (n : Nat) (b : Bool) : Mach := m.setFlagOf (rFU_SNS_CTRL n) 0 b

/-- A change of FORCE_MASK acts on an enabled entry of an enabled engine: it masks the entry, or opens its readmission (R457, R469). -/
theorem writeFuSnsCtrl_eq (m : Mach) (n : Fin 16) (v : Word) : writeFuSnsCtrl m n.val v =
    if m.flagOf rFU_CTRL 0 = false ∨ fuOn m n.val = false ∨ forced m n.val = flag v 0 then maskSet m n.val (flag v 0)
    else if flag v 0 then maskEnt (maskSet m n.val (flag v 0)) n.val 3 none
    else setFuEnt (maskSet m n.val (flag v 0)) n.val { fuEnt m n.val with open' := true, openAt := none, passes := 0, prev := none } := by
  obtain ⟨-, -, hctrl, -, hcfg⟩ := fuSnsCtrl_ne n
  have hon : (maskSet m n.val (flag v 0)).flagOf rFU_CTRL 0 = m.flagOf rFU_CTRL 0 := congrArg (flag · 0) (reg_setFlagOf_ne m hctrl.symm)
  have hent : fuOn (maskSet m n.val (flag v 0)) n.val = fuOn m n.val := congrArg (flag · 0) (reg_setFlagOf_ne m hcfg.symm)
  have hforced : forced (maskSet m n.val (flag v 0)) n.val = flag v 0 := flagOf_setFlagOf_same m _ _ (by decide)
  refine if_congr ?_ rfl (ite_congr rfl (fun _ => rfl) fun hv => if_neg ?_)
  · rw [← hon, ← hent, Bool.not_eq_true', Bool.not_eq_true']; rfl
  · rwa [← hforced] at hv

/-- Settles O23: each write is the register's own, in the case that its bit and the engine's state select. -/
theorem fusionWrites : Obligations.FusionWrites := by
  unfold Obligations.FusionWrites
  intro s p v ctx n m on set
  have hbit : flag (v &&& 1#32) 0 = flag v 0 := flag_and_one v
  refine ⟨fun ok => ?_, fun ok => ?_⟩
  · have hl {M : Mach} (hM : writeFuCtrl m (v &&& 1#32) = M) : Leaves (.fuCtrl p v) s M :=
      leaves_writeRow rfl ((pathWord_fuCtrl _ v ok).trans hM)
    refine ⟨fun hon hv hbad => hl (writeFuCtrl_refused hon (hbit.trans hv) hbad),
      fun hon hv hok => ⟨_, hl (writeFuCtrl_start hon (hbit.trans hv) hok), ?_, fuStep_stepReset _, initDone_stepReset _, ?_, ?_, ?_, ?_,
        startFusion_ents_length _, fun k hk => ?_⟩,
      fun hon hv => hl (writeFuCtrl_stop hon (hbit.trans hv)), fun h => hl (writeFuCtrl_same (hbit.trans h.symm))⟩
    · rw [startFusion_flag_ctrl, outputOpened_flag_ctrl]
    · rw [startFusion_fu, startFu]
    · rw [startFusion_fu, startFu]
    · rw [startFusion_fu, startFu]
    · rw [startFusion_fu]; rfl
    · rw [startFusion_ent_st _ hk, forced_outputOpened _ hk]
  · have hl := leaves_writeRow (i := .fuSnsCtrl p n v) (s := s) rfl ((pathWord_fuSnsCtrl _ v n ok).trans (writeFuSnsCtrl_eq _ n _))
    rw [hbit] at hl
    have hacts (hon : on = true) (hent : fuOn m n.val = true) (hf : forced m n.val ≠ flag v 0) :
        ¬(on = false ∨ fuOn m n.val = false ∨ forced m n.val = flag v 0) :=
      not_or.2 ⟨ne_false_of_eq_true hon, not_or.2 ⟨ne_false_of_eq_true hent, hf⟩⟩
    refine ⟨fun h => ?_, fun hon hent hf hv => ?_, fun hon hent hf hv => ?_⟩
    · rwa [if_pos h] at hl
    · rwa [if_neg (hacts hon hent (by rw [hf, hv]; decide)), if_pos hv] at hl
    · rwa [if_neg (hacts hon hent (by rw [hf, hv]; decide)), if_neg (ne_true_of_eq_false hv)] at hl

end Sys2Proof.Machine
end

section
/-!
PROOFS. The end of a transition (R476, R693): what training DRAM over the cached path does to the time that it takes, which
PowerAndWakeEvents leaves out.
-/
namespace Sys2Proof.Machine

theorem ended_now (m : Mach) : (ended m).clk.now = m.clk.now := congrArg Prod.fst (show (ended m).time = m.time by simp [ended])

theorem trained_now (m : Mach) (src : Nat) (full : Bool) : (trained m src full).clk.now = m.clk.now := congrArg Prod.fst (trained_time m src full)

/-- A transition ends at its due time, or now where that is over (R476). -/
theorem endTrans_now (m : Mach) (t : Trans) (mountOk : Bool) : (endTrans m t mountOk).clk.now = max m.clk.now t.due :=
  congrArg Prod.fst (show (endTrans m t mountOk).time = (advanceTo m t.due).time by simp [endTrans])

/-- A command leaves one machine, up to what the end of every command adds. -/
theorem ended_eq_of_leaves {i : Instr} {s : State} {M N : Mach} (hM : Leaves i s M) (hN : Leaves i s N) : ended M = ended N := by
  have h : Host.Outcome.next { s with mach := ended M } = .next { s with mach := ended N } := hM.symm.trans hN
  injection h with h
  exact congrArg State.mach h

/-- Where DRAM is trained over the cached path, the transition of DMC from off to on is due 192,000 reference cycles after it began (R693). -/
theorem leaves_domainTransitionComplete_cached {s : State} {t : Trans} {mountOk : Bool}
    (ht : s.taken.pm.trans.find? (fun t => t.dom == 15 && !t.xtal) = some t) (hon : t.tgt = 0) (hoff : t.src = 2) :
    Leaves (.domainTransitionComplete 15 mountOk false) s (trained (endTrans s.taken { t with due := t.begun + 192000 } mountOk) t.src false) := by
  refine leaves_effectF (f := fun f m => transitionEnd f m 15 mountOk false) rfl ?_
  simp [transitionEnd, ht, hon, hoff]

/-- The transition of DMC from off to on that began at time 0, due at the longest time of R476. -/
def dmcOn : Trans := { dom := 15, src := 2, tgt := 0, begun := 0, due := transTime true 15 2 0, xtal := false, req := 0 }

/-- The state after reset, with its start over, in which DMC goes from off to on. -/
def dmcGoesOn : State := { State.reset with mach := { Mach.first with pm := { Mach.first.pm with start := none, trans := [dmcOn] } } }

/-- Refutes O46: where DRAM is trained over the cached path, the model ends DMC's transition 192,000 reference cycles after its beginning (R693), and
not at the due time of full training, 1,920,000 cycles, at which the statement ends it. -/
theorem not_powerAndWakeEvents : ¬ Obligations.PowerAndWakeEvents := by
  unfold Obligations.PowerAndWakeEvents
  intro h
  obtain ⟨-, hcomplete, -⟩ := h dmcGoesOn 15 true false 0 0 dmcOn 0
  have hstated := (hcomplete rfl).1 rfl rfl
  have hmodel := leaves_domainTransitionComplete_cached (s := dmcGoesOn) (mountOk := true) (t := dmcOn) rfl rfl rfl
  have hnow := congrArg (fun m => m.clk.now) (ended_eq_of_leaves hstated hmodel)
  simp only [ended_now, trained_now, endTrans_now] at hnow
  exact absurd hnow (by decide)

end Sys2Proof.Machine
end

section
/-!
PROOFS. A step and the command that it takes (R674), what every step keeps (R575, R576, R701), and the order in which faults become records
(R701–R703).
-/
namespace Sys2Proof.Machine

/-! ## A step -/

theorem step_nil {s : State} (h : s.pending = []) : step s = .next { s with mach := idleTick s.mach } := by rw [step, h]

theorem step_cons {s : State} {c : Instr} {rest : List Instr} (h : s.pending = c :: rest) : step s = exec c { s with pending := rest } := by
  rw [step, h]

/-- Settles O52: the step's case of a queue that is not empty. -/
theorem stepTakesTheFront : Obligations.StepTakesTheFront := fun _ _ _ h => step_cons h

/-- Every command but the two that fuse acts on the machine alone. -/
theorem exec_acts {i : Instr} (s : State) (howner : ∀ cmd r, i ≠ .ownerEnroll cmd r) (hsvn : ∀ cmd, i ≠ .svnCommit cmd) :
    ∃ f, exec i s = s.effect f := by
  cases i with
  | ownerEnroll cmd r => exact absurd rfl (howner cmd r)
  | svnCommit cmd => exact absurd rfl (hsvn cmd)
  | _ => exact ⟨_, rfl⟩

/-- What a command leaves beside the machine: the queue stands, its faults have become records, and an enrolled owner and the fused counter
are not taken back (R575, R576, R701). -/
structure Settles (i : Instr) (s t : State) : Prop where
  pending : t.pending = s.pending
  settled : Settled t
  owner : ∀ k, s.fuses.owner = some k → t.fuses.owner = some k
  svn : s.fuses.svn ≤ t.fuses.svn
  fused : t.fuses ≠ s.fuses → (∃ cmd r, i = .ownerEnroll cmd r) ∨ ∃ cmd, i = .svnCommit cmd

/-- Whatever the command, it answers a next state, and settles. -/
theorem exec_settles (i : Instr) (s : State) : ∃ t, exec i s = .next t ∧ Settles i s t := by
  by_cases howner : ∃ cmd r, i = .ownerEnroll cmd r
  · obtain ⟨cmd, r, rfl⟩ := howner
    exact ⟨_, rfl, rfl, runEffect_raised .., fun k hk => by simp [hk], le_rfl, fun _ => .inl ⟨cmd, r, rfl⟩⟩
  by_cases hsvn : ∃ cmd, i = .svnCommit cmd
  · obtain ⟨cmd, rfl⟩ := hsvn
    refine ⟨_, rfl, rfl, runEffect_raised .., fun _ hk => hk, ?_, fun _ => .inr ⟨cmd, rfl⟩⟩
    show _ ≤ if harbourRuns s.mach cmd 0x55 noWait = true then max s.fuses.svn _ else s.fuses.svn
    split
    · exact le_max_left ..
    · exact le_rfl
  · obtain ⟨f, hf⟩ := exec_acts s (fun cmd r h => howner ⟨cmd, r, h⟩) fun cmd h => hsvn ⟨cmd, h⟩
    exact ⟨_, hf, rfl, runEffect_raised .., fun _ hk => hk, le_rfl, fun h => absurd rfl h⟩

/-- Settles O58: the idle step leaves the fault log and the fuses as they are, and every command settles. -/
theorem everyStepSettles : Obligations.EveryStepSettles := by
  unfold Obligations.EveryStepSettles
  intro s
  cases hp : s.pending with
  | nil =>
    exact ⟨_, step_nil hp, hp, fun h => (idleTick_raised _).trans (h.resolve_right (absurd rfl)), fun _ hk => hk, fun h => absurd rfl h⟩
  | cons c rest =>
    obtain ⟨t, ht, h⟩ := exec_settles c { s with pending := rest }
    refine ⟨t, (step_cons hp).trans ht, h.pending, fun _ => h.settled, h.owner, fun hf => (h.fused hf).imp ?_ ?_⟩
    · rintro ⟨cmd, r, rfl⟩
      exact ⟨cmd, r, rfl⟩
    · rintro ⟨cmd, rfl⟩
      exact ⟨cmd, rfl⟩

/-- Settles O57: the idle step fuses nothing, and no command takes the counter back. -/
theorem svnOnlyRises : Obligations.SvnOnlyRises := by
  refine ⟨rfl, fun s t h => ?_⟩
  cases hp : s.pending with
  | nil =>
    cases (step_nil hp).symm.trans h
    exact le_rfl
  | cons c rest =>
    obtain ⟨u, hu, hs⟩ := exec_settles c { s with pending := rest }
    cases hu.symm.trans ((step_cons hp).symm.trans h)
    exact hs.svn

/-! ## The order of the faults of a command -/

theorem insertRec_perm (r : FaultRec) (l : List FaultRec) : (insertRec r l).Perm (r :: l) := by
  induction l with
  | nil => exact .refl _
  | cons x xs ih =>
    unfold insertRec; split
    · exact .refl _
    · exact (ih.cons x).trans (.swap r x xs)

/-- A record joins a list in ascending CODE order. -/
theorem insertRec_sorted (r : FaultRec) {l : List FaultRec} (h : l.Pairwise (fun a b => a.code ≤ b.code)) :
    (insertRec r l).Pairwise (fun a b => a.code ≤ b.code) := by
  induction l with
  | nil => exact List.pairwise_singleton ..
  | cons x xs ih =>
    obtain ⟨hx, hxs⟩ := List.pairwise_cons.1 h
    unfold insertRec; split
    · next hlt => exact List.pairwise_cons.2 ⟨List.forall_mem_cons.2 ⟨hlt.le, fun y hy => hlt.le.trans (hx y hy)⟩, h⟩
    · next hle =>
      refine List.pairwise_cons.2 ⟨fun y hy => ?_, ih hxs⟩
      rcases List.mem_cons.1 ((insertRec_perm r xs).mem_iff.1 hy) with rfl | hy
      · exact Nat.le_of_not_lt hle
      · exact hx y hy

/-- A record joins those of its CODE as the last. -/
theorem filter_insertRec (r : FaultRec) (c : Nat) {l : List FaultRec} (h : l.Pairwise (fun a b => a.code ≤ b.code)) :
    (insertRec r l).filter (·.code == c) = l.filter (·.code == c) ++ if r.code = c then [r] else [] := by
  induction l with
  | nil => by_cases hc : r.code = c <;> simp [insertRec, hc]
  | cons x xs ih =>
    obtain ⟨hx, hxs⟩ := List.pairwise_cons.1 h
    unfold insertRec; split
    · next hlt =>
      by_cases hc : r.code = c
      · have hnone : (x :: xs).filter (·.code == c) = [] := by
          refine List.filter_eq_nil_iff.2 fun y hy => ?_
          have hy' : x.code ≤ y.code := (List.mem_cons.1 hy).elim (fun h => h ▸ le_rfl) (hx y)
          simp only [beq_iff_eq]
          omega
        rw [List.filter_cons_of_pos (by simpa using hc), hnone, if_pos hc, List.nil_append]
      · rw [List.filter_cons_of_neg (by simpa using hc), if_neg hc, List.append_nil]
    · rw [List.filter_cons, List.filter_cons, ih hxs]
      split <;> rfl

/-- The records of a command in the order in which they are written: ascending by CODE, and as raised within a CODE. -/
theorem sortRecs_spec (rs : List FaultRec) : (sortRecs rs).Perm rs ∧ (sortRecs rs).Pairwise (fun a b => a.code ≤ b.code) ∧
    ∀ c, (sortRecs rs).filter (·.code == c) = rs.filter (·.code == c) := by
  induction rs using List.reverseRecOn with
  | nil => exact ⟨.refl _, List.Pairwise.nil, fun _ => rfl⟩
  | append_singleton rs r ih =>
    obtain ⟨hperm, hsorted, hfilter⟩ := ih
    have hsort : sortRecs (rs ++ [r]) = insertRec r (sortRecs rs) := by simp [sortRecs]
    rw [hsort]
    refine ⟨(insertRec_perm r _).trans ((hperm.cons r).trans (List.perm_append_singleton r rs).symm), insertRec_sorted r hsorted, fun c => ?_⟩
    rw [filter_insertRec r c hsorted, hfilter, List.filter_append]
    by_cases hc : r.code = c <;> simp [hc]

/-! ## The rings -/

/-- The records of a ring that are unread (R703). -/
def unreadRecs (head tail : Nat) : Nat := (head + 2 ^ 16 - tail) % 2 ^ 16

section
variable {size head tail : Nat} {newest r : FaultRec}

theorem ringAct_merge (h : unreadRecs head tail ≠ 0 ∧ sameRec newest r = true) : ringAct size head tail newest r = .merge := if_pos h

theorem ringAct_lose (h : ¬(unreadRecs head tail ≠ 0 ∧ sameRec newest r = true)) (hfull : unreadRecs head tail = size) :
    ringAct size head tail newest r = .lose := (if_neg h).trans (if_pos hfull)

theorem ringAct_write (h : ¬(unreadRecs head tail ≠ 0 ∧ sameRec newest r = true)) (hroom : unreadRecs head tail ≠ size) :
    ringAct size head tail newest r = .write := (if_neg h).trans (if_neg hroom)
end

section
variable (x : Mach) (r : FaultRec)

/-- The place of the newest record of a tenant's ring, and of the device ring. -/
def lastPlace (t : Nat) : Nat := 64 * t + (x.fldOf (rEF_HEAD t) 0 16 + 2 ^ 16 - 1) % 64
def lastDevPlace : Nat := (x.fldOf rEF_DEV_HEAD 0 16 + 2 ^ 16 - 1) % 1024

/-- What the ring of a record's tenant, and the device ring, do with it. -/
def tenantAct : RingAct := ringAct 64 (x.fldOf (rEF_HEAD r.tenant) 0 16) (x.fldOf (rEF_TAIL r.tenant) 0 16)
  (tabGet x.ef.rings (lastPlace x r.tenant) FaultRec.zero) (hideRec r.tenant r)
def devAct : RingAct := ringAct 1024 (x.fldOf rEF_DEV_HEAD 0 16) (x.fldOf rEF_DEV_TAIL 0 16) (tabGet x.ef.dev (lastDevPlace x) FaultRec.zero) r

/-- A record counted once more. -/
def again (r : FaultRec) : FaultRec := { r with rept := satAdd 16 r.rept 1 }

variable {x r}

theorem writeTenantRing_merges (h : tenantAct x r = .merge) : writeTenantRing x r = { x with ef := { x.ef with
    rings := tabSet x.ef.rings (lastPlace x r.tenant) (again (tabGet x.ef.rings (lastPlace x r.tenant) FaultRec.zero)) FaultRec.zero } } := by
  unfold tenantAct lastPlace at h; unfold writeTenantRing; dsimp only; rw [h]; rfl

theorem writeTenantRing_loses (h : tenantAct x r = .lose) : writeTenantRing x r = x.satFld (rEF_LOST r.tenant) 0 16 1 := by
  unfold tenantAct lastPlace at h; unfold writeTenantRing; dsimp only; rw [h]

theorem writeTenantRing_writes (h : tenantAct x r = .write) : writeTenantRing x r = sendVec (({ x with ef := { x.ef with
    rings := tabSet x.ef.rings (64 * r.tenant + x.fldOf (rEF_HEAD r.tenant) 0 16 % 64) (hideRec r.tenant r) FaultRec.zero } } : Mach).incFld
      (rEF_HEAD r.tenant) 0 16 1) (2 * r.tenant + 1) := by
  unfold tenantAct lastPlace at h; unfold writeTenantRing; dsimp only; rw [h]

theorem writeDevRing_merges (h : devAct x r = .merge) : writeDevRing x r = { x with ef := { x.ef with
    dev := tabSet x.ef.dev (lastDevPlace x) (again (tabGet x.ef.dev (lastDevPlace x) FaultRec.zero)) FaultRec.zero } } := by
  unfold devAct lastDevPlace at h; unfold writeDevRing; dsimp only; rw [h]; rfl

theorem writeDevRing_loses (h : devAct x r = .lose) : writeDevRing x r = x.satFld rEF_DEV_LOST 0 16 1 := by
  unfold devAct lastDevPlace at h; unfold writeDevRing; dsimp only; rw [h]

theorem writeDevRing_writes (h : devAct x r = .write) : writeDevRing x r = ({ x with ef := { x.ef with
    dev := tabSet x.ef.dev (x.fldOf rEF_DEV_HEAD 0 16 % 1024) r FaultRec.zero } } : Mach).incFld rEF_DEV_HEAD 0 16 1 := by
  unfold devAct lastDevPlace at h; unfold writeDevRing; dsimp only; rw [h]
end

/-- A TAIL takes effect where it leaves no more unread than the ring holds (R703). -/
theorem writeEfTail_of (m : Mach) (head tail size v : Nat) :
    ((m.fldOf head 0 16 + 65536 - v) % 65536 ≤ size → writeEfTail m head tail size v = m.setRegN tail v) ∧
    (size < (m.fldOf head 0 16 + 65536 - v) % 65536 → writeEfTail m head tail size v = m) :=
  ⟨fun h => if_pos h, fun h => if_neg (Nat.not_le.2 h)⟩

theorem toNat_and_low16 (v : Word) : (v &&& 0xFFFF#32).toNat = v.toNat % 65536 := by
  rw [BitVec.toNat_and]
  exact Nat.and_two_pow_sub_one_eq_mod v.toNat 16

/-- Settles O55: the order of `sortRecs_spec`, the three things a ring does with a record, and the check of a TAIL. -/
theorem faultRecords : Obligations.FaultRecords := by
  unfold Obligations.FaultRecords
  intro s x r p t v ctx m head dhead unread dunread seen last dlast newest dnewest left dleft
  obtain ⟨hperm, hsorted, hfilter⟩ := sortRecs_spec x.ef.raised
  refine ⟨⟨sortRecs x.ef.raised, rfl, hperm, hsorted, hfilter⟩, fun hon => if_pos hon, fun hu hs => ?_,
    fun hn hfull => writeTenantRing_loses (ringAct_lose hn hfull), fun hn hroom => writeTenantRing_writes (ringAct_write hn hroom), fun hu hs => ?_,
    fun hn hfull => writeDevRing_loses (ringAct_lose hn hfull), fun hn hroom => writeDevRing_writes (ringAct_write hn hroom), fun ok => ?_, fun ok => ?_⟩
  · rw [writeTenantRing_merges (ringAct_merge ⟨hu, hs⟩)]
    exact ⟨rfl, rfl, tabGet_tabSet_same ..⟩
  · rw [writeDevRing_merges (ringAct_merge ⟨hu, hs⟩)]
    exact ⟨rfl, tabGet_tabSet_same ..⟩
  · obtain ⟨hin, hout⟩ := writeEfTail_of m (rEF_HEAD t.val) (rEF_TAIL t.val) 64 (v.toNat % 65536)
    have h := pathWord_efTail s.fuses v t ok
    rw [toNat_and_low16] at h
    exact ⟨fun hl => leaves_writeRow rfl (h.trans (hin hl)), fun hl => leaves_writeRow rfl (h.trans (hout hl))⟩
  · obtain ⟨hin, hout⟩ := writeEfTail_of m rEF_DEV_HEAD rEF_DEV_TAIL 1024 (v.toNat % 65536)
    have h := pathWord_efDevTail s.fuses v ok
    rw [toNat_and_low16] at h
    exact ⟨fun hl => leaves_writeRow rfl (h.trans (hin hl)), fun hl => leaves_writeRow rfl (h.trans (hout hl))⟩

end Sys2Proof.Machine
end

section
/-!
PROOFS. Commands of a queue that are turned away (R479, R551, R553, R674, R678, R697), and the register commands (R676).
-/
namespace Sys2Proof.Machine

/-! ## The checks before a command begins -/

section
variable {m : Mach} {cmd : CmdCtx} {op : Nat} {waits : RunCmd → Bool}

/-- Nothing holds a command back, and it is the one that was fetched (R674, R676). -/
abbrev Ready (m : Mach) (cmd : CmdCtx) (op : Nat) (waits : RunCmd → Bool) : Prop :=
  mayBegin m cmd.q.val cmd.cid waits = true ∧ (findCmd m cmd.q.val cmd.cid).any (·.op != op) = false

theorem beginCmd_waits (h : mayBegin m cmd.q.val cmd.cid waits = false) (rf : Nat) (f : Mach → Mach) : beginCmd m cmd op rf waits f = m :=
  if_pos (.inl (by rw [h]; rfl))

/-- The checks of a command that is ready, in their order. -/
theorem beginCmd_ready (h : Ready m cmd op waits) (rf : Nat) (f : Mach → Mach) : beginCmd m cmd op rf waits f =
    if tenantExists m cmd.q.val = false then refuse (begun m cmd) cmd.q.val cmd.cid op 0x0D01 0
    else if inRecovery m = true ∧ recoveryOps.contains op = false then refuse (begun m cmd) cmd.q.val cmd.cid op 0x1004 0
    else if cmd.resv = true then refuse (begun m cmd) cmd.q.val cmd.cid op rf 0
    else f (begun m cmd) := by
  obtain ⟨hmay, hop⟩ := h
  unfold beginCmd
  rw [if_neg (by simp [hmay, hop])]
  simp only [Bool.not_eq_true']
  rfl

end

/-- The fault of a reserved bit (R581, R678). -/
def resvFault (op : Nat) : Nat := if op = 0x53 then 0x0D02 else 0x0F02

/-- The rows that `commandOf` names pass through the checks of a command. -/
theorem exec_commandOf {i : Instr} {cmd : CmdCtx} {op : Nat} {waits : RunCmd → Bool} (h : commandOf i = some (cmd, op, waits)) (s : State) :
    ∃ f, exec i s = s.effect (fun m => beginCmd m cmd op (resvFault op) waits f) := by
  unfold commandOf at h
  split at h <;> cases h <;> exact ⟨_, rfl⟩

/-- A row of tenant 0's behind the checks that R479 and R553 add, with the first fault of its chapter. -/
def manageCmd (m : Mach) (cmd : CmdCtx) (op : Nat) (waits : RunCmd → Bool) (base : Nat) (f : Mach → Mach) : Mach :=
  beginCmd m { cmd with resv := false } op (base + 2) waits (fun m =>
    if cmd.q.val ≠ 0 then refuse m cmd.q.val cmd.cid op (base + 1) 0
    else if cmd.resv = true then refuse m 0 cmd.cid op (base + 2) 0
    else f m)

/-- What OWNER_ENROLL does once it begins (R575). -/
def enrollOwner (f : Fuses) (cmd : CmdCtx) (r : BufRef) (m : Mach) : Mach :=
  if refLen r ≠ 96 then refuse m 0 cmd.cid 0x54 0x0F03 0
  else withRef m cmd 0x54 r false (fun _ =>
    if f.owner.isSome = true then refuse m 0 cmd.cid 0x54 0x0D0A 0
    else complete (m.setFlagOf rHM_STATUS 0 true) 0 cmd.cid 0x54 0 0 0)

/-- What SVN_COMMIT does once it begins (R577). -/
def showSvn (n : Nat) (cmd : CmdCtx) (m : Mach) : Mach := complete (m.setRegN rHM_SVN n) 0 cmd.cid 0x55 0 0 0

theorem exec_ownerEnroll (cmd : CmdCtx) (r : BufRef) (s : State) : exec (.ownerEnroll cmd r) s = .next { s with
    fuses := ⟨s.fuses.owner.or (enrolled s.fuses s.mach cmd r), s.fuses.svn⟩,
    mach := ended (manageCmd s.taken cmd 0x54 noWait 0x0D00 (enrollOwner s.fuses cmd r)) } := rfl

theorem exec_svnCommit (cmd : CmdCtx) (s : State) : exec (.svnCommit cmd) s = .next { s with
    fuses := ⟨s.fuses.owner, if harbourRuns s.mach cmd 0x55 noWait then svnAfter s.fuses s.mach else s.fuses.svn⟩,
    mach := ended (manageCmd s.taken cmd 0x55 noWait 0x0D00 (showSvn (svnAfter s.fuses s.mach) cmd)) } := rfl

/-- Where they fuse nothing, they act on the machine alone. -/
theorem exec_ownerEnroll_none {s : State} {cmd : CmdCtx} {r : BufRef} (h : enrolled s.fuses s.mach cmd r = none) :
    exec (.ownerEnroll cmd r) s = s.effect (fun m => manageCmd m cmd 0x54 noWait 0x0D00 (enrollOwner s.fuses cmd r)) := by
  rw [exec_ownerEnroll, h, Option.or_none]
  rfl

theorem exec_svnCommit_none {s : State} {cmd : CmdCtx} (h : harbourRuns s.mach cmd 0x55 noWait = false) :
    exec (.svnCommit cmd) s = s.effect (fun m => manageCmd m cmd 0x55 noWait 0x0D00 (showSvn (svnAfter s.fuses s.mach) cmd)) := by
  rw [exec_svnCommit, h, if_neg Bool.false_ne_true]
  rfl

/-- What keeps a command of tenant 0's from its own effect (R479, R553, R674). -/
abbrev TurnedAway (m : Mach) (cmd : CmdCtx) (waits : RunCmd → Bool) : Prop :=
  mayBegin m cmd.q.val cmd.cid waits = false ∨ cmd.q.val ≠ 0 ∨ cmd.resv = true

theorem harbourRuns_of_turnedAway {m : Mach} {cmd : CmdCtx} {waits : RunCmd → Bool} (h : TurnedAway m cmd waits) (op : Nat) :
    harbourRuns m cmd op waits = false := by
  unfold harbourRuns
  rcases h with h | h | h <;> simp [h]

/-- The rows that `managementOf` names pass through those checks; they fuse nothing when they are turned away. -/
theorem exec_managementOf {i : Instr} {cmd : CmdCtx} {op base : Nat} {waits : RunCmd → Bool} (h : managementOf i = some (cmd, op, waits, base))
    (s : State) (haway : TurnedAway s.mach cmd waits) : ∃ f, exec i s = s.effect (fun m => manageCmd m cmd op waits base f) := by
  unfold managementOf at h
  split at h <;> cases h
  case h_7 r => exact ⟨_, exec_ownerEnroll_none (by rw [enrolled, harbourRuns_of_turnedAway haway]; rfl)⟩
  case h_8 => exact ⟨_, exec_svnCommit_none (harbourRuns_of_turnedAway haway _)⟩
  all_goals exact ⟨_, rfl⟩

/-- Settles O27: the rows pass through the checks of `beginCmd_ready`, and those of tenant 0's through two more. -/
theorem commandsTurnedAway : Obligations.CommandsTurnedAway := by
  unfold Obligations.CommandsTurnedAway
  constructor
  · intro s i cmd op waits hi m q ready held
    obtain ⟨f, hf⟩ := exec_commandOf hi s
    refine ⟨fun hw => leaves_effect hf (beginCmd_waits hw ..), fun hr ht => ?_, fun hr ht hh => ?_, fun hr ht hh hresv => ?_⟩ <;>
      refine leaves_effect hf ((beginCmd_ready hr ..).trans ?_)
    · exact if_pos ht
    · exact (if_neg (ne_false_of_eq_true ht)).trans (if_pos hh)
    · exact (if_neg (ne_false_of_eq_true ht)).trans ((if_neg hh).trans (if_pos hresv))
  · intro s i cmd op base waits hi m q
    refine ⟨fun hw => ?_, fun hb => ⟨fun hq => ?_, fun hq hresv => ?_⟩⟩
    · obtain ⟨f, hf⟩ := exec_managementOf hi s (.inl hw)
      exact leaves_effect hf (beginCmd_waits (cmd := { cmd with resv := false }) hw ..)
    · obtain ⟨f, hf⟩ := exec_managementOf hi s (.inr (.inl hq))
      exact leaves_effect hf ((beginCmd_begins hb ..).trans (if_pos hq))
    · obtain ⟨f, hf⟩ := exec_managementOf hi s (.inr (.inr hresv))
      refine leaves_effect hf ((beginCmd_begins hb ..).trans ((if_neg (not_not_intro hq)).trans ((if_pos hresv).trans ?_)))
      rw [← hq]
      rfl

/-! ## The register commands -/

/-- Settles O28: NOP, and the accesses of the queue's path below the end of BAR0. -/
theorem registerCommands : Obligations.RegisterCommands := by
  unfold Obligations.RegisterCommands
  intro s cmd off v b key
  refine ⟨fun hb => leaves_command rfl hb rfl, fun hb => ⟨fun hin => ?_, fun hout => leaves_command rfl hb (if_pos hout)⟩,
    fun hb => ⟨fun hin => ?_, fun hout => ?_⟩⟩
  · exact leaves_command rfl hb (if_neg (Nat.not_lt.2 hin))
  · exact leaves_effectF (f := fun f m => regWrite f m cmd off v) rfl ((beginCmd_begins hb ..).trans (if_neg (Nat.not_lt.2 hin)))
  · exact leaves_effectF (f := fun f m => regWrite f m cmd off v) rfl ((beginCmd_begins hb ..).trans (if_pos hout))

end Sys2Proof.Machine
end

section
/-!
PROOFS. A transition that overruns is abandoned (R477): what beginning the changes and the wakes that wait leaves of the domains' states and of
the faults raised.
-/
namespace Sys2Proof.Machine

/-- The domains' states stand, and every fault raised so far is still raised. -/
structure Pumped (a b : Mach) : Prop where
  dom : b.pm.dom = a.pm.dom
  raised : a.ef.raised ⊆ b.ef.raised

theorem Pumped.refl (m : Mach) : Pumped m m := ⟨rfl, List.Subset.refl _⟩

theorem Pumped.trans {a b c : Mach} (h : Pumped a b) (k : Pumped b c) : Pumped a c := ⟨k.dom.trans h.dom, fun _ hr => k.raised (h.raised hr)⟩

/-- What leaves the fault log and the power controller alone. -/
theorem Pumped.of_eq {a b : Mach} (hp : b.pm = a.pm) (he : b.ef = a.ef) : Pumped a b := ⟨by rw [hp], by rw [he]; exact List.Subset.refl _⟩

theorem pumped_foldl {α : Type} (f : Mach → α → Mach) (hf : ∀ m x, Pumped m (f m x)) (l : List α) (m : Mach) : Pumped m (l.foldl f m) := by
  induction l generalizing m with
  | nil => exact .refl m
  | cons x l ih => exact (hf m x).trans (ih _)

section
variable (m : Mach)

theorem pm_sendVec (v : Nat) : (sendVec m v).pm = m.pm := by
  unfold sendVec; repeat' split
  all_goals rfl

theorem pumped_setQueue (t : Nat) (q : Queue) : Pumped m (setQueue m t q) := .of_eq rfl rfl
theorem pumped_setReg (a : Nat) (w : Word) : Pumped m (m.setReg a w) := .of_eq rfl rfl

theorem pumped_coalesce (t : Nat) : Pumped m (coalesce m t) := by
  unfold coalesce; dsimp only; split
  · exact .of_eq (pm_sendVec ..) (raised_sendVec ..)
  · exact .of_eq rfl rfl

theorem pumped_writeCpl (c : Cpl) : Pumped m (writeCpl m c) := by
  unfold writeCpl; dsimp only
  refine .trans (.trans (.trans ?_ (pumped_setQueue ..)) (pumped_setReg ..)) (pumped_coalesce ..)
  split
  · exact .of_eq rfl rfl
  · exact .of_eq rfl rfl

theorem pumped_postCpl (c : Cpl) : Pumped m (postCpl m c) := by
  unfold postCpl; dsimp only; repeat' split
  · exact .of_eq rfl rfl
  · exact .of_eq rfl rfl
  · exact .refl m
  · exact .of_eq rfl rfl
  · exact pumped_writeCpl ..

theorem pumped_complete (q cid op st res det : Nat) : Pumped m (complete m q cid op st res det) :=
  .trans (b := dropCmd m q cid) (.of_eq rfl rfl) (pumped_postCpl ..)

theorem pumped_finishReqs : Pumped m (finishReqs m) := by
  unfold finishReqs; dsimp only
  refine .trans ?_ (pumped_foldl _ (fun m r => ?_) _ _)
  · exact ⟨rfl, List.Subset.refl _⟩
  · exact .trans (b := setMasks m r.changed r.offline) (.of_eq rfl rfl) (pumped_complete ..)

theorem pumped_pumpActs (l : List Act) (blocked : List Nat) : Pumped m (pumpActs l blocked m) := by
  induction l generalizing blocked m with
  | nil => exact .refl m
  | cons a as ih =>
    have hwaits : Pumped m { m with pm := { m.pm with acts := m.pm.acts ++ [a] } } := ⟨rfl, List.Subset.refl _⟩
    have hbegins : Pumped m (beginTrans m a) := ⟨rfl, List.Subset.refl _⟩
    unfold pumpActs; repeat' split
    · exact hwaits.trans (ih ..)
    · exact ih ..
    · exact hbegins.trans (ih ..)
    · exact hwaits.trans (ih ..)

theorem pumped_pumpPower : Pumped m (pumpPower m) :=
  .trans (b := { m with pm := { m.pm with acts := [] } }) ⟨rfl, List.Subset.refl _⟩ ((pumped_pumpActs ..).trans (pumped_finishReqs _))

theorem pumped_acceptPower (named st : Nat) (seam : Bool) (req : Nat) : Pumped m (acceptPower m named st seam req).1 := by
  unfold acceptPower; dsimp only; split
  · exact ⟨rfl, List.Subset.refl _⟩
  · exact ⟨rfl, List.subset_append_left ..⟩

theorem pumped_raiseDomains (ds : List Nat) : Pumped m (raiseDomains m ds) := by
  unfold raiseDomains; dsimp only; split
  · exact .refl m
  · exact (pumped_acceptPower ..).trans (pumped_pumpPower _)

theorem pumped_doWake (w : Wake) (replayed : Bool) : Pumped m (doWake m w replayed) :=
  (pumped_raiseDomains m _).trans (.of_eq rfl rfl)

theorem pumped_freeWakes : Pumped m (freeWakes m) := by
  unfold freeWakes; split
  · exact .refl m
  · exact .trans (b := { m with pm := { m.pm with latched := [] } }) ⟨rfl, List.Subset.refl _⟩ (pumped_foldl _ (fun m w => pumped_doWake m w true) _ _)

theorem sameParts_freeWakes : SameParts m (freeWakes m) := by
  unfold freeWakes; split
  · exact .refl m
  · exact (sameParts_pm m _).trans (sameParts_foldl _ (fun m w => sameParts_doWake m w true) _ _)

end

/-- Settles O56: the transition leaves the list as it is abandoned; what follows begins others, and keeps the domains' states. -/
theorem transitionTimeoutAbandons : Obligations.TransitionTimeoutAbandons := by
  unfold Obligations.TransitionTimeoutAbandons
  intro s d t m hand hfind hx hst
  let now := advanceTo m (t.begun + hand + 2 * (t.due - t.begun - hand))
  let y := raiseD (abandon now t) 0x0B05 0
  have hdom : t.dom = d.val := by simpa using List.find?_some hfind
  have hpumped : Pumped y (pumpPower (freeWakes y)) := (pumped_freeWakes y).trans (pumped_pumpPower _)
  have hsame : SameParts y (pumpPower (freeWakes y)) := (sameParts_freeWakes y).trans (sameParts_pumpPower _)
  have hleaves : Leaves (.transitionTimeout d) s (pumpPower (freeWakes y)) := by
    refine leaves_effect rfl ?_
    dsimp only
    rw [show s.taken.pm.trans.find? (·.dom == d.val) = some t from hfind]
    exact if_neg (ne_true_of_eq_false hx)
  refine ⟨_, y, _, hleaves, rfl, fun u hu => ?_, ?_, hpumped.raised (List.mem_append_right _ (List.mem_singleton_self _)), rfl, rfl, hsame.now, hsame.tk, hsame.st, hsame.mem⟩
  · have hne := (List.mem_filter.1 hu).2
    rw [hdom] at hne
    simpa using hne
  · rw [domSt, hpumped.dom]
    exact hst

end Sys2Proof.Machine
end

section
/-!
PROOFS. Writes of DB_CTRL and CH_PORT_CTRL (R560, R585–R589, R613), and of HS_Q_CFG (R661, R665, R683).
-/
namespace Sys2Proof.Machine

/-! ## The rows of the writes -/

theorem writeRow_dbCtrl : WriteRow rDB_CTRL 0 0 rDB_CTRL 0x1F := by decide
theorem writeRow_hsQCfg : ∀ t : Fin 64, WriteRow (rHS_Q_CFG t.val) t.val 0 (rHS_Q_CFG 0) 0x0FFFFFF3 := by decide

/-- The rows of the ports' control registers, one per port. -/
theorem writeRow_chPortCtrl : ∀ k : Fin 4, WriteRow (rCH_PORT_CTRL k.val) 0 0 (rCH_PORT_CTRL k.val) 1 := by decide

theorem idxOf_chPortCtrl : ∀ k : Fin 4, idxOf (rCH_PORT_CTRL k.val) (rCH_PORT_CTRL 0) 4 16 = some k.val ∧
    idxOf (rCH_PORT_CTRL k.val) (rCH_PORT_CFG 0) 4 16 = none := by decide

section
variable (f : Fuses) {m : Mach} {p : Path} {ctx : Nat} (v : Word)

theorem pathWord_dbCtrl (ok : WriteOk m p rDB_CTRL ctx) : pathWord f m p rDB_CTRL v = writeDbCtrl f m (v &&& 0x1F#32) := by
  obtain ⟨r, -, hacc, h⟩ := pathWord_single writesAs_dbCtrl writeRow_dbCtrl ok f v
  rw [h]
  simp only [applyReg, hacc, if_false, writesAs_dbCtrl.2.1]
  rw [writeLate, if_neg (by decide), if_neg (by decide), if_pos rfl]

theorem pathWord_chPortCtrl (k : Fin 4) (ok : WriteOk m p (rCH_PORT_CTRL k.val) ctx) :
    pathWord f m p (rCH_PORT_CTRL k.val) v = if flag (v &&& 1#32) 0 = true then sendWake m k.val else m := by
  obtain ⟨r, -, hacc, h⟩ := pathWord_single (writesAs_chPortCtrl k) (writeRow_chPortCtrl k) ok f v
  obtain ⟨hctrl, hcfg⟩ := idxOf_chPortCtrl k
  rw [h]
  simp only [applyReg, hacc, if_false, (writesAs_chPortCtrl k).2.1, hctrl, hcfg, Option.isSome_some, or_true, if_true, writePort]

theorem pathWord_hsQCfg (t : Fin 64) (ok : WriteOk m p (rHS_Q_CFG t.val) ctx) :
    pathWord f m p (rHS_Q_CFG t.val) v = writeQCfg m t.val (v &&& 0x0FFFFFF3#32).toNat := by
  obtain ⟨r, hbase, hacc, h⟩ := pathWord_single (writesAs_hsQCfg t) (writeRow_hsQCfg t) ok f v
  rw [h]
  simp only [applyReg, hacc, if_false, (writesAs_hsQCfg t).2.1]
  rw [writeHS, if_pos hbase]
end

/-! ## The debug lock -/

/-- What a write of each of the bits of DB_CTRL does alone (R585, R589). -/
theorem writeDbCtrl_newChallenge (f : Fuses) (m : Mach) : writeDbCtrl f m (1#32 &&& 0x1F#32) = newChallenge m := rfl

theorem writeDbCtrl_relock (f : Fuses) (m : Mach) :
    writeDbCtrl f m (16#32 &&& 0x1F#32) = { m.setFldOf rDB_STATE 0 2 0 with hm := { m.hm with unlocking := false } } := rfl

theorem unlock_bits : ∀ lv : Fin 4, let w := BitVec.ofNat 32 (2 + 4 * lv.val) &&& 0x1F#32
    flag w 0 = false ∧ flag w 1 = true ∧ flag w 4 = false ∧ fld w 2 2 = lv.val := by decide

theorem writeDbCtrl_unlock (f : Fuses) (m : Mach) (lv : Fin 4) :
    writeDbCtrl f m (BitVec.ofNat 32 (2 + 4 * lv.val) &&& 0x1F#32) = unlock f m lv.val := by
  obtain ⟨h0, h1, h4, hlv⟩ := unlock_bits lv
  simp only [writeDbCtrl, h0, h1, h4, hlv, Bool.false_eq_true, if_false, if_true]

/-- Consecutive registers set to words. -/
def setWords (a : Nat) (w : Nat → Nat) (n : Nat) (m : Mach) : Mach := (List.range n).foldl (fun m i => m.setRegN (a + 4 * i) (w i)) m

section
variable (a : Nat) (w : Nat → Nat) (m : Mach)

theorem setWords_succ (n : Nat) : setWords a w (n + 1) m = (setWords a w n m).setRegN (a + 4 * n) (w n) := by simp [setWords, List.range_succ]

theorem regN_setWords {n i : Nat} (h : i < n) : (setWords a w n m).regN (a + 4 * i) = w i % 2 ^ 32 := by
  induction n with
  | zero => exact absurd h (Nat.not_lt_zero i)
  | succ n ih =>
    rw [setWords_succ]
    by_cases hi : i = n
    · rw [hi, regN_setRegN_same]
    · rw [regN_setRegN_ne _ _ (by omega)]
      exact ih (by omega)

theorem setWords_frame (n : Nat) : (setWords a w n m).fresh = m.fresh ∧ (setWords a w n m).hm = m.hm := by
  induction n with
  | zero => exact ⟨rfl, rfl⟩
  | succ n ih => rw [setWords_succ]; exact ih
end

/-- A machine with a challenge that awaits its response. -/
def challenged (m : Mach) : Mach := { m with hm := { m.hm with challenge := true } }

theorem challenged_fresh (m : Mach) : (challenged m).fresh = m.fresh := rfl
theorem challenged_hm (m : Mach) : (challenged m).hm = { m.hm with challenge := true } := rfl
theorem challenged_regN (m : Mach) (a : Nat) : (challenged m).regN a = m.regN a := rfl

/-- A challenge is a fresh value, where the entropy source is good (R560, R585). -/
theorem newChallenge_eq {m : Mach} (h : m.flagOf rHM_STATUS 2 = false) : newChallenge m =
    challenged (setWords rDB_CHALLENGE_0 (fun i => bits (Config.freeValue m.fresh) (32 * i) 32) 12 { m with fresh := m.fresh + 1 }) := by
  unfold newChallenge setWords
  rw [if_neg (ne_true_of_eq_false h)]
  rfl

theorem newChallenge_draws {m : Mach} (h : m.flagOf rHM_STATUS 2 = false) : (newChallenge m).fresh = m.fresh + 1 ∧
    (newChallenge m).hm = { m.hm with challenge := true } ∧
    ∀ i < 12, (newChallenge m).regN (rDB_CHALLENGE_0 + 4 * i) = bits (Config.freeValue m.fresh) (32 * i) 32 := by
  obtain ⟨hfresh, hhm⟩ := setWords_frame rDB_CHALLENGE_0 (fun i => bits (Config.freeValue m.fresh) (32 * i) 32) { m with fresh := m.fresh + 1 } 12
  rw [newChallenge_eq h, challenged_fresh, challenged_hm, hfresh, hhm]
  refine ⟨rfl, rfl, fun i hi => ?_⟩
  rw [challenged_regN, regN_setWords _ _ _ hi, bits_eq, Nat.mod_mod]

theorem unlock_blocked {f : Fuses} {m : Mach} (h : m.flagOf rDB_STATE 8 = true) (lv : Nat) : unlock f m lv = raiseT m 0x0D0D 0 0 := if_pos h

/-- A saturated count is one of its field. -/
theorem satAdd_lt (n v d : Nat) : satAdd n v d < 2 ^ n := by
  have : 0 < 2 ^ n := Nat.two_pow_pos n
  unfold satAdd
  omega

/-- The challenge is used up. -/
def challengeUsed (m : Mach) : Mach := { m with hm := { m.hm with challenge := false } }

/-- A response that does not verify is counted, and the eighth blocks (R586, R587). -/
def unlockFailed (m : Mach) (tries : Nat) : Mach :=
  raiseT (if tries = 8 then (m.setFldOf rDB_STATE 4 4 tries).setFlagOf rDB_STATE 8 true else m.setFldOf rDB_STATE 4 4 tries) 0x0D0C 0 0

theorem unlockFailed_counts (m : Mach) : unlockFailed m (satAdd 4 (m.fldOf rDB_STATE 4 4) 1) =
    raiseT (if (m.satFld rDB_STATE 4 4 1).fldOf rDB_STATE 4 4 = 8 then (m.satFld rDB_STATE 4 4 1).setFlagOf rDB_STATE 8 true
      else m.satFld rDB_STATE 4 4 1) 0x0D0C 0 0 := by
  have hcount : (m.satFld rDB_STATE 4 4 1).fldOf rDB_STATE 4 4 = satAdd 4 (m.fldOf rDB_STATE 4 4) 1 :=
    (fldOf_setFldOf_same _ _ _ (by decide)).trans (Nat.mod_eq_of_lt (satAdd_lt 4 _ 1))
  rw [hcount]
  rfl

/-- An attempt that is not blocked uses up the challenge (R585–R588). -/
theorem unlock_tries {f : Fuses} {m : Mach} (h : m.flagOf rDB_STATE 8 = false) (lv : Nat) : unlock f m lv =
    if unlockOk f m lv = false then unlockFailed (challengeUsed m) (satAdd 4 (m.fldOf rDB_STATE 4 4) 1)
    else if lv = 1 then ((challengeUsed m).setFldOf rDB_STATE 0 2 1).setFldOf rDB_STATE 2 2 (max 1 (m.fldOf rDB_STATE 2 2))
    else settleUnlock (vendorWipe ((challengeUsed m).setFlagOf rHM_STATUS 3 false)) := by
  unfold unlock
  rw [if_neg (ne_true_of_eq_false h)]
  simp only [Bool.not_eq_true']
  exact if_congr Iff.rfl (unlockFailed_counts (challengeUsed m)).symm rfl

theorem unlockOk_level {f : Fuses} {m : Mach} {l : Nat} (h : unlockOk f m l = true) : l = 1 ∨ l = 2 := by
  unfold unlockOk at h
  split at h
  · exact .inl rfl
  · exact .inr rfl
  · simp at h

/-- Settles O24: each write is one bit of DB_CTRL or CH_PORT_CTRL. -/
theorem debugAndWakeWrites : Obligations.DebugAndWakeWrites := by
  unfold Obligations.DebugAndWakeWrites
  intro s p ctx lv k m used tries
  refine ⟨fun ok => ⟨fun hbad => ?_, fun hgood => ?_, fun hb => ?_, fun hb => ?_, fun l hl => unlockOk_level hl, ?_⟩, fun ok => ?_⟩
  · exact leaves_writeRow rfl ((pathWord_dbCtrl _ _ ok).trans (if_pos hbad))
  · exact ⟨_, leaves_writeRow rfl (pathWord_dbCtrl _ _ ok), newChallenge_draws hgood⟩
  · exact leaves_writeRow rfl ((pathWord_dbCtrl _ _ ok).trans ((writeDbCtrl_unlock ..).trans (unlock_blocked hb _)))
  · refine leaves_writeRow rfl ((pathWord_dbCtrl _ _ ok).trans ((writeDbCtrl_unlock ..).trans ((unlock_tries hb _).trans ?_)))
    simp only [Fin.ext_iff]
    rfl
  · exact leaves_writeRow rfl (pathWord_dbCtrl _ _ ok)
  · exact leaves_writeRow rfl (pathWord_chPortCtrl _ _ k ok)

/-! ## Queue pairs -/

/-- A configuration that R665 allows: rings of two entries or more, placed as R665 says, not in host memory over QSPI (R661). -/
def qCfgOk (m : Mach) (t : Nat) (w : Word) : Bool :=
  fld w 4 12 != 0 && fld w 16 12 != 0 && (flag w 1 || !isQspi m) &&
    (ringPlaced (flag w 1) (m.reg64 (rHS_SQ_BASE_LO t)) (64 * (fld w 4 12 + 1)) &&
      ringPlaced (flag w 1) (m.reg64 (rHS_CQ_BASE_LO t)) (16 * (fld w 16 12 + 1)))

theorem setRegN_toNat (m : Mach) (a : Nat) (w : Word) : m.setRegN a w.toNat = m.setReg a w := by
  rw [Mach.setRegN, BitVec.ofNat_toNat, BitVec.setWidth_eq]

/-- A write of HS_Q_CFG by what it finds, and by EN (R665, R683). -/
theorem writeQCfg_eq (m : Mach) (t : Nat) (w : Word) : writeQCfg m t w.toNat =
    if isResident m t = true then m
    else if qEnabled m t = true then (if flag w 0 = true then m else m.setFlagOf (rHS_Q_CFG t) 0 false)
    else if outstanding m t ≠ 0 then m
    else if flag w 0 = false then m.setReg (rHS_Q_CFG t) w
    else if qCfgOk m t w = false then raiseT m 0x0F02 0 0
    else ((setQueue m t Queue.init).setReg (rHS_Q_CFG t) w).setRegN (rHS_Q_STATUS t) (2 ^ 28) := by
  have hen : (!bit w.toNat 0) = true ↔ flag w 0 = false := by rw [Bool.not_eq_true']; rfl
  have hok : (fld w 4 12 = 0 ∨ fld w 16 12 = 0 ∨ ((!flag w 1) = true ∧ isQspi m = true) ∨
      (!ringPlaced (flag w 1) (m.reg64 (rHS_SQ_BASE_LO t)) (64 * (fld w 4 12 + 1))) = true ∨
      (!ringPlaced (flag w 1) (m.reg64 (rHS_CQ_BASE_LO t)) (16 * (fld w 16 12 + 1))) = true) ↔ qCfgOk m t w = false := by
    simp only [qCfgOk, Bool.and_eq_false_iff, Bool.or_eq_false_iff, bne_eq_false_iff_eq, Bool.not_eq_true', Bool.not_eq_false']
    tauto
  rw [← setRegN_toNat, ← setRegN_toNat]
  unfold writeQCfg
  simp only [hen]
  exact if_congr Iff.rfl rfl (if_congr Iff.rfl rfl (if_congr Iff.rfl rfl (if_congr Iff.rfl rfl (if_congr hok rfl rfl))))

/-- Settles O25: the cases of `writeQCfg_eq`. -/
theorem queuePairWrites : Obligations.QueuePairWrites := by
  unfold Obligations.QueuePairWrites
  intro s p v ctx t ok m w inside sq cq placed good
  have hleaves : Leaves (.hsQCfg p t v) s _ := leaves_writeRow rfl ((pathWord_hsQCfg _ v t ok).trans (writeQCfg_eq ..))
  refine ⟨fun hr => ?_, fun hr => ?_⟩
  · rwa [if_pos hr] at hleaves
  · rw [if_neg (ne_true_of_eq_false hr)] at hleaves
    refine ⟨fun he => ?_, fun he ho => ?_, fun he ho hw => ?_, fun he ho hw hk => ?_, fun he ho hw hk => ?_⟩
    · rwa [if_pos he] at hleaves
    all_goals rw [if_neg (ne_true_of_eq_false he)] at hleaves
    · rwa [if_pos ho] at hleaves
    all_goals rw [if_neg (not_not_intro ho)] at hleaves
    · rwa [if_pos hw] at hleaves
    all_goals rw [if_neg (ne_false_of_eq_true hw)] at hleaves
    · rwa [if_pos (show qCfgOk m t.val w = false from hk)] at hleaves
    · rwa [if_neg (ne_false_of_eq_true (show qCfgOk m t.val w = true from hk))] at hleaves

end Sys2Proof.Machine
end

section
/-!
PROOFS. The transactions of QSPI (R656, R659, R661).
-/
namespace Sys2Proof.Machine

/-- One word lies in one block (R659). -/
theorem qspiRun_one (a : Nat) : qspiRun a 1 = 1 := by simp [qspiRun]

section
variable {m : Mach} (hup : qspiUp m = true)
include hup

theorem not_qspiDown : ¬(!qspiUp m) = true := by simp [hup]

/-- A STATUS transaction is answered by the device's state, or by zero while HOST is not on (R659, R661). -/
theorem qspiStatus_status : qspiStatus m 0xB5 = if (!isOn m 17) = true then m.emit (.readData [0])
    else ({ m with hs := { m.hs with frameErr := false } } : Mach).emit
      (.readData [BitVec.ofNat 8 (b2n (!m.hs.qspiBuf.isEmpty) + 2 * b2n (irqAsserted m) + 4 * b2n m.hs.frameErr)]) :=
  (if_neg (not_qspiDown hup)).trans (if_neg (not_not_intro rfl))

theorem qspiStatus_unknown {inst : Nat} (h1 : inst ≠ 0xB1) (h2 : inst ≠ 0xB2) (h5 : inst ≠ 0xB5) : qspiStatus m inst = qspiBad m :=
  (if_neg (not_qspiDown hup)).trans ((if_pos h5).trans (if_neg (not_or.2 ⟨h1, h2⟩)))

variable {a : Nat}

theorem qspiRead_misaligned (ha : a % 4 ≠ 0) (n : Nat) (cut : Bool) : qspiRead m a n cut = qspiBad m :=
  (if_neg (not_qspiDown hup)).trans (if_pos ha)

theorem qspiWrite_misaligned (ha : a % 4 ≠ 0) (f : Fuses) (ws : List Word) (cut : Bool) : qspiWrite f m a ws cut = qspiBad m :=
  (if_neg (not_qspiDown hup)).trans (if_pos ha)

variable (ha : a % 4 = 0)
include ha

theorem qspiRead_off (hoff : isOn m 17 = false) (n : Nat) (cut : Bool) : qspiRead m a n cut = m.emit (.readData (List.replicate (4 * n) 0)) :=
  (if_neg (not_qspiDown hup)).trans ((if_neg (not_not_intro ha)).trans (if_pos (by simp [hoff])))

/-- A transaction of one word reads it in the context of the external host (R550, R659). -/
theorem qspiRead_word (hin : a < bar0) (hon : isOn m 17 = true) : qspiRead m a 1 false =
    (busRead m (pathKey .host) (m.fldOf rHM_HOST_CTX 0 6) a 4).1.emit (.readData (busRead m (pathKey .host) (m.fldOf rHM_HOST_CTX 0 6) a 4).2) := by
  unfold qspiRead
  rw [if_neg (not_qspiDown hup), if_neg (not_not_intro ha), if_neg (by simp [hon])]
  simp [qspiRun_one, hin]

/-- A transaction of one word writes it, or keeps it while HOST is not on and there is room (R659, R661). -/
theorem qspiWrite_word (f : Fuses) (w : Word) : qspiWrite f m a [w] false =
    if isOn m 17 = true then qspiWord f m a w
    else if m.hs.qspiBuf.length < 64 then { m with hs := { m.hs with qspiBuf := m.hs.qspiBuf ++ [(a, w)] } } else m := by
  unfold qspiWrite
  rw [if_neg (not_qspiDown hup), if_neg (not_not_intro ha)]
  simp [qspiRun_one]
end

/-- Settles O26: each transaction's case. -/
theorem qspiTransactions : Obligations.QspiTransactions := by
  unfold Obligations.QspiTransactions
  intro s a n inst w cut hup m bad status ctx
  have hup' : qspiUp m = true := hup
  refine ⟨fun hon => ?_, fun hoff => ?_, fun h1 h2 h5 => leaves_effect rfl (qspiStatus_unknown hup' h1 h2 h5), fun ha => ⟨?_, ?_⟩, fun ha hoff => ?_,
    fun ha hoff hroom => ?_, fun ha hin hon => ⟨?_, ?_⟩⟩
  · exact leaves_effect rfl ((qspiStatus_status hup').trans (if_neg (by simp [hon])))
  · exact leaves_effect rfl ((qspiStatus_status hup').trans (if_pos (by simp [hoff])))
  · exact leaves_effect rfl (qspiRead_misaligned hup' ha n cut)
  · exact leaves_effectF (f := fun f m => qspiWrite f m a [w] cut) rfl (qspiWrite_misaligned hup' ha s.fuses [w] cut)
  · exact leaves_effect rfl (qspiRead_off hup' ha hoff n cut)
  · refine leaves_effectF (f := fun f m => qspiWrite f m a [w] false) rfl ((qspiWrite_word hup' ha s.fuses w).trans ((if_neg (ne_true_of_eq_false hoff)).trans (if_pos hroom)))
  · exact leaves_effect rfl (qspiRead_word hup' ha hin hon)
  · exact leaves_effectF (f := fun f m => qspiWrite f m a [w] false) rfl ((qspiWrite_word hup' ha s.fuses w).trans ((if_pos hon).trans (if_pos hin)))

end Sys2Proof.Machine
end

section
/-!
PROOFS. Attestation (R581, R582), the owner key (R575), the security version (R576, R577), the consent to an RMA (R590), and the jobs of the
fabric (R631, R632).
-/
namespace Sys2Proof.Machine

/-! ## Attestation -/

/-- A report of a kind: the certificate report, or a FULL one of the state in which the command begins (R580–R582). -/
def reportOf (m : Mach) (kind scope : Nat) (nonce : List Byte) : List Byte × Mach :=
  if kind = 1 then (certReport, m) else fullReport m scope nonce

section
variable {s : State} {cmd : CmdCtx} {r : BufRef} {kind scope nlen : Nat} {nonce : List Byte} (hb : Begins s.taken cmd 0x53 noWait)
include hb

/-- An attestation whose operands are in range and that the policy allows, to a reference that R671 allows. -/
theorem leaves_attest (hok : ¬(1 < kind ∨ 1 < scope ∨ nlen < 8 ∨ 24 < nlen)) (hmay : mayAttest s.taken cmd.q.val kind scope = true)
    (hr : refOk s.taken cmd.q.val r false = true) {p : List Byte × Mach}
    (hp : reportOf (begun s.taken cmd) kind (if scope = 1 then 64 else cmd.q.val) (slice nonce 0 nlen) = p) :
    Leaves (.attest cmd kind scope nlen r nonce) s (if refLen r < p.1.length then refuse p.2 cmd.q.val cmd.cid 0x53 0x0D08 0
      else taking (writeRef p.2 cmd.q.val cmd.cid r p.1) cmd.q.val cmd.cid 0x53 p.1.length [] 0 0) := by
  refine leaves_command rfl hb ?_
  subst hp
  exact (if_neg hok).trans ((if_neg (ne_true_of_eq_false (congrArg (!·) hmay))).trans (if_neg (ne_true_of_eq_false (congrArg (!·) hr))))

theorem refuses_attest (hok : ¬(1 < kind ∨ 1 < scope ∨ nlen < 8 ∨ 24 < nlen)) (hmay : mayAttest s.taken cmd.q.val kind scope = false) :
    Refuses (.attest cmd kind scope nlen r nonce) s cmd 0x53 0x0D08 0 :=
  leaves_command rfl hb ((if_neg hok).trans (if_pos (congrArg (!·) hmay)))
end

/-! ## Fuses -/

section
variable {m : Mach} {cmd : CmdCtx} {op : Nat} {waits : RunCmd → Bool} (hq : cmd.q.val = 0) (h : Begins m cmd op waits)
include hq h

/-- A command of tenant 0's that begins reaches its own effect (R553). -/
theorem manageCmd_begins (base : Nat) (f : Mach → Mach) : manageCmd m cmd op waits base f = f (begun m cmd) := by
  obtain ⟨hmay, hop, ht, hrec, hresv⟩ := h
  have h' : Begins m { cmd with resv := false } op waits := ⟨hmay, hop, ht, hrec, rfl⟩
  rw [manageCmd, beginCmd_begins h', if_neg (not_not_intro hq), if_neg (ne_true_of_eq_false hresv)]
  rfl

theorem harbourRuns_of_begins : harbourRuns m cmd op waits = true := by
  obtain ⟨hmay, hop, -, hrec, hresv⟩ := h
  have hops : (!inRecovery m || recoveryOps.contains op) = true := by
    cases hr : inRecovery m
    · rfl
    · exact hrec hr
  unfold harbourRuns
  rw [hmay, hop, hops, hq, hresv]
  rfl
end

/-- The owner key is fused once (R575). -/
theorem enrolled_again {s : State} (cmd : CmdCtx) (r : BufRef) (hown : s.fuses.owner ≠ none) : enrolled s.fuses s.mach cmd r = none := by
  refine if_neg ?_
  rw [Option.isNone_eq_false_iff.2 (Option.isSome_iff_ne_none.2 hown), Bool.and_false]
  exact Bool.false_ne_true

section
variable {s : State} {cmd : CmdCtx} {r : BufRef} {d : List Byte} (hq : cmd.q.val = 0) (hb : Begins s.taken cmd 0x54 noWait) (hlen : refLen r = 96)
  (hr : refOk s.taken 0 r false = true) (hd : readRef s.taken 0 r = .ok d)
include hq hb hlen hr hd

/-- The key reaches OWNER_ENROLL, which fuses it where no owner is enrolled (R575). -/
theorem enrollOwner_reads (f : Fuses) : manageCmd s.taken cmd 0x54 noWait 0x0D00 (enrollOwner f cmd r) =
    if f.owner.isSome = true then refuse (begun s.taken cmd) 0 cmd.cid 0x54 0x0D0A 0
    else complete ((begun s.taken cmd).setFlagOf rHM_STATUS 0 true) 0 cmd.cid 0x54 0 0 0 := by
  rw [← hq] at hr hd
  rw [manageCmd_begins hq hb, enrollOwner, if_neg (not_not_intro hlen), withRef_delivers _ _ hr hd]

theorem enrolled_first (hown : s.fuses.owner = none) : enrolled s.fuses s.mach cmd r = some (sha384 d) := by
  have hruns : harbourRuns s.mach cmd 0x54 noWait = true := harbourRuns_of_begins (m := s.taken) hq hb
  have hbytes : refBytes s.mach 0 r = some d := by
    unfold refBytes
    rw [show refOk s.mach 0 r false = true from hr, show readRef s.mach 0 r = .ok d from hd]
    rfl
  rw [enrolled, hruns, hlen, hown, hbytes]
  rfl

end

/-- Settles O36: the checks of an attestation in their order, and what each of the three fusing commands does when it begins. -/
theorem attestationAndFuses : Obligations.AttestationAndFuses := by
  unfold Obligations.AttestationAndFuses
  intro s cmd r kind scope nlen nonce d m b q i bad full version
  refine ⟨fun hb => ⟨fun hbad => leaves_command rfl hb (if_pos hbad), fun hok hmay => refuses_attest hb hok hmay, fun hok hmay hr => ⟨fun hk => ?_, fun hk hfit => ?_⟩⟩,
    fun hq hb hlen hr hd => ⟨fun hown => ?_, fun hown => ?_⟩, fun hq hb => ?_, fun hq hb => ?_⟩
  · have hleaves := leaves_attest (nonce := nonce) (p := (certReport, b)) hb hok hmay hr (if_pos hk)
    exact hleaves
  · have hleaves := leaves_attest (nonce := nonce) (p := full) hb hok hmay hr (if_neg (by omega))
    rwa [if_neg (Nat.not_lt.2 hfit)] at hleaves
  · refine leaves_effect (exec_ownerEnroll_none (enrolled_again cmd r hown)) ((enrollOwner_reads hq hb hlen hr hd _).trans ?_)
    rw [if_pos (Option.isSome_iff_ne_none.2 hown), show cmd.q.val = 0 from hq]
  · rw [exec_ownerEnroll, enrollOwner_reads hq hb hlen hr hd, enrolled_first hq hb hlen hr hd hown, hown, Option.none_or,
      if_neg (by simp)]
  · have hruns : harbourRuns s.mach cmd 0x55 noWait = true := harbourRuns_of_begins (m := s.taken) hq hb
    rw [exec_svnCommit, manageCmd_begins hq hb, hruns]
    rfl
  · refine leaves_effect rfl ((manageCmd_begins hq hb _ _).trans ?_)
    rw [show cmd.q.val = 0 from hq]

end Sys2Proof.Machine
end

section
/-!
PROOFS. The jobs of the fabric (R631, R632).
-/
namespace Sys2Proof.Machine

/-- The nodes within reach are a matter of the topologies alone. -/
theorem reach_begun (m : Mach) (cmd : CmdCtx) (fuel d : Nat) (seen : List (Nat × Nat)) : reach (begun m cmd) fuel d seen = reach m fuel d seen := by
  induction fuel generalizing d seen with
  | zero => rfl
  | succ fuel ih =>
    unfold reach
    simp only [ih]
    rfl

theorem distFrom_begun (m : Mach) (cmd : CmdCtx) (uid : Nat) : distFrom (begun m cmd) uid = distFrom m uid := reach_begun ..

theorem jobReason_begun (m : Mach) (cmd : CmdCtx) (d : List Byte) : jobReason (begun m cmd) d = jobReason m d := by
  unfold jobReason
  simp only [distFrom_begun]
  rfl

/-- The job that a descriptor opens (R631). -/
def openedJob (m : Mach) (d : List Byte) : Job :=
  { job := byteFld d 4 1, tenant := byteFld d 5 1, relaxed := byteFld d 6 1 == 1, members := byteFld d 8 8, cutoff := byteFld d 32 4,
    groups := (List.range (byteFld d 7 1)).map (fun i => ⟨byteFld d (48 + 16 * i) 1, byteFld d (49 + 16 * i) 1, byteFld d (56 + 16 * i) 8⟩),
    digest := sha384 d, closing := false, halting := none, uids := (bitList (byteFld d 8 8) 64).map (fun n => (n, uidOf m n)), opened := fabricTick m + 1 }

/-- The word of CH_JOB_STATE that shows an open job. -/
def jobWord (j : Job) : Nat := 1 + 256 * j.tenant + 65536 * b2n j.relaxed

/-- The job joins those of the node and is shown (R631). -/
def jobOpened (m : Mach) (j : Job) : Mach := ({ m with ch := { m.ch with jobs := m.ch.jobs ++ [j] } } : Mach).setRegN (rCH_JOB_STATE j.job) (jobWord j)

/-- A number of one byte. -/
theorem byteFld_one_lt (d : List Byte) (o : Nat) : byteFld d o 1 < 256 := by
  unfold byteFld
  cases d.drop o with
  | nil => decide
  | cons b bs => simpa [leNat] using b.isLt

theorem jobWord_lt {j : Job} (h : j.tenant < 256) : jobWord j < 2 ^ 32 := by
  have hr : b2n j.relaxed ≤ 1 := by unfold b2n; split <;> omega
  unfold jobWord
  omega

section
variable {s : State} {cmd : CmdCtx} {r : BufRef} {d : List Byte} (hb : Begins s.taken cmd 0x58 noWait) (hq : cmd.q.val = 0)
  (hr : refOk s.taken cmd.q.val r false = true) (hd : readRef s.taken cmd.q.val r = .ok d)
include hb hq hr hd

/-- A descriptor that reaches JOB_OPEN of tenant 0 opens its job, or is refused with a reason (R631, R632). -/
theorem leaves_jobOpen : Leaves (.jobOpen cmd r) s
    (if jobReason s.taken d ≠ 0 then refuse (begun s.taken cmd) cmd.q.val cmd.cid 0x58 0x0E08 (jobReason s.taken d)
    else complete (jobOpened (begun s.taken cmd) (openedJob s.taken d)) cmd.q.val cmd.cid 0x58 0 0 0) := by
  refine leaves_command rfl hb ?_
  dsimp only
  rw [if_neg (not_not_intro hq), withRef_delivers _ _ hr hd, jobReason_begun]
  rfl
end

/-- Settles O38: both commands are tenant 0's; what the opened job holds is read off its descriptor. -/
theorem jobCommands : Obligations.JobCommands := by
  unfold Obligations.JobCommands
  intro s cmd r d job m b q
  refine ⟨fun hb => ⟨fun hq => leaves_command rfl hb (if_pos hq), fun hq hr hd => ⟨fun hk => ?_, fun hk => ?_⟩⟩,
    fun hb => ⟨fun hq => leaves_command rfl hb (if_pos hq), fun hq hj => ?_, fun hq hj => ?_⟩⟩
  · have hleaves := leaves_jobOpen hb hq hr hd
    rwa [if_pos hk] at hleaves
  · have hleaves := leaves_jobOpen hb hq hr hd
    rw [if_neg (not_not_intro hk)] at hleaves
    refine ⟨_, openedJob m d, hleaves, rfl, rfl, rfl, rfl, rfl, rfl, rfl, rfl, rfl, rfl, by simp [openedJob], ?_, rfl, rfl, rfl⟩
    exact (regN_setRegN_same ..).trans (Nat.mod_eq_of_lt (jobWord_lt (byteFld_one_lt d 5)))
  · exact leaves_command rfl hb ((if_neg (not_not_intro hq)).trans (if_pos (congrArg (!·) hj)))
  · exact leaves_command rfl hb ((if_neg (not_not_intro hq)).trans (if_neg (ne_true_of_eq_false (congrArg (!·) hj))))

end Sys2Proof.Machine
end

section
/-!
PROOFS. Events of a fabric port: flits and acknowledgements (R604–R610), training and the ways out of ACTIVE (R612, R615, R616).
-/
namespace Sys2Proof.Machine

/-! ## Flits -/

/-- A flit whose check sum fails (R606). -/
abbrev CrcBad (bs : List Byte) : Prop := byteFld bs 72 4 ≠ crc32 (bs.take 72)

/-- A flit that a port does not take: damaged, or out of order (R610). -/
abbrev FlitBad (m : Mach) (p : Nat) (bs : List Byte) (blockErr : Bool) : Prop :=
  CrcBad bs ∨ blockErr = true ∨ bs.length ≠ 80 ∨ byteFld bs 76 1 ≠ (port m p).exp

/-- The count of failed check sums (R643). -/
def crcCounted (m : Mach) (p : Nat) (bs : List Byte) : Mach := if CrcBad bs then m.satFld (rCH_PORT_ERR p) 0 16 1 else m

section
variable {m : Mach} {p : Nat} (hactive : portState m p = 2)
include hactive

/-- A port asks for a replay once, until the flit that it expects arrives (R610). -/
theorem receiveFlit_bad {bs : List Byte} {blockErr : Bool} (h : FlitBad m p bs blockErr) : receiveFlit m p bs blockErr =
    if (port m p).nakd = true then crcCounted m p bs
    else sendAck (setPort (crcCounted m p bs) p { port m p with nakd := true }) p true := by
  unfold receiveFlit crcCounted
  rw [if_neg (not_not_intro hactive)]
  simp only [bne_iff_ne]
  exact if_pos h

theorem receiveFlit_good {bs : List Byte} {blockErr : Bool} (h : ¬FlitBad m p bs blockErr) : receiveFlit m p bs blockErr =
    pumpPorts (sendAck (acceptFlit (setPort m p { port m p with exp := ((port m p).exp + 1) % 256, nakd := false }) p (bs.take 72)) p false) := by
  unfold receiveFlit
  rw [if_neg (not_not_intro hactive)]
  simp only [bne_iff_ne, if_neg (fun hcrc : CrcBad bs => h (.inl hcrc))]
  exact if_neg h
end

/-! ## Acknowledgements -/

/-- The flits that an ACK leaves unacknowledged (R604, R610). -/
def unacked (c : ChPort) (body : Nat) : List (List Byte × Nat) :=
  ((c.sent.findIdx? (fun e => byteFld e.1 76 1 == bits body 8 8)).map (fun i => c.sent.drop (i + 1))).getD c.sent

/-- An ACK returns credits, and leaves `sent` in the replay buffer (R604, R608). -/
def ackWith (m : Mach) (p body : Nat) (sent : List (List Byte × Nat)) : Mach :=
  let c := port m p
  setPort m p { c with credits := c.credits.zipIdx.map (fun e => e.1 + bits body (17 + 4 * e.2) 4), sent,
                       lastAdv := if sent.length < c.sent.length then m.clk.now else c.lastAdv }

/-- A negative ACK asks for a replay of what it leaves (R610). -/
def ackReplayed (m : Mach) (p body : Nat) (sent : List (List Byte × Nat)) : Mach :=
  pumpPorts (if bit body 16 then resend (ackWith m p body sent) p else ackWith m p body sent)

theorem leaves_ack {s : State} {p : Fin 4} (hactive : portState s.taken p.val = 2) (body : Nat) :
    Leaves (.ack p body) s (ackReplayed s.taken p.val body (unacked (port s.taken p.val) body)) := by
  refine leaves_effect rfl ((if_neg (not_not_intro hactive)).trans (congrArg (ackReplayed s.taken p.val body) ?_))
  unfold unacked
  split <;> rename_i hfind <;> rw [hfind] <;> rfl

section
variable {y : Mach} {p : Nat}

theorem resend_nothing (h : (port y p).sent = []) : resend y p = y := if_pos (by rw [h]; rfl)

theorem resend_fails (h : (port y p).sent ≠ []) (height : (port y p).sent.any (fun e => decide (8 ≤ e.2)) = true) : resend y p = linkFails y p :=
  (if_neg (by simpa using h)).trans (if_pos height)

/-- What a port sends in order changes nothing else. -/
theorem foldl_emit (f : List Byte × Nat → Out) (l : List (List Byte × Nat)) (m : Mach) :
    l.foldl (fun m e => m.emit (f e)) m = { m with out := m.out ++ l.map f } := by
  induction l generalizing m with
  | nil => simp
  | cons e l ih => rw [List.foldl_cons, ih]; simp [Mach.emit]

/-- Every unacknowledged flit is sent again in order, and its resends are counted (R610). -/
theorem resend_all (h : (port y p).sent ≠ []) (hfew : (port y p).sent.any (fun e => decide (8 ≤ e.2)) = false) (hp : p < y.ch.ports.length) :
    (port (resend y p) p).sent = (port y p).sent.map (fun e => (e.1, e.2 + 1)) ∧
      (resend y p).out = y.out ++ (port y p).sent.map (fun e => Out.link p e.1) := by
  have hresend : resend y p = _ := (if_neg (by simpa using h)).trans ((if_neg (ne_true_of_eq_false hfew)).trans (foldl_emit (fun e => .link p e.1) _ _))
  rw [hresend]
  refine ⟨?_, rfl⟩
  simp only [port, setPort, Mach.satFld_ch]
  simp [hp]
end

/-! ## Link states -/

section
variable {m : Mach} {p : Nat}

theorem leaveActive_idle (h : portState m p ≠ 2) (st : Nat) : leaveActive m p st = m := if_pos h
end

/-- What a port whose training is under way answers (R604, R612). -/
def trainAnswered (m : Mach) (p : Nat) (aligned locked : Bool) : Mach :=
  let c := port m p
  let l := c.locked || aligned
  let r := c.ready || (l && locked)
  (setPort m p { c with locked := l, ready := r }).emit (.link p (leBytes 8 (0x78 + 2 ^ 16 * b2n l + 2 ^ 17 * b2n r)))

/-- The port's training can go on (R612). -/
abbrev MayTrain (m : Mach) (p : Nat) : Prop := portRuns m p = true ∧ (portState m p = 1 ∨ portState m p = 3) ∧ (port m p).trainAt ≤ m.clk.now

/-- A port that sleeps begins its training anew (R612). -/
def trainBegun (m : Mach) (p : Nat) : Mach := if portState m p = 3 then enterTrain m p m.clk.now else m

theorem mayTrain_iff {m : Mach} {p : Nat} :
    ((!portRuns m p) = true ∨ (!decide (portState m p = 1 ∨ portState m p = 3)) = true ∨ m.clk.now < (port m p).trainAt) ↔ ¬MayTrain m p := by
  simp only [MayTrain, Bool.not_eq_true', decide_eq_false_iff_not, ← Nat.not_le]
  rw [← Bool.not_eq_true]
  tauto

section
variable {s : State} {p : Fin 4} (aligned locked ready : Bool)

theorem leaves_train_idle (h : ¬MayTrain s.taken p.val) : Leaves (.train p aligned locked ready) s s.taken :=
  leaves_effect rfl (if_pos (mayTrain_iff.2 h))

/-- Both ends are ready (R612). -/
def bothReady (c : ChPort) (aligned locked ready : Bool) : Bool := (c.ready || (c.locked || aligned) && locked) && ready

/-- The port answers, and enters ACTIVE once both ends are ready (R612, R615). -/
theorem leaves_train (h : MayTrain s.taken p.val) : Leaves (.train p aligned locked ready) s
    (if bothReady (port (trainBegun s.taken p.val) p.val) aligned locked ready = true then
      enterActive (trainAnswered (trainBegun s.taken p.val) p.val aligned locked) p.val
    else trainAnswered (trainBegun s.taken p.val) p.val aligned locked) :=
  leaves_effect rfl (if_neg (fun hn => mayTrain_iff.1 hn h))

/-- A training that did not end in time starts again (R612). -/
def trainMissed (m : Mach) (p : Nat) : Mach :=
  let c := port m p
  let due := advanceTo m (c.trainAt + 3840)
  setPort due p { c with locked := false, ready := false, fails := c.fails + 1, failRaised := c.failRaised || decide (8 ≤ c.fails + 1),
                         trainAt := due.clk.now + 38400 }

theorem leaves_trainingTimeout_idle (h : portState s.taken p.val ≠ 1) : Leaves (.trainingTimeout p) s s.taken := leaves_effect rfl (if_pos h)

/-- The eighth miss in a row raises CH_TRAIN_FAIL once (R612). -/
theorem leaves_trainingTimeout (h : portState s.taken p.val = 1) : Leaves (.trainingTimeout p) s
    (if 8 ≤ (port s.taken p.val).fails + 1 ∧ (!(port s.taken p.val).failRaised) = true then raiseD (trainMissed s.taken p.val) 0x0E02 p.val
    else trainMissed s.taken p.val) :=
  leaves_effect rfl (if_neg (not_not_intro h))
end

/-- Settles O49: each event on a port in each of its states. -/
theorem fabricPortEvents : Obligations.FabricPortEvents := by
  unfold Obligations.FabricPortEvents
  intro s p bs blockErr aligned locked ready body y m c active crcBad counted bad taken sent freed cy due missed mayTrain w cw l r answered
  refine ⟨fun ha => ⟨?_, ?_, ?_, ?_, ?_⟩, fun ha hb hn => ?_, fun ha hb hn => ?_, fun ha hb => ?_, fun ha hb => ?_, fun ha hb => ?_, fun ha hs => ?_, fun ha hs => ?_,
    resend_nothing, resend_fails, resend_all, fun ha => leaves_effect rfl rfl, fun ha => leaves_effect rfl rfl,
    fun ht => leaves_train_idle _ _ _ ht, fun ht hr => ?_, fun ht hr => ?_, leaves_trainingTimeout_idle, fun h1 hq => ?_, fun h1 h7 hn => ?_⟩
  · exact leaves_effect rfl (if_pos ha)
  · exact leaves_effect rfl (if_pos ha)
  · exact leaves_effect rfl (if_pos (.inl ha))
  · exact leaves_effect rfl (leaveActive_idle ha 3)
  · exact leaves_effect rfl (leaveActive_idle ha _)
  · exact leaves_effect rfl ((receiveFlit_bad ha hb).trans (if_pos hn))
  · exact leaves_effect rfl ((receiveFlit_bad ha hb).trans (if_neg (ne_true_of_eq_false hn)))
  · exact leaves_effect rfl (receiveFlit_good ha hb)
  · have hleaves := leaves_ack ha body
    rwa [ackReplayed, if_neg (ne_true_of_eq_false hb)] at hleaves
  · have hleaves := leaves_ack ha body
    rwa [ackReplayed, if_pos hb] at hleaves
  · exact leaves_effect rfl (if_pos (.inr (by rw [show (port s.taken p.val).sent = [] from hs]; rfl)))
  · exact leaves_effect rfl (if_neg (not_or.2 ⟨not_not_intro ha, by simpa using hs⟩))
  · have hleaves := leaves_train aligned locked ready ht
    rwa [if_pos (show bothReady (port (trainBegun s.taken p.val) p.val) aligned locked ready = true from Bool.and_eq_true_iff.2 hr)] at hleaves
  · have hleaves := leaves_train aligned locked ready ht
    rwa [if_neg (fun h : bothReady (port (trainBegun s.taken p.val) p.val) aligned locked ready = true => hr (Bool.and_eq_true_iff.1 h))] at hleaves
  · have hleaves := leaves_trainingTimeout h1
    have hfew : ¬(8 ≤ (port s.taken p.val).fails + 1 ∧ (!(port s.taken p.val).failRaised) = true) := fun ⟨h8, hn⟩ =>
      hq.elim (fun h7 => Nat.not_lt.2 (Nat.le_of_succ_le_succ h8) h7) (fun h => by rw [show (port s.taken p.val).failRaised = true from h] at hn; cases hn)
    rwa [if_neg hfew] at hleaves
  · have hleaves := leaves_trainingTimeout h1
    rwa [if_pos ⟨Nat.succ_le_succ h7, congrArg (!·) hn⟩] at hleaves

end Sys2Proof.Machine
end

section
/-!
PROOFS. What the machine keeps for its tenants, and what the end of other objects leaves of it (R225, R232, R250, R262, R364, R406, R556).
-/
namespace Sys2Proof.Machine

/-- What the machine keeps for its tenants: cascades, manifests, images, rules, owners of places, loads, and the keys that are held. -/
structure Holdings where
  cas : List Casc
  mans : List Manifest
  images : List Image
  rules : List Rule
  owner : Tab Nat
  loading : List Loading
  keys : Nat → Bool

def Mach.holdings (m : Mach) : Holdings :=
  ⟨m.cas, m.mem.mans, m.fl.images, m.hm.rules, m.tk.owner, m.sto.loading, fun t => (tenRec m t).key⟩

theorem SameParts.holdings {m m' : Mach} (h : SameParts m m') : m'.holdings = m.holdings := by
  simp only [Mach.holdings, tenRec, h.cas, h.mem, h.fl, h.hm, h.tk, h.sto]

theorem holdings_foldl {α : Type} {f : Mach → α → Mach} (hf : ∀ m x, (f m x).holdings = m.holdings) (l : List α) (m : Mach) :
    (l.foldl f m).holdings = m.holdings := by
  induction l generalizing m with
  | nil => rfl
  | cons x l ih => exact (ih _).trans (hf m x)

/-! ## Keys -/

theorem tabFind_map {β : Type} (f : β → β) (t : Tab β) (a : Nat) : tabFind (t.map (fun e => (e.1, f e.2))) a = (tabFind t a).map f := by
  induction t with
  | nil => rfl
  | cons e t ih =>
    simp only [List.map_cons, tabFind, ih]
    split <;> rfl

/-- A change of every record that keeps its key. -/
theorem key_map {f : TenRec → TenRec} (hf : ∀ r, (f r).key = r.key) (t : Tab TenRec) (a : Nat) :
    (tabGet (t.map (fun e => (e.1, f e.2))) a TenRec.init).key = (tabGet t a TenRec.init).key := by
  unfold tabGet
  rw [tabFind_map]
  cases tabFind t a with
  | none => rfl
  | some r => exact hf r

/-- A change of one record that keeps its key. -/
theorem key_set {r : TenRec} {t : Tab TenRec} {a : Nat} (hr : r.key = (tabGet t a TenRec.init).key) (k : Nat) :
    (tabGet (tabSet t a r TenRec.init) k TenRec.init).key = (tabGet t k TenRec.init).key := by
  rw [tabGet_tabSet]
  split
  · next h => rw [hr, h]
  · rfl

theorem holdings_setTenRec (m : Mach) {r : TenRec} {t : Nat} (hr : r.key = (tenRec m t).key) : (setTenRec m t r).holdings = m.holdings :=
  congrArg (Holdings.mk _ _ _ _ _ _) (funext (key_set hr))

/-! ## Lists, transfers and writes -/

theorem runNotice_holdings (m : Mach) (slot tenant tick status cls : Nat) : (runNotice m slot tenant tick status cls).holdings = m.holdings := by
  unfold runNotice; split
  · rfl
  · exact (sameParts_notice ..).holdings

theorem listEnd_holdings (m : Mach) (id : Nat) : (listEnd m id).holdings = m.holdings := by
  unfold listEnd; dsimp only; repeat' split
  · rfl
  · rfl
  · rfl
  · rfl
  · rfl
  · exact runNotice_holdings ..
  · rfl

theorem dropXfer_holdings (m : Mach) (x : Xfer) : (dropXfer m x).holdings = m.holdings := listEnd_holdings ..

theorem failList_holdings (m : Mach) (id code : Nat) : (failList m id code).holdings = m.holdings := by
  unfold failList; split <;> rfl

theorem storeAlloc_holdings (m : Mach) (h gen off : Nat) (bs : List Byte) : (storeAlloc m h gen off bs).holdings = m.holdings := by
  unfold storeAlloc; split
  · rfl
  · unfold touchPage; split <;> rfl

theorem moveBytes_holdings (m : Mach) (x : Xfer) (n : Nat) : (moveBytes m x n).holdings = m.holdings := by
  unfold moveBytes; repeat' split
  · rfl
  · rfl
  · rfl
  · rfl
  · exact storeAlloc_holdings ..

theorem abortOne_holdings (st : Nat) (m : Mach) (x : Xfer) : (abortOne st m x).holdings = m.holdings :=
  (moveBytes_holdings m.draw.2 x _).trans rfl

/-- Transfers that end take nothing of a tenant's with them (R262–R264). -/
theorem abortXfers_holdings (m : Mach) (p : Xfer → Bool) (st : Nat) : (abortXfers m p st).holdings = m.holdings := by
  refine (holdings_foldl dropXfer_holdings _ _).trans ((holdings_foldl (abortOne_holdings st) _ _).trans (holdings_foldl (fun m x => ?_) _ _))
  split
  · exact failList_holdings ..
  · rfl

theorem abortWrites_holdings (m : Mach) (p : FWrite → Bool) : (abortWrites m p).holdings = m.holdings := rfl

theorem endCmdsOn_holdings (m : Mach) (k : Nat) : (endCmdsOn m k).holdings = m.holdings := rfl

/-- A tenant's record without the weights of an allocation (R572). -/
def forgetWeights (h gen : Nat) (r : TenRec) : TenRec := { r with weights := r.weights.filter (fun w => !(w.2.2.2.1 == h && w.2.2.2.2 == gen)) }

/-- An allocation that ceases to exist takes only itself and its weights' records (R225). -/
theorem dropAlloc_holdings (m : Mach) (h : Nat) : (dropAlloc m h).holdings = m.holdings := by
  unfold dropAlloc; split
  · rfl
  · next a _ =>
      refine Eq.trans ?_ (abortXfers_holdings (endCmdsOn m (objKey 1 h)) (fun x => x.h == h && x.gen == a.gen) 3)
      exact congrArg (Holdings.mk _ _ _ _ _ _) (funext (key_map (f := forgetWeights h a.gen) (fun _ => rfl) _))

/-! ## Streams, programs and partitions -/

theorem freeStream_holdings (m : Mach) (n : Nat) : (freeStream m n).holdings = m.holdings := rfl

theorem capOff_holdings (m : Mach) (c : Nat) : (capOff m c).holdings = m.holdings := by
  unfold capOff; dsimp only; split <;> rfl

/-- The log keeps the key of the tenant whose program it forgets. -/
theorem unlogProgram_holdings (m : Mach) (t k h : Nat) : (unlogProgram m t k h).holdings = m.holdings := holdings_setTenRec m rfl

theorem unloadTask_holdings (m : Mach) (t : LhTask) : (unloadTask m t).holdings = m.holdings := unlogProgram_holdings ..

theorem writePartOwner_holdings (m : Mach) (p v : Nat) : (writePartOwner m p v).holdings = m.holdings := by
  unfold writePartOwner; split <;> rfl

theorem clearRes_holdings (m : Mach) (t : Nat) : (clearRes m t).holdings = m.holdings := by
  unfold clearRes
  refine holdings_foldl (fun m x => ?_) _ _
  rfl

/-! ## A disarm -/

theorem postCas_hm (m : Mach) (t stage kind : Nat) (cause : Option Nat) : (postCas m t stage kind cause).hm = m.hm := by
  unfold postCas; dsimp only; split
  · exact (sameParts_postEvent ..).hm
  · split
    · rfl
    · rfl
    · exact (sameParts_postEvent ..).hm

theorem hm_foldl {α : Type} {f : Mach → α → Mach} (hf : ∀ m x, (f m x).hm = m.hm) (l : List α) (m : Mach) : (l.foldl f m).hm = m.hm := by
  induction l generalizing m with
  | nil => rfl
  | cons x l ih => exact (ih _).trans (hf m x)

theorem dropOne_hm (expired : Bool) (cause : Option Nat) (m : Mach) (t j e : Nat) : (dropOne expired cause m t j e).hm = m.hm := by
  unfold dropOne; split
  · rfl
  · split
    · rfl
    · dsimp only
      split
      · rfl
      · exact postCas_hm ..

theorem dropBond_hm (m : Mach) (t j e : Nat) (expired : Bool) (cause : Option Nat) : (dropBond m t j e expired cause).hm = m.hm := by
  unfold dropBond; split
  · rfl
  · split
    · rfl
    · refine (hm_foldl (fun m k => ?_) _ _).trans (dropOne_hm ..)
      split
      · exact dropOne_hm ..
      · rfl

/-- A disarm is a matter of the cascade (R315). -/
theorem disarmNow_hm (m : Mach) (t : Nat) : (disarmNow m t).hm = m.hm := by
  have hbonds := hm_foldl (fun m k => dropBond_hm m t k (quayNow m + 1) false none) ((List.range 6).filter (2 ≤ ·)) m
  unfold disarmNow; dsimp only; split <;> exact hbonds

end Sys2Proof.Machine
end

section
/-!
PROOFS. What a tenant's destruction takes from the machine (R556).
-/
namespace Sys2Proof.Machine

theorem dropKey_key (m : Mach) (t : Nat) : (tenRec (dropKey m t) t).key = false :=
  congrArg TenRec.key (tabGet_tabSet_same ..)

/-- Step 3 of R556 takes the tenant's cascade. -/
theorem dropCascade_holdings (m : Mach) (t : Nat) :
    (dropCascade m t).holdings = { (disarmNow m t).holdings with cas := (disarmNow m t).cas.filter (·.tenant != t) } := by
  refine (holdings_foldl (fun m n => ?_) _ _).trans rfl
  split
  · rfl
  · dsimp only
    split
    · exact capOff_holdings ..
    · exact freeStream_holdings ..

theorem disarmNow_keys (m : Mach) (t : Nat) : (disarmNow m t).holdings.keys = m.holdings.keys := by
  simp only [Mach.holdings, tenRec, disarmNow_hm]

/-- Step 4 of R556 takes the tenant's manifests, images, rules and loads. -/
theorem dropObjects_holdings (m : Mach) (t : Nat) : (dropObjects m t).holdings =
    { m.holdings with mans := m.holdings.mans.filter (·.tenant != t), images := m.holdings.images.filter (·.owner != t),
                      rules := m.holdings.rules.filter (·.tenant != t), loading := m.holdings.loading.filter (·.tenant != t) } := by
  unfold dropObjects
  extract_lets hs m1 ms mem m2 ls m3 is fl m4 m5 m6 hs' sto hm m7
  have h1 : m1.holdings = m.holdings := holdings_foldl dropAlloc_holdings _ _
  clear_value m1
  have h2 : m2.holdings = { m1.holdings with mans := m1.holdings.mans.filter (·.tenant != t) } := holdings_foldl (fun _ _ => endCmdsOn_holdings ..) _ _
  clear_value m2
  have h3 : m3.holdings = m2.holdings := holdings_foldl (fun m (l : CList) => listEnd_holdings (putList m { l with abandoned := true }) l.id) _ _
  clear_value m3
  have h4 : m4.holdings = { m3.holdings with images := m3.holdings.images.filter (·.owner != t) } := holdings_foldl (fun _ _ => endCmdsOn_holdings ..) _ _
  clear_value m4
  have h5 : m5.holdings = m4.holdings := by unfold m5; split <;> rfl
  clear_value m5
  have h7 : m7.holdings = { m5.holdings with rules := m5.holdings.rules.filter (·.tenant != t), loading := m5.holdings.loading.filter (·.tenant != t) } := rfl
  clear_value m7
  rw [clearRes_holdings, (sameParts_setFlagOf ..).holdings, h7, h5, h4, h3, h2, h1]

/-- Step 5 of R556 takes the tenant's places. -/
theorem dropPlaces_holdings (m : Mach) (t : Nat) : (dropPlaces m t).holdings = { m.holdings with owner := m.holdings.owner.filter (·.2 != t) } := by
  refine (holdings_foldl (fun m p => ?_) _ _).trans ((holdings_foldl unloadTask_holdings _ _).trans rfl)
  split
  · exact writePartOwner_holdings ..
  · rfl

/-- What a tenant's destruction leaves at once (R556). -/
def tenantDropped (m : Mach) (t : Nat) : Mach := dropPlaces (dropObjects (dropCascade (dropKey m t) t) t) t

theorem tenantDropped_holdings (m : Mach) (t : Nat) : (tenantDropped m t).holdings =
    let h := (disarmNow (dropKey m t) t).holdings
    ⟨h.cas.filter (·.tenant != t), h.mans.filter (·.tenant != t), h.images.filter (·.owner != t), h.rules.filter (·.tenant != t), h.owner.filter (·.2 != t),
      h.loading.filter (·.tenant != t), (dropKey m t).holdings.keys⟩ := by
  rw [tenantDropped, dropPlaces_holdings, dropObjects_holdings, dropCascade_holdings]
  exact congrArg (Holdings.mk _ _ _ _ _ _) (disarmNow_keys (dropKey m t) t)

end Sys2Proof.Machine
end

section
/-!
PROOFS. The harbourmaster's commands on tenants and access rules (R553–R565), and the test of the entropy source (R560).
-/
namespace Sys2Proof.Machine

section
variable {i : Instr} {s : State} {cmd : CmdCtx} {op : Nat} {waits : RunCmd → Bool} {f : Mach → Mach}
  (hi : exec i s = s.effect (fun m => harbourCmd m cmd op waits f)) (hq : cmd.q.val = 0) (hb : Begins s.taken cmd op waits)
include hi hq hb

theorem leaves_harbourCmd {M : Mach} (hM : f (begun s.taken cmd) = M) : Leaves i s M :=
  leaves_effect hi ((manageCmd_begins hq hb 0x0D00 f).trans hM)

theorem refuses_harbourCmd {fault detail : Nat} (hM : f (begun s.taken cmd) = refuse (begun s.taken cmd) 0 cmd.cid op fault detail) :
    Refuses i s cmd op fault detail := by
  rw [Refuses, hq]
  exact leaves_harbourCmd hi hq hb hM
end

/-! ## A created tenant -/

/-- A pool's reservation of a tenant becomes zero, and the sum follows (R252). -/
def resCleared (t : Nat) (m : Mach) (x : Nat) : Mach :=
  let m := m.setFldOf (rCR_RES t x) 0 16 0
  m.setFldOf (rCR_RES_SUM x) 0 16 (resSum m x)

theorem sameParts_clearRes (m : Mach) (t : Nat) : SameParts m (clearRes m t) :=
  sameParts_foldl (resCleared t) (fun _ _ => (sameParts_setReg ..).trans (sameParts_setReg ..)) _ _

theorem sameParts_freshTenant (m : Mach) (t mode quota : Nat) : SameParts m (freshTenant m t mode quota) :=
  ((((((sameParts_clearRes m t).trans (sameParts_setRegN ..)).trans (sameParts_setRegN ..)).trans (sameParts_setRegN ..)).trans
    (sameParts_setRegN ..)).trans (sameParts_setReg ..)).trans (sameParts_setRegN ..)

theorem resCleared_res (m : Mach) (t : Nat) {x y : Nat} (hx : x < 5) (hy : y < 5) :
    (resCleared t m y).fldOf (rCR_RES t x) 0 16 = if x = y then 0 else m.fldOf (rCR_RES t x) 0 16 := by
  have hsum : rCR_RES t x ≠ rCR_RES_SUM y := by unfold rCR_RES rCR_RES_SUM; omega
  rw [resCleared, Mach.fldOf, reg_setFldOf_ne _ hsum]
  split
  · next h => subst h; exact fldOf_setFldOf_same _ _ _ (by decide)
  · next h => rw [reg_setFldOf_ne _ (by unfold rCR_RES; omega), Mach.fldOf]

/-- Every reservation of the tenant that the list names is zero afterwards. -/
theorem foldl_resCleared_res {t x : Nat} (hx : x < 5) (l : List Nat) (hl : ∀ y ∈ l, y < 5) (m : Mach) (h : x ∈ l ∨ m.fldOf (rCR_RES t x) 0 16 = 0) :
    (l.foldl (resCleared t) m).fldOf (rCR_RES t x) 0 16 = 0 := by
  induction l generalizing m with
  | nil => exact h.resolve_left (List.not_mem_nil)
  | cons y l ih =>
    refine ih (fun z hz => hl z (List.mem_cons_of_mem _ hz)) _ ?_
    rw [resCleared_res m t hx (hl y List.mem_cons_self)]
    by_cases hxy : x = y
    · exact .inr (if_pos hxy)
    · rw [if_neg hxy]
      exact h.imp_left (fun hmem => (List.mem_cons.1 hmem).resolve_left hxy)

theorem clearRes_res (m : Mach) (t : Nat) {x : Nat} (hx : x < 5) : (clearRes m t).fldOf (rCR_RES t x) 0 16 = 0 :=
  foldl_resCleared_res hx (List.range 5) (fun _ => List.mem_range.1) m (.inl (List.mem_range.2 hx))

/-- The quotas and counters that a creation zeroes (R52, R554). -/
def freshZeros (t : Nat) : List Nat := [rTK_CHOICE_CAUSE t, rTK_CHOICE t, rSQ_QUOTA t, rTM_DRAM_QUOTA t]

section
variable (m : Mach) (t mode quota : Nat) {k : Nat}

theorem freshTenant_reg_ne (himg : k ≠ rHM_IMG_QUOTA t) (hcfg : k ≠ rHM_TENANT_CFG t) :
    (freshTenant m t mode quota).reg k = if k ∈ freshZeros t then 0 else (clearRes m t).reg k := by
  rw [freshTenant, reg_setRegN_ne _ _ himg, reg_setFldOf_ne _ hcfg]
  simp only [Mach.setRegN, Mach.reg_setReg, freshZeros, List.mem_cons, List.not_mem_nil, or_false, ite_or, BitVec.ofNat_eq_ofNat]

theorem freshTenant_zero (ht : t ≤ 63) (hk : k ∈ freshZeros t) : (freshTenant m t mode quota).regN k = 0 := by
  have hwhere := hk
  simp only [freshZeros, List.mem_cons, List.not_mem_nil, or_false, rTK_CHOICE_CAUSE, rTK_CHOICE, rSQ_QUOTA, rTM_DRAM_QUOTA] at hwhere
  rw [Mach.regN, freshTenant_reg_ne _ _ _ _ (by unfold rHM_IMG_QUOTA; omega) (by unfold rHM_TENANT_CFG; omega), if_pos hk]
  rfl

theorem freshTenant_res (ht : t ≤ 63) {x : Nat} (hx : x < 5) : (freshTenant m t mode quota).fldOf (rCR_RES t x) 0 16 = 0 := by
  have hnot : rCR_RES t x ∉ freshZeros t := by
    simp only [freshZeros, List.mem_cons, List.not_mem_nil, or_false, rCR_RES, rTK_CHOICE_CAUSE, rTK_CHOICE, rSQ_QUOTA, rTM_DRAM_QUOTA]
    omega
  rw [Mach.fldOf, freshTenant_reg_ne _ _ _ _ (by unfold rCR_RES rHM_IMG_QUOTA; omega) (by unfold rCR_RES rHM_TENANT_CFG; omega), if_neg hnot]
  exact clearRes_res m t hx

theorem freshTenant_mode (hmode : mode ≤ 1) : (freshTenant m t mode quota).fldOf (rHM_TENANT_CFG t) 1 1 = mode := by
  have himg : rHM_TENANT_CFG t ≠ rHM_IMG_QUOTA t := by unfold rHM_TENANT_CFG rHM_IMG_QUOTA; omega
  rw [freshTenant, Mach.fldOf, reg_setRegN_ne _ _ himg]
  exact (fldOf_setFldOf_same _ _ _ (by decide)).trans (Nat.mod_eq_of_lt (by omega))

theorem freshTenant_quota (hquota : quota ≤ 65535) : (freshTenant m t mode quota).regN (rHM_IMG_QUOTA t) = quota :=
  (regN_setRegN_same ..).trans (Nat.mod_eq_of_lt (by omega))
end

/-- The record of a created tenant, with a key and a nonce of its own (R554). -/
def createdRec (n : Nat) : TenRec := { TenRec.init with nonce := Config.freeValue n % 2 ^ 128, key := true, creating := true }

/-- A tenant as its creation leaves it (R554). -/
def tenantCreated (m : Mach) (t mode quota : Nat) : Mach := setTenRec (freshTenant m.draw.2 t mode quota) t (createdRec m.fresh)

section
variable (m : Mach) (t : Nat) (r : TenRec)

/-- A tenant's record is kept apart from the registers. -/
theorem setTenRec_regN (a : Nat) : (setTenRec m t r).regN a = m.regN a := rfl
theorem setTenRec_fldOf (a lo n : Nat) : (setTenRec m t r).fldOf a lo n = m.fldOf a lo n := rfl
theorem setTenRec_fl : (setTenRec m t r).fl = m.fl := rfl
theorem setTenRec_mem : (setTenRec m t r).mem = m.mem := rfl
theorem setTenRec_st : (setTenRec m t r).st = m.st := rfl
end

/-- Flash, memory and the strict domain stand when a tenant is created. -/
theorem tenantCreated_kept (m : Mach) (t mode quota : Nat) :
    (tenantCreated m t mode quota).fl = m.fl ∧ (tenantCreated m t mode quota).mem = m.mem ∧ (tenantCreated m t mode quota).st = m.st := by
  have h := sameParts_freshTenant m.draw.2 t mode quota
  rw [tenantCreated, setTenRec_fl, setTenRec_mem, setTenRec_st]
  exact ⟨h.fl, h.mem, h.st⟩

/-- The registers of a created tenant (R52, R252, R554). -/
theorem tenantCreated_regs (m : Mach) {t mode quota : Nat} (ht : t ≤ 63) (hmode : mode ≤ 1) (hquota : quota ≤ 65535) :
    let y := tenantCreated m t mode quota
    y.regN (rTM_DRAM_QUOTA t) = 0 ∧ y.regN (rSQ_QUOTA t) = 0 ∧ y.regN (rTK_CHOICE t) = 0 ∧ y.regN (rTK_CHOICE_CAUSE t) = 0 ∧
      y.regN (rHM_IMG_QUOTA t) = quota ∧ y.fldOf (rHM_TENANT_CFG t) 1 1 = mode ∧ (∀ x < 5, y.fldOf (rCR_RES t x) 0 16 = 0) := by
  simp only [tenantCreated, setTenRec_regN, setTenRec_fldOf]
  have hzero {k : Nat} (hk : k ∈ freshZeros t) := freshTenant_zero m.draw.2 t mode quota ht hk
  exact ⟨hzero (by simp [freshZeros]), hzero (by simp [freshZeros]), hzero (by simp [freshZeros]), hzero (by simp [freshZeros]),
    freshTenant_quota _ _ _ _ hquota, freshTenant_mode _ _ _ _ hmode, fun _ => freshTenant_res _ _ _ _ ht⟩

theorem leaves_tenantCreate {s : State} {cmd : CmdCtx} {t mode quota : Nat} (hq : cmd.q.val = 0) (hb : Begins s.taken cmd 0x50 noWait)
    (hok : ¬(63 < t ∨ 1 < mode ∨ 65535 < quota)) (hreason : createReason s.taken t = 0) (hro : s.taken.fl.readOnly = false) :
    Leaves (.tenantCreate cmd t mode quota) s
      (finish (addWrite (tenantCreated (begun s.taken cmd) t mode quota) (.record t) 0 cmd.cid none) 0 cmd.cid 0x50 0 0 [objKey 8 t]) := by
  refine leaves_harbourCmd rfl hq hb ?_
  exact (if_neg hok).trans ((if_neg (not_not_intro hreason)).trans (if_neg (ne_true_of_eq_false hro)))

/-! ## A destroyed tenant -/

/-- Nothing of a tenant is left where its entries are taken out of a list. -/
theorem ne_of_mem_filter {α : Type} {l : List α} {f : α → Nat} {t : Nat} {x : α} (h : x ∈ l.filter (fun x => f x != t)) : f x ≠ t := by
  simpa using (List.mem_filter.1 h).2

theorem leaves_tenantDestroy {s : State} {cmd : CmdCtx} {t : Nat} (hq : cmd.q.val = 0) (hb : Begins s.taken cmd 0x51 (naming (objKey 8 t)))
    (ht : ¬(t = 0 ∨ 63 < t)) (hd : destroying s.taken t = false) (he : tenantExists s.taken t = true)
    (hn : anyNaming s.taken (fun e => e.tenant == t) = false) (hro : s.taken.fl.readOnly = false) : Leaves (.tenantDestroy cmd t) s
      (finish (addWrite (tenantDropped ((begun s.taken cmd).setFlagOf (rHM_TENANT_CFG t) 2 true) t) (.erase t) 0 cmd.cid none)
        0 cmd.cid 0x51 0 0 [objKey 8 t]) := by
  refine leaves_harbourCmd rfl hq hb ?_
  exact (if_neg ht).trans ((if_neg (ne_true_of_eq_false hd)).trans ((if_neg (ne_true_of_eq_false (congrArg (!·) he))).trans
    ((if_neg (ne_true_of_eq_false hn)).trans (if_neg (ne_true_of_eq_false hro)))))

/-- A destroyed tenant has no key, cascade, manifest, image, rule, place or load (R556). -/
theorem tenantDropped_gone (m : Mach) (t : Nat) : let y := tenantDropped m t
    (tenRec y t).key = false ∧ cascOf y t = none ∧ (∀ x ∈ y.mem.mans, x.tenant ≠ t) ∧ (∀ x ∈ y.fl.images, x.owner ≠ t) ∧
      (∀ x ∈ y.hm.rules, x.tenant ≠ t) ∧ (∀ x ∈ y.tk.owner, x.2 ≠ t) ∧ (∀ x ∈ y.sto.loading, x.tenant ≠ t) := by
  have h := tenantDropped_holdings m t
  simp only [Mach.holdings, Holdings.mk.injEq] at h
  obtain ⟨hcas, hmans, himages, hrules, howner, hloading, hkeys⟩ := h
  refine ⟨(congrFun hkeys t).trans (dropKey_key m t), ?_, ?_, ?_, ?_, ?_, ?_⟩
  · rw [cascOf, hcas]
    exact List.find?_eq_none.2 (fun c hc => by simpa using ne_of_mem_filter hc)
  · rw [hmans]; exact fun _ => ne_of_mem_filter
  · rw [himages]; exact fun _ => ne_of_mem_filter
  · rw [hrules]; exact fun _ => ne_of_mem_filter
  · rw [howner]; exact fun _ => ne_of_mem_filter
  · rw [hloading]; exact fun _ => ne_of_mem_filter

/-! ## Access rules -/

theorem installRules_rules (m : Mach) (rules : List Rule) : (installRules m rules).hm.rules = rules :=
  congrArg Holdings.rules ((abortWrites_holdings ..).trans (abortXfers_holdings ..))

theorem running_hm (m : Mach) (q cid op wait : Nat) (c : Option Cpl) (objs : List Nat) (lo hi : Nat) :
    (running m q cid op wait c objs lo hi).hm = m.hm := by
  unfold running; dsimp only; split <;> rfl

/-- The rules of a set, and that it keeps to the table of R561. -/
def ruleSet (d : List Byte) : List Rule := ((List.range (d.length / 16)).map (ruleEnt d)).filter (·.kind != 0)
abbrev RulesOk (m : Mach) (d : List Byte) : Prop :=
  d.length % 16 = 0 ∧ d.length ≤ 8192 ∧ (List.range (d.length / 16)).all (ruleOk m d) = true

theorem rulesOk_iff {m : Mach} {d : List Byte} :
    (d.length % 16 ≠ 0 ∨ 8192 < d.length ∨ (!(List.range (d.length / 16)).all (ruleOk m d)) = true) ↔ ¬RulesOk m d := by
  rw [Bool.not_eq_true', ← Bool.not_eq_true]
  simp only [RulesOk, ← Nat.not_le]
  tauto

/-- The update's rules are installed, and its completion waits for the fence (R562). -/
def fencePending (m : Mach) (cid : Nat) (rules : List Rule) : Mach :=
  let held := running ((installRules m rules).setFlagOf rHM_STATUS 1 true) 0 cid 0x52 waitFence none [] 0 0
  { held with hm := { held.hm with fence := some (0, cid) } }

section
variable {s : State} {cmd : CmdCtx} {r : BufRef} {d : List Byte} (hq : cmd.q.val = 0) (hb : Begins s.taken cmd 0x52 noWait)
  (hr : refOk s.taken 0 r false = true) (hd : readRef s.taken 0 r = .ok d)
include hq hb hr hd

/-- What RULES_UPDATE does with the bytes of its reference (R561, R562). -/
theorem leaves_rulesUpdate : Leaves (.rulesUpdate cmd r) s
    (if s.taken.flagOf rHM_STATUS 1 = true then refuse (begun s.taken cmd) 0 cmd.cid 0x52 0x0D06 0
    else if d.length % 16 ≠ 0 ∨ 8192 < d.length ∨ (!(List.range (d.length / 16)).all (ruleOk s.taken d)) = true then
      refuse (begun s.taken cmd) 0 cmd.cid 0x52 0x0D05 0
    else fencePending (begun s.taken cmd) cmd.cid (ruleSet d)) := by
  rw [← hq] at hr hd
  exact leaves_harbourCmd rfl hq hb (withRef_delivers _ _ hr hd)
end

/-- The fence of an update is complete (R565). -/
theorem leaves_ruleFence {s : State} {q cid : Nat} (h : s.taken.hm.fence = some (q, cid)) : Leaves .ruleFence s
    (if s.taken.mem.xfers.any (·.st == 2) = true ∨ s.taken.fl.writes.any (fun w => w.unmapped && !w.done && w.xf.isSome) = true then s.taken
    else complete { (s.taken.setFlagOf rHM_STATUS 1 false).setFldOf rHM_RULE_EPOCH 16 16 (s.taken.fldOf rHM_RULE_EPOCH 0 16) with
      hm := { s.taken.hm with fence := none } } q cid 0x52 0 0 0) := by
  refine leaves_effect rfl ?_
  dsimp only
  rw [h]
  rfl

theorem leaves_ruleFence_none {s : State} (h : s.taken.hm.fence = none) : Leaves .ruleFence s s.taken := by
  refine leaves_effect rfl ?_
  dsimp only
  rw [h]

/-- Settles O35: the checks of each command in their order, and what it does when it passes them. -/
theorem tenantCommands : Obligations.TenantCommands := by
  unfold Obligations.TenantCommands
  intro s cmd t mode quota cid q r d m posts fenced rules held rulesOk open'
  refine ⟨fun hq hb => ⟨fun hbad => ?_, fun ht hmode hquota hk => ?_, fun ht hmode hquota hk hro => ?_⟩,
    fun hq hb h1 h63 => ⟨fun hd => ?_, fun hd he => ?_, fun hd he hn => ?_, fun hd he hn hro => ?_⟩,
    fun hq hb hr hd => ⟨fun hp => ?_, fun hp hbad => ?_, fun hp hok => ⟨?_, ?_⟩⟩,
    leaves_ruleFence_none, fun hf => ⟨fun hopen => ?_, fun hclosed => ?_⟩, leaves_effect rfl rfl, leaves_effect rfl rfl⟩
  · refine refuses_harbourCmd rfl hq hb ?_
    exact if_pos hbad
  · have hok : ¬(63 < t ∨ 1 < mode ∨ 65535 < quota) := by omega
    refine refuses_harbourCmd rfl hq hb ?_
    exact (if_neg hok).trans (if_pos hk)
  · have hok : ¬(63 < t ∨ 1 < mode ∨ 65535 < quota) := by omega
    obtain ⟨hdram, hsq, hchoice, hcause, himg, hcfg, hres⟩ := tenantCreated_regs (begun m cmd) ht hmode hquota
    exact ⟨_, leaves_tenantCreate hq hb hok hk hro, hdram, hsq, hchoice, hcause, himg, hcfg, hres, tabGet_tabSet_same .., tenantCreated_kept ..⟩
  · have ht : ¬(t = 0 ∨ 63 < t) := by omega
    refine refuses_harbourCmd rfl hq hb ?_
    exact (if_neg ht).trans (if_pos hd)
  · have ht : ¬(t = 0 ∨ 63 < t) := by omega
    refine refuses_harbourCmd rfl hq hb ?_
    exact (if_neg ht).trans ((if_neg (ne_true_of_eq_false hd)).trans (if_pos (congrArg (!·) he)))
  · have ht : ¬(t = 0 ∨ 63 < t) := by omega
    refine refuses_harbourCmd rfl hq hb ?_
    exact (if_neg ht).trans ((if_neg (ne_true_of_eq_false hd)).trans
      ((if_neg (ne_true_of_eq_false (congrArg (!·) he))).trans (if_pos hn)))
  · have ht : ¬(t = 0 ∨ 63 < t) := by omega
    exact ⟨_, leaves_tenantDestroy hq hb ht hd he hn hro, tenantDropped_gone ..⟩
  · have hleaves := leaves_rulesUpdate hq hb hr hd
    rw [if_pos hp] at hleaves
    rwa [Refuses, hq]
  · have hleaves := leaves_rulesUpdate hq hb hr hd
    rw [if_neg (ne_true_of_eq_false hp), if_pos (rulesOk_iff.2 hbad)] at hleaves
    rwa [Refuses, hq]
  · have hleaves := leaves_rulesUpdate hq hb hr hd
    rwa [if_neg (ne_true_of_eq_false hp), if_neg (fun h => rulesOk_iff.1 h hok)] at hleaves
  · rw [show held.hm = _ from running_hm ..]
    exact installRules_rules ..
  · have hleaves := leaves_ruleFence hf
    rwa [if_pos hopen] at hleaves
  · have hleaves := leaves_ruleFence hf
    rwa [if_neg hclosed] at hleaves

end Sys2Proof.Machine
end
